-- ==== Sys2Proof/Word.lean ====
section
/-!
DEFINITION. The word types of the model and the sparse table every indexed part of the state is held in.
-/

namespace Sys2Proof

/-- One byte. -/
abbrev Byte := BitVec 8
/-- Wrapping counters and words of the widths the manual uses (R11, R17). -/
abbrev W16 := BitVec 16
abbrev W24 := BitVec 24
abbrev W32 := BitVec 32
abbrev W48 := BitVec 48
abbrev W64 := BitVec 64

/-- A table indexed by a natural number, held sparsely: pairs of a key and a value with strictly rising keys,
none of whose values equals what an unlisted key reads as. Equal tables are equal data. -/
abbrev Tab (α : Type) := List (Nat × α)

/-- The mode of a two-way choice between the arrays of an engine: false is array A, true array B (R5). -/
abbrev ArrayId := Bool

end Sys2Proof
end

