-- ==== Sys2Proof/Syntax.lean ====
section
/-!
DEFINITION. The commands of the block: one constructor per row of spec/opcode_table.json, with the operands a sender or the
module's surroundings supply (an address, a value, the bytes a host read returned, a sensor reading). Unit numbers carry
their range in their type (R5, R22), records are bit vectors of their stated width (R7).
-/

namespace Sys2Proof

/-- An engine number, 0 to 63 (R5). -/
abbrev EngineId := BitVec 6
/-- A context number, 0 to 1,023 (R73). -/
abbrev ContextId := BitVec 10
/-- An instance number, 0 to 1,023 (R5). -/
abbrev InstanceId := BitVec 10
/-- A 16-bit unit identifier: kind in [15:8], index in [7:0] (R22). -/
abbrev UnitId := BitVec 16
/-- A cell number, 0 to 511 (R211). -/
abbrev CellId := BitVec 9

/-- How a non-posted host read ended (R347). -/
inductive ReadResult where
  | good
  | poisoned
  | refused
  | timeout
deriving DecidableEq, Repr

/-- A function of the host link: the physical function (the provider) or the virtual function of an instance (R346). -/
inductive Source where
  | provider
  | inst (n : InstanceId)
deriving DecidableEq, Repr

/-- Who makes a dictionary request: the physical function's window, an instance's window, or a keeper session (R367). -/
inductive Requester where
  | pf
  | vf (n : InstanceId)
  | keeper (session : BitVec 2)
deriving DecidableEq, Repr

/-- The path an SPDM message travels: the DOE mailbox of the physical function, or the keeper line with its session or connection and the
datagram's source (R364, R391, R393). -/
inductive SpdmPath where
  | doe
  | keeper (session : BitVec 2) (address : BitVec 128) (port : BitVec 16)
deriving DecidableEq, Repr

/-- How the read of a MOOR step's image ended, and the 32 bytes it brought (R134). -/
structure ImageRead where
  result : ReadResult
  bytes : BitVec 256
deriving DecidableEq, Repr

/-- How a fetched line came back (R148, R203, R295). -/
inductive LineResult where
  | good
  | poisoned
  | dataLost
  | fabric (status : BitVec 8)
deriving DecidableEq, Repr

/-- The reply to one of a context's outstanding reads: its place among them, in the order of their issue, and how it came back (R34). -/
structure LineReturn where
  entry : BitVec 11
  result : LineResult
deriving DecidableEq, Repr

/-- What abandons a pass (R122). -/
inductive AbandonCause where
  | feederParity
  | cellOrDrain
  | thermal
deriving DecidableEq, Repr

/-- A code block (or other unit of coding work) of a cell's slot: its PDU and its number within it, with the sizes of R237
that TS 38.212 derives for it. -/
structure CodeBlock where
  cell : CellId
  pdu : BitVec 7
  index : BitVec 8
  baseGraph2 : Bool
  z : BitVec 9
  k : BitVec 14
  e : BitVec 17
  ncb : BitVec 16
deriving DecidableEq, Repr

/-- A job the radio dispatcher gives to a signal core (R254, R255): kernel, units, and the values its scalars take. -/
structure JobRequest where
  kernel : BitVec 8
  units : BitVec 16
  cell : CellId
  slotLow : BitVec 32
  pdu : BitVec 7
  args : BitVec 128
  owner : ContextId
deriving DecidableEq, Repr

/-- A write as it reaches a memory controller (R299): first byte within the segment, the bytes, the poison flag, the
requester's unit, the traffic class, and the generation and instance it carries (R354). -/
structure MemWrite where
  offset : BitVec 8
  data : List Byte
  poison : Bool
  requester : UnitId
  cls : BitVec 2
  inst : Option (InstanceId × BitVec 16)
deriving DecidableEq, Repr

/-- What the hardware finds while it starts (R28, R30, R120, R316, R317, R465): straps, near channels that fail training and those that pass
at the second attempt, the far ports' capacities in units of 256 MiB, widths and whether each runs at 64 GT/s, lane latencies in picoseconds,
and the rows that the arrays' self-test finds faulty. -/
structure StartupReport where
  klMaster : Bool
  testEn : Bool
  channelsFailed : List (Fin 48)
  channelsRetried : List (Fin 48)
  farCapacity : List (BitVec 32)
  farWidth : List (BitVec 5)
  farSpeed : List Bool
  laneLatency : List (UnitId × BitVec 32)
  arrayFaultyRows : List (EngineId × Bool × BitVec 6)
deriving DecidableEq, Repr

/-- The commands, in the order of the table. -/
inductive Instr where
  /-- TIME_BASE_TICK (R47). -/
  | timeBaseTick
  /-- TIME_INCREMENT_WRITE (R50). -/
  | timeIncrementWrite (value complement : BitVec 64)
  /-- TIME_PHASE_STEP_WRITE (R52). -/
  | timePhaseStepWrite (step : BitVec 64)
  /-- PHASE_STEP_APPLY (R52). -/
  | phaseStepApply
  /-- TIME_SET_WRITE (R53). -/
  | timeSetWrite (value : BitVec 96)
  /-- TIME_SET_LOAD (R53). -/
  | timeSetLoad
  /-- HOLDOVER_DETECT_EXPIRY (R55). -/
  | holdoverDetectExpiry
  /-- HOLDOVER_LIMIT_EXPIRY (R55). -/
  | holdoverLimitExpiry
  /-- PPS_IN_EDGE (R67). -/
  | ppsInEdge
  /-- REF10M_DRIFT_SAMPLE (R67). -/
  | ref10mDriftSample
  /-- SYNCE_LOCK_LOSS (R61). -/
  | synceLockLoss
  /-- EDGE_EMIT (R65). -/
  | edgeEmit (unit : UnitId) (index : BitVec 14)
  /-- WINDOW_START_EDGE (R75). -/
  | windowStartEdge (unit : UnitId) (entry : BitVec 13)
  /-- WINDOW_END_EDGE (R78). -/
  | windowEndEdge (unit : UnitId) (entry : BitVec 13)
  /-- PERIOD_BOUNDARY (R97). -/
  | periodBoundary
  /-- GROUP_GATE (R27). -/
  | groupGate (group : BitVec 3)
  /-- CONFIRM_DEADLINE_UNGATE (R383). -/
  | confirmDeadlineUngate
  /-- AUTO_REVERT (R383). -/
  | autoRevert
  /-- POLL_SLOT_START (R88). -/
  | pollSlotStart (window : BitVec 13)
  /-- SUMMARY_LINE_READ (R88). -/
  | summaryLineRead (line : BitVec 7) (result : ReadResult) (data : BitVec 512)
  /-- BATCH_RECORD_FETCH (R90). -/
  | batchRecordFetch (source : Source) (result : ReadResult) (data : BitVec 512)
  /-- STEP_ROUTE (R143). -/
  | stepRoute (context : ContextId) (descriptor : BitVec 512) (argument : BitVec 64)
  /-- COMPLETION_RECORD_WRITE (R93). -/
  | completionRecordWrite (context : ContextId)
  /-- NOP (R139). -/
  | nop (engine : EngineId) (context : ContextId)
  /-- PRODUCT (R139). -/
  | product (engine : EngineId) (context : ContextId)
  /-- VECTOR (R477). -/
  | vector (engine : EngineId) (context : ContextId)
  /-- LOAD (R476). -/
  | load (engine : EngineId) (context : ContextId)
  /-- STORE (R476). -/
  | store (engine : EngineId) (context : ContextId)
  /-- GATHER (R196). -/
  | gather (engine : EngineId) (context : ContextId)
  /-- MOOR (R134). -/
  | moor (engine : EngineId) (context : ContextId) (image : ImageRead)
  /-- RELEASE (R135). -/
  | release (engine : EngineId) (context : ContextId)
  /-- STEP_COMMIT (R142). -/
  | stepCommit (engine : EngineId) (context : ContextId)
  /-- SEMAPHORE_SIGNAL (R141). -/
  | semaphoreSignal (engine : EngineId) (context : ContextId)
  /-- PASS_START (R78). -/
  | passStart (engine : EngineId) (array : ArrayId) (cycle : BitVec 40)
  /-- PASS_COMMIT (R106). `error` is an array fault no check detects: the accumulator at a row and column altered by a mask
  (R408). -/
  | passCommit (engine : EngineId) (array : ArrayId) (error : Option (BitVec 12 × BitVec 9 × BitVec 32))
  /-- PASS_ABANDON (R122). -/
  | passAbandon (engine : EngineId) (array : ArrayId) (cause : AbandonCause)
  /-- PASS_RERUN (R122). -/
  | passRerun (engine : EngineId) (array : ArrayId) (cycle : BitVec 40)
  /-- PARITY_DETECT (R148). -/
  | parityDetect (engine : EngineId) (line : BitVec 13) (poisoned : Bool)
  /-- PRODUCER_RERUN (R149). -/
  | producerRerun (engine : EngineId) (context : ContextId) (serial : BitVec 16)
  /-- TENDER_FETCH_ISSUE (R144). -/
  | tenderFetchIssue (engine : EngineId) (context : ContextId)
  /-- LINE_ARRIVE (R144). -/
  | lineArrive (engine : EngineId) (context : ContextId) (result : LineReturn) (data : BitVec 512)
  /-- WRITE_ISSUE (R144). -/
  | writeIssue (engine : EngineId) (context : ContextId)
  /-- WRITE_ACKNOWLEDGE (R144). -/
  | writeAcknowledge (engine : EngineId) (context : ContextId) (status : BitVec 8)
  /-- SCRUB_START (R151). -/
  | scrubStart (engine : EngineId)
  /-- SCRUB_COMPLETE (R150). -/
  | scrubComplete (engine : EngineId)
  /-- TILE_CHAIN_WORK (R167). -/
  | tileChainWork (engine : EngineId) (array : ArrayId)
  /-- SCALE (R162). -/
  | scale (engine : EngineId) (stage : BitVec 32)
  /-- BIAS (R162). -/
  | bias (engine : EngineId) (stage : BitVec 32)
  /-- COLSCALE (R162). -/
  | colscale (engine : EngineId) (stage : BitVec 32)
  /-- RESIDUAL (R175). -/
  | residual (engine : EngineId) (stage : BitVec 32)
  /-- ACT (R162). -/
  | act (engine : EngineId) (stage : BitVec 32)
  /-- GATEPAIR (R162). -/
  | gatepair (engine : EngineId) (stage : BitVec 32)
  /-- NORM (R475). -/
  | norm (engine : EngineId) (stage : BitVec 32)
  /-- SOFTMAX (R475). -/
  | softmax (engine : EngineId) (stage : BitVec 32)
  /-- ONLINE (R182). -/
  | online (engine : EngineId) (stage : BitVec 32)
  /-- MERGE (R182). -/
  | merge (engine : EngineId) (stage : BitVec 32)
  /-- CONVERT (R164). -/
  | convert (engine : EngineId) (stage : BitVec 32)
  /-- QUANT (R165). -/
  | quant (engine : EngineId) (stage : BitVec 32)
  /-- HELD_BAND_FINISH (R177). -/
  | heldBandFinish (engine : EngineId) (array : ArrayId)
  /-- VECTOR_PROGRAM_RUN (R172). -/
  | vectorProgramRun (engine : EngineId) (array : ArrayId)
  /-- VEC_ADD (R171). -/
  | vecAdd (engine : EngineId) (word : BitVec 64)
  /-- VEC_SUB (R171). -/
  | vecSub (engine : EngineId) (word : BitVec 64)
  /-- VEC_MUL (R171). -/
  | vecMul (engine : EngineId) (word : BitVec 64)
  /-- FMA (R171). -/
  | fma (engine : EngineId) (word : BitVec 64)
  /-- MAX (R171). -/
  | max (engine : EngineId) (word : BitVec 64)
  /-- MIN (R171). -/
  | min (engine : EngineId) (word : BitVec 64)
  /-- ABS (R171). -/
  | abs (engine : EngineId) (word : BitVec 64)
  /-- VEC_NEG (R171). -/
  | vecNeg (engine : EngineId) (word : BitVec 64)
  /-- MOV (R171). -/
  | mov (engine : EngineId) (word : BitVec 64)
  /-- SEL (R171). -/
  | sel (engine : EngineId) (word : BitVec 64)
  /-- ADDS (R171). -/
  | adds (engine : EngineId) (word : BitVec 64)
  /-- MULS (R171). -/
  | muls (engine : EngineId) (word : BitVec 64)
  /-- CEQ (R171). -/
  | ceq (engine : EngineId) (word : BitVec 64)
  /-- CNE (R171). -/
  | cne (engine : EngineId) (word : BitVec 64)
  /-- CLT (R171). -/
  | clt (engine : EngineId) (word : BitVec 64)
  /-- CLE (R171). -/
  | cle (engine : EngineId) (word : BitVec 64)
  /-- CGT (R171). -/
  | cgt (engine : EngineId) (word : BitVec 64)
  /-- CGE (R171). -/
  | cge (engine : EngineId) (word : BitVec 64)
  /-- SFU (R171). -/
  | sfu (engine : EngineId) (word : BitVec 64)
  /-- VEC_RSUM (R171). -/
  | vecRsum (engine : EngineId) (word : BitVec 64)
  /-- RMAX (R171). -/
  | rmax (engine : EngineId) (word : BitVec 64)
  /-- VEC_BCAST (R171). -/
  | vecBcast (engine : EngineId) (word : BitVec 64)
  /-- RND (R171). -/
  | rnd (engine : EngineId) (word : BitVec 64)
  /-- QNT (R171). -/
  | qnt (engine : EngineId) (word : BitVec 64)
  /-- CVTI (R171). -/
  | cvti (engine : EngineId) (word : BitVec 64)
  /-- LDV (R171). -/
  | ldv (engine : EngineId) (word : BitVec 64)
  /-- STV (R171). -/
  | stv (engine : EngineId) (word : BitVec 64)
  /-- SADD (R171). -/
  | sadd (engine : EngineId) (word : BitVec 64)
  /-- SMUL (R171). -/
  | smul (engine : EngineId) (word : BitVec 64)
  /-- SMOV (R171). -/
  | smov (engine : EngineId) (word : BitVec 64)
  /-- SFROM (R171). -/
  | sfrom (engine : EngineId) (word : BitVec 64)
  /-- GATHER_POOL_LINE (R202). -/
  | gatherPoolLine (engine : EngineId) (context : ContextId)
  /-- SEND_TILE (R185). -/
  | sendTile (engine : EngineId) (context : ContextId) (destination : BitVec 3)
  /-- SEND_LINES_ACKED (R185). -/
  | sendLinesAcked (engine : EngineId) (context : ContextId) (destination : BitVec 3)
  /-- SEND_CREDIT_REREAD (R185). -/
  | sendCreditReread (engine : EngineId) (context : ContextId) (destination : BitVec 3)
  /-- SEND_CREDIT_TIMEOUT (R186). -/
  | sendCreditTimeout (engine : EngineId) (context : ContextId) (destination : BitVec 3)
  /-- PLAN_FETCH (R214). -/
  | planFetch (cell : CellId)
  /-- PLAN_READ_COMPLETE (R217). -/
  | planReadComplete (cell : CellId) (result : ReadResult) (header : BitVec 512) (pdus : List (BitVec 512))
  /-- CPLANE_WINDOW_OPEN (R225). -/
  | cplaneWindowOpen (cell : CellId) (pdu : BitVec 7) (weights : Option (List Byte))
  /-- UL_WINDOW_CLOSE (R222). -/
  | ulWindowClose (cell : CellId) (symbol : BitVec 4)
  /-- LDPC_DECODE (R237). -/
  | ldpcDecode (unit : Fin 24) (block : CodeBlock) (llrs : List Byte) (cycle : BitVec 40)
  /-- LDPC_ENCODE (R237). -/
  | ldpcEncode (unit : Fin 8) (block : CodeBlock) (cycle : BitVec 40)
  /-- POLAR_DECODE (R237). -/
  | polarDecode (unit : Fin 4) (block : CodeBlock) (llrs : List Byte) (cycle : BitVec 40)
  /-- POLAR_ENCODE (R237). -/
  | polarEncode (unit : Fin 4) (block : CodeBlock) (cycle : BitVec 40)
  /-- DFT (R237). -/
  | dft (unit : Fin 8) (block : CodeBlock) (inverse : Bool) (samples : List Byte) (cycle : BitVec 40)
  /-- INTERPOLATION (R237). -/
  | interpolation (unit : Fin 8) (block : CodeBlock) (subcarriers : BitVec 12) (samples : List Byte) (cycle : BitVec 40)
  /-- PRACH_CORRELATION (R235). -/
  | prachCorrelation (unit : Fin 8) (block : CodeBlock) (roots : BitVec 6) (samples : List Byte) (cycle : BitVec 40)
  /-- CODING_OP_COMPLETE (R232). -/
  | codingOpComplete (unit : UnitId)
  /-- UL_RESULT_DEADLINE (R232). -/
  | ulResultDeadline (cell : CellId)
  /-- UL_RESULT_RECORD_WRITE (R220). -/
  | ulResultRecordWrite (cell : CellId) (pdu : BitVec 7)
  /-- DL_PAYLOAD_COMPLETE (R239). -/
  | dlPayloadComplete (cell : CellId) (symbol : BitVec 4) (stream : BitVec 5) (samples : List Byte)
  /-- DEADLINE_WATCHDOG (R239). -/
  | deadlineWatchdog (cell : CellId) (symbol : BitVec 4)
  /-- RADIO_COMPLETION_WRITE (R219). -/
  | radioCompletionWrite (cell : CellId)
  /-- JOB_INPUT_DMA (R254). -/
  | jobInputDma (core : Fin 48) (job : JobRequest) (xData yData : List Byte) (poisoned : Bool)
  /-- JOB_START (R255). -/
  | jobStart (core : Fin 48) (cycle : BitVec 40)
  /-- JOB_OUTPUT_WRITE (R257). -/
  | jobOutputWrite (core : Fin 48)
  /-- JOB_RERUN (R261). -/
  | jobRerun (core : Fin 48) (from' : Fin 48) (inProgram : Bool) (cycle : BitVec 40)
  /-- PROGRAM_RELOAD_COMPLETE (R261). -/
  | programReloadComplete (core : Fin 48)
  /-- CMUL (R249). -/
  | cmul (core : Fin 48) (word : BitVec 32)
  /-- CMAC (R249). -/
  | cmac (core : Fin 48) (word : BitVec 32)
  /-- CMULJ (R249). -/
  | cmulj (core : Fin 48) (word : BitVec 32)
  /-- CMACJ (R249). -/
  | cmacj (core : Fin 48) (word : BitVec 32)
  /-- CMSU (R249). -/
  | cmsu (core : Fin 48) (word : BitVec 32)
  /-- CSQ (R249). -/
  | csq (core : Fin 48) (word : BitVec 32)
  /-- ACCRD (R246). -/
  | accrd (core : Fin 48) (word : BitVec 32)
  /-- ACCZ (R249). -/
  | accz (core : Fin 48) (word : BitVec 32)
  /-- ACCLD (R249). -/
  | accld (core : Fin 48) (word : BitVec 32)
  /-- ARSUM (R249). -/
  | arsum (core : Fin 48) (word : BitVec 32)
  /-- LD (R249). -/
  | ld (core : Fin 48) (word : BitVec 32)
  /-- ST (R249). -/
  | st (core : Fin 48) (word : BitVec 32)
  /-- LD2 (R249). -/
  | ld2 (core : Fin 48) (word : BitVec 32)
  /-- SETP (R249). -/
  | setp (core : Fin 48) (word : BitVec 32)
  /-- ADDP (R249). -/
  | addp (core : Fin 48) (word : BitVec 32)
  /-- SETM (R249). -/
  | setm (core : Fin 48) (word : BitVec 32)
  /-- MOVPS (R249). -/
  | movps (core : Fin 48) (word : BitVec 32)
  /-- SC_ADD (R249). -/
  | scAdd (core : Fin 48) (word : BitVec 32)
  /-- ADDI (R249). -/
  | addi (core : Fin 48) (word : BitVec 32)
  /-- SC_SUB (R249). -/
  | scSub (core : Fin 48) (word : BitVec 32)
  /-- AND (R249). -/
  | scAnd (core : Fin 48) (word : BitVec 32)
  /-- OR (R249). -/
  | scOr (core : Fin 48) (word : BitVec 32)
  /-- XOR (R249). -/
  | scXor (core : Fin 48) (word : BitVec 32)
  /-- SHL (R249). -/
  | shl (core : Fin 48) (word : BitVec 32)
  /-- SHR (R249). -/
  | shr (core : Fin 48) (word : BitVec 32)
  /-- SAR (R249). -/
  | sar (core : Fin 48) (word : BitVec 32)
  /-- SC_MUL (R249). -/
  | scMul (core : Fin 48) (word : BitVec 32)
  /-- CMP (R249). -/
  | cmp (core : Fin 48) (word : BitVec 32)
  /-- MOVI (R249). -/
  | movi (core : Fin 48) (word : BitVec 32)
  /-- CONJ (R249). -/
  | conj (core : Fin 48) (word : BitVec 32)
  /-- SC_NEG (R249). -/
  | scNeg (core : Fin 48) (word : BitVec 32)
  /-- SHIFT (R246). -/
  | shift (core : Fin 48) (word : BitVec 32)
  /-- SC_BCAST (R249). -/
  | scBcast (core : Fin 48) (word : BitVec 32)
  /-- ROT (R249). -/
  | rot (core : Fin 48) (word : BitVec 32)
  /-- SC_RSUM (R249). -/
  | scRsum (core : Fin 48) (word : BitVec 32)
  /-- ZERO (R249). -/
  | zero (core : Fin 48) (word : BitVec 32)
  /-- ADDV (R249). -/
  | addv (core : Fin 48) (word : BitVec 32)
  /-- B (R249). -/
  | branch (core : Fin 48) (word : BitVec 32)
  /-- CALL (R249). -/
  | call (core : Fin 48) (word : BitVec 32)
  /-- RET (R249). -/
  | ret (core : Fin 48) (word : BitVec 32)
  /-- LOOP (R252). -/
  | loop (core : Fin 48) (word : BitVec 32)
  /-- REP (R253). -/
  | rep (core : Fin 48) (word : BitVec 32)
  /-- END (R257). -/
  | scEnd (core : Fin 48) (word : BitVec 32)
  /-- ERET (R260). -/
  | eret (core : Fin 48) (word : BitVec 32)
  /-- BREAK (R259). -/
  | scBreak (core : Fin 48) (word : BitVec 32)
  /-- SC_NOP (R249). -/
  | scNop (core : Fin 48) (word : BitVec 32)
  /-- MFC (R249). -/
  | mfc (core : Fin 48) (word : BitVec 32)
  /-- MTC (R249). -/
  | mtc (core : Fin 48) (word : BitVec 32)
  /-- MACLD (R250). -/
  | macld (core : Fin 48) (word : BitVec 32)
  /-- FRAME_RX (R268). -/
  | frameRx (port : Fin 84) (frame : List Byte) (fcsGood : Bool) (rawTime : BitVec 96)
  /-- PORT_DOWN (R265). -/
  | portDown (port : Fin 84)
  /-- PORT_UP (R265). -/
  | portUp (port : Fin 84)
  /-- FRAME_SELECT (R274). -/
  | frameSelect (port : Fin 84)
  /-- GATE_EDGE (R280). -/
  | gateEdge (port : Fin 84)
  /-- MGMT_TX_DESCRIPTOR (R271). -/
  | mgmtTxDescriptor (descriptor : BitVec 256) (frame : List Byte)
  /-- MGMT_TX_TIMEOUT (R271). -/
  | mgmtTxTimeout (port : Fin 84)
  /-- MGMT_ENABLE_WRITE (R269). -/
  | mgmtEnableWrite (value : BitVec 8)
  /-- MACSEC_SAK_INSTALL (R286). -/
  | macsecSakInstall (record : BitVec 512)
  /-- SEGMENT_READ (R298). -/
  | segmentRead (channel : Fin 48) (segment : BitVec 25) (line : BitVec 2) (requester : UnitId) (cls : BitVec 2) (innerCorrected : Bool)
  /-- SEGMENT_WRITE (R299). -/
  | segmentWrite (channel : Fin 48) (segment : BitVec 25) (write : MemWrite)
  /-- WRITE_HOLD_EXPIRY (R299). -/
  | writeHoldExpiry (channel : Fin 48) (segment : BitVec 25)
  /-- MERGE_READ_DECODE (R301). -/
  | mergeReadDecode (channel : Fin 48) (segment : BitVec 25)
  /-- EDC_REPLAY (R297). -/
  | edcReplay (channel : Fin 48) (good : Bool)
  /-- PATROL_READ (R314). -/
  | patrolRead (channel : Fin 48)
  /-- REGION_CLEAR_COMPLETE (R308). -/
  | regionClearComplete (region : BitVec 12)
  /-- FAR_TIMEOUT (R313): of the outstanding read, or write, of a context that has this source or target. -/
  | farTimeout (port : Fin 2) (engine : EngineId) (context : ContextId) (write : Bool) (address : BitVec 64)
  /-- FAR_PORT_DOWN (R313). -/
  | farPortDown (port : Fin 2)
  /-- D2D_FLIT_REPLAY (R40). -/
  | d2dFlitReplay (link : Fin 3)
  /-- D2D_TRAINING_LOSS (R41). -/
  | d2dTrainingLoss (link : Fin 3)
  /-- D2D_RETRAIN_TIMEOUT (R41). -/
  | d2dRetrainTimeout (link : Fin 3)
  /-- FABRIC_READ (R323). -/
  | fabricRead (header : BitVec 384)
  /-- FABRIC_WRITE (R323). -/
  | fabricWrite (header : BitVec 384) (payload : List Byte)
  /-- FETCH_ADD (R323). -/
  | fetchAdd (header : BitVec 384)
  /-- SWAP (R323). -/
  | swap (header : BitVec 384)
  /-- CAS (R323). -/
  | cas (header : BitVec 384)
  /-- NOTIFY (R329). -/
  | notify (header : BitVec 384)
  /-- REPLY_RX (R337). -/
  | replyRx (header : BitVec 384) (payload : List Byte)
  /-- ACK_RX (R324). -/
  | ackRx (header : BitVec 384)
  /-- KEEPALIVE_RX (R338). -/
  | keepaliveRx (header : BitVec 384)
  /-- RESET_RX (R340). -/
  | resetRx (header : BitVec 384)
  /-- RETRANSMIT_TIMEOUT (R327). -/
  | retransmitTimeout (peer : BitVec 12) (cls : BitVec 2) (psn : BitVec 32)
  /-- REPLY_RETRY (R337). -/
  | replyRetry (peer : BitVec 12) (request : BitVec 16)
  /-- KEEPALIVE_TIMER (R338). -/
  | keepaliveTimer (peer : BitVec 12)
  /-- PEER_SILENT (R338). -/
  | peerSilent (peer : BitVec 12)
  /-- PEER_DEAD (R339). -/
  | peerDead (peer : BitVec 12)
  /-- OPERATION_DEAD_TIMEOUT (R339). -/
  | operationDeadTimeout (peer : BitVec 12) (request : BitVec 16)
  /-- FENCE (R336). -/
  | fence (engine : EngineId) (context : ContextId) (record : BitVec 512)
  /-- FENCE_TIMEOUT (R336). -/
  | fenceTimeout (engine : EngineId) (context : ContextId)
  /-- MIRROR_RESTART (R342). -/
  | mirrorRestart (record : BitVec 16)
  /-- INSTANCE_RESET (R355). -/
  | instanceReset (instanceId : InstanceId)
  /-- INSTANCE_QUIESCE (R353). -/
  | instanceQuiesce (instanceId : InstanceId)
  /-- INSTANCE_RESUME (R353). -/
  | instanceResume (instanceId : InstanceId)
  /-- VF_FLR (R353). -/
  | vfFlr (instanceId : InstanceId)
  /-- INSTANCE_RINGS_WRITE (R84). -/
  | instanceRingsWrite (instanceId : InstanceId) (record : BitVec 192)
  /-- PROVIDER_RING_WRITE (R94). -/
  | providerRingWrite (record : BitVec 256)
  /-- QUIESCE_COMPLETE (R352). -/
  | quiesceComplete (instanceId : InstanceId)
  /-- FLUSH_READ_COMPLETE (R356). -/
  | flushReadComplete (function : Source)
  /-- FLUSH_READ_TIMEOUT (R356). -/
  | flushReadTimeout (function : Source)
  /-- INSTANCE_RESET_COMPLETE (R355). -/
  | instanceResetComplete (instanceId : InstanceId)
  /-- PF_FLR (R357). -/
  | pfFlr
  /-- VF_ENABLE_CHANGE (R357). -/
  | vfEnableChange (enable : Bool) (numVFs : BitVec 16)
  /-- HOT_RESET (R472). -/
  | hotReset
  /-- LINK_DOWN (R472). -/
  | linkDown
  /-- PERST_N_ASSERT (R429). -/
  | perstNAssert
  /-- HOST_READ_COMPLETION (R347). -/
  | hostReadCompletion (tag : BitVec 14) (result : ReadResult) (data : List Byte)
  /-- HOST_READ_TIMEOUT (R347). -/
  | hostReadTimeout (tag : BitVec 14)
  /-- ATS_INVALIDATION (R348). -/
  | atsInvalidation (function : Source) (page : BitVec 52) (count : BitVec 32)
  /-- BAR_UNMAPPED_WRITE (R349). -/
  | barUnmappedWrite (function : Source) (offset : BitVec 17)
  /-- MSIX_UNMASK (R351). -/
  | msixUnmask (function : Source) (vector : BitVec 6)
  /-- DIRTY_LOG_WRITE (R358). -/
  | dirtyLogWrite (index : BitVec 4) (record : BitVec 256)
  /-- HARVEST (R360). -/
  | harvest (index : BitVec 4)
  /-- INSTANCE_EXPORT (R361). -/
  | instanceExport (offset length : BitVec 32)
  /-- INSTANCE_IMPORT (R362). -/
  | instanceImport (instanceId : InstanceId) (records : List (BitVec 512))
  /-- IDE_STREAM_LOSS (R365). -/
  | ideStreamLoss (stream : Fin 5)
  /-- DICTIONARY_READ (R376). -/
  | dictionaryRead (requester : Requester) (request : BitVec 512) (dma : ReadResult)
  /-- DICTIONARY_WRITE (R376). -/
  | dictionaryWrite (requester : Requester) (request : BitVec 512) (data : List Byte) (dma : ReadResult) (flashGood : Bool)
  /-- COMMIT (R381). -/
  | commit (requester : Requester) (version : BitVec 32)
  /-- REVERT (R381). -/
  | revert (requester : Requester) (version : BitVec 32)
  /-- CONFIRM (R385). -/
  | confirm (requester : Requester) (version : BitVec 32) (flashGood : Bool)
  /-- STAGE_RESET (R379). -/
  | stageReset (requester : Requester) (value : BitVec 8)
  /-- KEEPER_LINK_UP (R390). -/
  | keeperLinkUp (sqi : BitVec 3) (polarity : Bool)
  /-- KEEPER_LINK_DOWN (R390). -/
  | keeperLinkDown
  /-- KEEPER_FRAME_RX (R392). `good` is the FCS check; `plain` says that the frame is untagged and carries one unfragmented UDP
  datagram over IPv6. -/
  | keeperFrameRx (good plain : Bool) (destination : BitVec 128) (toPort : BitVec 16) (address : BitVec 128) (port : BitVec 16)
      (payload : List Byte)
  /-- SECURED_REQUEST (R394). -/
  | securedRequest (session : BitVec 2) (request : BitVec 512) (data : List Byte) (flashGood : Bool)
  /-- NEIGHBOUR_SOLICITATION (R391). -/
  | neighbourSolicitation (source target : BitVec 128) (mac : Option (BitVec 48))
  /-- ICMPV6_ECHO (R391). -/
  | icmpv6Echo (source destination : BitVec 128) (body : List Byte)
  /-- KEEPER_SESSION_IDLE_TIMEOUT (R393). -/
  | keeperSessionIdleTimeout (session : BitVec 2)
  /-- KEEPER_TEST_MODE_WRITE (R395). -/
  | keeperTestModeWrite (requester : Requester) (value : BitVec 8)
  /-- GET_VERSION (R439). -/
  | getVersion (path : SpdmPath) (message : List Byte)
  /-- GET_CAPABILITIES (R439). -/
  | getCapabilities (path : SpdmPath) (message : List Byte)
  /-- NEGOTIATE_ALGORITHMS (R439). -/
  | negotiateAlgorithms (path : SpdmPath) (message : List Byte)
  /-- GET_DIGESTS (R439). -/
  | getDigests (path : SpdmPath) (message : List Byte)
  /-- GET_CERTIFICATE (R439). -/
  | getCertificate (path : SpdmPath) (message : List Byte)
  /-- CHALLENGE (R439). -/
  | challenge (path : SpdmPath) (message : List Byte)
  /-- GET_MEASUREMENTS (R439). -/
  | getMeasurements (path : SpdmPath) (message : List Byte)
  /-- KEY_EXCHANGE (R393). -/
  | keyExchange (path : SpdmPath) (message : List Byte)
  /-- FINISH (R393). -/
  | finish (path : SpdmPath) (message : List Byte)
  /-- HEARTBEAT (R393). -/
  | heartbeat (path : SpdmPath) (message : List Byte)
  /-- KEY_UPDATE (R393). -/
  | keyUpdate (path : SpdmPath) (message : List Byte)
  /-- END_SESSION (R393). -/
  | endSession (path : SpdmPath) (message : List Byte)
  /-- EVENT_RECORD_WRITE (R396). -/
  | eventRecordWrite (index : BitVec 16)
  /-- FAULT_LOG_WRITE (R399). -/
  | faultLogWrite
  /-- COMPLEMENT_SWEEP (R404). -/
  | complementSweep
  /-- SELF_TEST_SEGMENT (R405). -/
  | selfTestSegment (engine : EngineId) (array : ArrayId) (faultyRow : Option (BitVec 6)) (cycle : BitVec 40)
  /-- SOUNDING_SHADOW (R407). -/
  | soundingShadow (engine : EngineId) (array : ArrayId) (cycle : BitVec 40)
  /-- ARBITER_PASS (R409). -/
  | arbiterPass (engine : EngineId) (slot : BitVec 10) (error : Option (BitVec 12 × BitVec 9 × BitVec 32))
  /-- ARBITRATION_TIMEOUT (R409). -/
  | arbitrationTimeout (slot : BitVec 10)
  /-- HEALTH_DECAY (R415). -/
  | healthDecay
  /-- EXPEL (R422). -/
  | expel (requester : Requester) (order : List Byte) (flashGood : Bool)
  /-- READMIT (R422). -/
  | readmit (requester : Requester) (order : List Byte) (flashGood : Bool)
  /-- SET_KEYS (R422). -/
  | setKeys (requester : Requester) (order : List Byte) (flashGood : Bool)
  /-- MANAGER_KEYS_APPLY (R419). -/
  | managerKeysApply (requester : Requester) (value : BitVec 8) (flashGood : Bool)
  /-- QUARANTINE_CLEAR (R412). -/
  | quarantineClear (requester : Requester) (unit : BitVec 16)
  /-- FIRMWARE_HEARTBEAT_TIMEOUT (R423). -/
  | firmwareHeartbeatTimeout
  /-- MOD_RST_N_RELEASE (R440). -/
  | modRstNRelease (found : StartupReport)
  /-- MOD_RST_N_ASSERT (R429). -/
  | modRstNAssert
  /-- MODULE_RESET (R430). -/
  | moduleReset (requester : Requester)
  /-- FIRMWARE_RESTART (R430). -/
  | firmwareRestart (requester : Requester)
  /-- RESET_BEGIN (R430). -/
  | resetBegin (found : StartupReport)
  /-- ERASE_INACTIVE (R437). -/
  | eraseInactive (requester : Requester)
  /-- ARM_TRIAL (R437). -/
  | armTrial (requester : Requester)
  /-- CONFIRM_RUNNING (R437). -/
  | confirmRunning (requester : Requester)
  /-- ADVANCE_ROLLBACK (R437). -/
  | advanceRollback (requester : Requester)
  /-- IMAGE_WRITE (R437). -/
  | imageWrite (requester : Requester) (offset : BitVec 32) (data : List Byte)
  /-- INTEGRATOR_KEY_DIGEST_WRITE (R438). -/
  | integratorKeyDigestWrite (requester : Requester) (digest : BitVec 512)
  /-- POWER_SAMPLE (R443). -/
  | powerSample (rails : List (BitVec 32 × BitVec 32))
  /-- POWER_LIMIT_EVENT (R443). -/
  | powerLimitEvent
  /-- TEMPERATURE_SAMPLE (R444). -/
  | temperatureSample (readings : List (BitVec 16))
  /-- THERMAL_TRIP_TIMEOUT (R444). -/
  | thermalTripTimeout (sensor : Fin 59)
  /-- PROG_CONTROL_WRITE (R451). -/
  | progControlWrite (requester : Requester) (counter : Fin 456) (record : BitVec 256)
  /-- SNAPSHOT_NOW (R455). -/
  | snapshotNow (requester : Requester) (value : BitVec 8)
  /-- EXTEST (R467). -/
  | extest (pads drive : List Bool)
  /-- IDCODE (R468). -/
  | idcode
  /-- SAMPLE_PRELOAD (R467). -/
  | samplePreload (pads preload : List Bool)
  /-- EXTEST_PULSE (R469). -/
  | extestPulse (pads drive : List Bool)
  /-- EXTEST_TRAIN (R469). -/
  | extestTrain (pads drive : List Bool)
  /-- CLAMP (R467). -/
  | clamp
  /-- HIGHZ (R467). -/
  | highz
  /-- BYPASS (R467). -/
  | bypass
  /-- TRST_N_ASSERT (R470). -/
  | trstNAssert
  /-- D2D_LINK_RETRAINED (R41). -/
  | d2dLinkRetrained (link : Fin 3)
  /-- HOST_LINK_UP (R357). -/
  | hostLinkUp (width : BitVec 4) (rate : BitVec 4) (flit : Bool)
  /-- PERST_N_RELEASE (R429). -/
  | perstNRelease
  /-- POWER_DOWN (R427). -/
  | powerDown
  /-- SYNCE_LOCK_REGAIN (R61). -/
  | synceLockRegain
  /-- REF10M_IN_LOSS (R67). -/
  | ref10mInLoss
  /-- UPLANE_WINDOW_OPEN (R238). -/
  | uplaneWindowOpen (cell : CellId) (symbol : BitVec 4)
  /-- NEIGHBOUR_ADVERTISEMENT (R391). -/
  | neighbourAdvertisement (target : BitVec 128) (mac : BitVec 48)
  /-- IDE_KM_KEY_PROG (R365). -/
  | ideKmKeyProg (stream : Fin 5) (sub : BitVec 3) (key : BitVec 256)
  /-- IDE_STREAM_SECURE (R365). -/
  | ideStreamSecure (stream : Fin 5)
  /-- DOE_DISCOVERY (R364). -/
  | doeDiscovery (index : BitVec 8)
deriving DecidableEq, Repr

end Sys2Proof
end

