-- ==== Sys2Proof/Machine/Bits.lean ====
section
/-!
DEFINITION. Bit fields, byte order, wrapping comparison, and the operations of a sparse table.
-/

namespace Sys2Proof.Machine

/-! ### Bit fields (R7) -/

/-- Bits [hi:lo] of a record read as one little-endian number; bit 0 is the least significant bit (R7). -/
def bits (x hi lo : Nat) : Nat := (x >>> lo) % 2 ^ (hi + 1 - lo)

/-- Bit k of a record. -/
def bit (x k : Nat) : Bool := Nat.testBit x k

/-- A record with bits [hi:lo] replaced by v. -/
def setBits (x hi lo v : Nat) : Nat :=
  x - (bits x hi lo) * 2 ^ lo + (v % 2 ^ (hi + 1 - lo)) * 2 ^ lo

/-- Read an n-bit number as two's complement. -/
def toSigned (n x : Nat) : Int :=
  if 2 * (x % 2 ^ n) < 2 ^ n then ((x % 2 ^ n : Nat) : Int) else ((x % 2 ^ n : Nat) : Int) - (2 ^ n : Nat)

/-- The n-bit two's-complement code of an integer. -/
def ofSigned (n : Nat) (x : Int) : Nat := (x % ((2 ^ n : Nat) : Int)).toNat

/-- One bit as a number. -/
def b2n (b : Bool) : Nat := if b then 1 else 0

/-- The bitwise complement of an n-bit number (R17, R403). -/
def compl (n x : Nat) : Nat := 2 ^ n - 1 - x % 2 ^ n

/-- Division rounded up. -/
def ceilDiv (a b : Nat) : Nat := (a + b - 1) / b

/-! ### Byte order (R7: little-endian in memory) -/

/-- The n low bytes of a number, least significant first. -/
def leBytes : Nat → Nat → List Byte
  | 0, _ => []
  | n + 1, x => BitVec.ofNat 8 x :: leBytes n (x / 256)

/-- The number a list of bytes spells, least significant first. -/
def ofLeBytes : List Byte → Nat
  | [] => 0
  | b :: bs => b.toNat + 256 * ofLeBytes bs

/-- The number a list of bytes spells, most significant first (wire headers, R7). -/
def ofBeBytes (bs : List Byte) : Nat := ofLeBytes bs.reverse

/-- The n low bytes of a number, most significant first. -/
def beBytes (n x : Nat) : List Byte := (leBytes n x).reverse

/-! ### Wrapping comparison (R11) -/

/-- The signed difference b − a of two counters of width w, and none when it is the value −2^(w−1) that R11
flags as a wrap fault. -/
def wrapDiff (w a b : Nat) : Option Int :=
  let d := (b + 2 ^ w - a % 2 ^ w) % 2 ^ w
  if 2 * d = 2 ^ w then none else some (toSigned w d)

/-! ### Sparse tables -/

/-- Read a table at k; an unlisted key reads as d. -/
def Tab.get {α : Type} (d : α) : Tab α → Nat → α
  | [], _ => d
  | (k', v) :: t, k => if k = k' then v else Tab.get d t k

/-- Insert at k, keeping the keys rising; no regard for the default. -/
def Tab.put {α : Type} : Tab α → Nat → α → Tab α
  | [], k, v => [(k, v)]
  | (k', v') :: t, k, v =>
    if k < k' then (k, v) :: (k', v') :: t
    else if k = k' then (k, v) :: t
    else (k', v') :: Tab.put t k v

/-- Remove key k. -/
def Tab.erase {α : Type} (t : Tab α) (k : Nat) : Tab α := t.filter (fun p => decide (p.1 ≠ k))

/-- Write a table at k. Writing what an unlisted key reads as removes the entry, so the form stays canonical. -/
def Tab.set {α : Type} [DecidableEq α] (d : α) (t : Tab α) (k : Nat) (v : α) : Tab α :=
  if v = d then Tab.erase t k else Tab.put t k v

/-- Change the value at k. -/
def Tab.upd {α : Type} [DecidableEq α] (d : α) (t : Tab α) (k : Nat) (f : α → α) : Tab α :=
  Tab.set d t k (f (Tab.get d t k))

/-- Apply f to every listed value; a key whose value becomes the default is dropped. -/
def Tab.mapAll {α : Type} [DecidableEq α] (d : α) (f : Nat → α → α) : Tab α → Tab α
  | [] => []
  | (k, v) :: t => let v' := f k v; if v' = d then Tab.erase (Tab.mapAll d f t) k else (k, v') :: Tab.mapAll d f t

/-- Every listed key is above b and keys rise strictly. -/
def Tab.sortedFrom {α : Type} : Option Nat → Tab α → Bool
  | _, [] => true
  | b, (k, _) :: t => (match b with | none => true | some x => decide (x < k)) && Tab.sortedFrom (some k) t

/-- The canonical form: strictly rising keys and no value equal to the default. -/
def Tab.wf {α : Type} [DecidableEq α] (d : α) (t : Tab α) : Bool :=
  Tab.sortedFrom none t && t.all (fun p => decide (p.2 ≠ d))

/-- Read n consecutive bytes at address a. -/
def Tab.readBytes (t : Tab Byte) (a : Nat) : Nat → List Byte
  | 0 => []
  | n + 1 => Tab.get 0 t a :: Tab.readBytes t (a + 1) n

/-- Write consecutive bytes from address a. -/
def Tab.writeBytes (t : Tab Byte) (a : Nat) : List Byte → Tab Byte
  | [] => t
  | b :: bs => Tab.writeBytes (Tab.set 0 t a b) (a + 1) bs

end Sys2Proof.Machine
end

