-- ==== Sys2Proof/Machine/State.lean ====
section
/-!
DEFINITION. The state of the module as plain data: every register, table, queue, buffer, counter, mode and pad the manual
names, and the queue of commands that wait. Whatever is indexed is a sparse table (`Tab`) whose unlisted entries read as the
reset value, so the state after reset lists nothing.
-/

namespace Sys2Proof.Machine

/-! ### Reasons to stop -/

/-- Why a command ends in a fault. No meaning of this model does: a command whose conditions do not hold has no effect, as the
manual says or as a row of the assumption log does. -/
inductive Fault where
  /-- A command whose bytes cannot be a command of its row (for example an image write that is not whole records): raised by
  no meaning of this model; for a surrounding that screens commands by `Instr.wf`. Safe. -/
  | illFormed
deriving DecidableEq, Repr

/-- Why a command is refused by the model. -/
inductive Refusal where
  /-- The command has no meaning in the model yet: raised only by an arm of `exec` that names its row. Safe. -/
  | notModelled (mnemonic : String)
deriving DecidableEq, Repr

/-! ### Time (R46 to R67) -/

/-- TimeQuality (R55). -/
inductive TimeQuality where
  | unset | tracking | holdover | expired | fault
deriving DecidableEq, Repr

/-- What is to be loaded when every admitted operation has ended (R53): an absolute time, or a step too large for its version's limit. -/
inductive TimeLoad where
  | absolute (value : BitVec 96)
  | step (units : BitVec 64)
deriving DecidableEq, Repr

/-- The time base and the time pads. `acc` is the nanosecond accumulator in units of 2^-32 ns, below 10^9 × 2^32 (R47); `ticks` counts the island's
ticks since reset, the measure of the rules that count in ticks. -/
structure TimeBase where
  seconds : W48 := 0
  acc : Nat := 0
  ticks : Nat := 0
  incActive : W64 := 0x147AE147B#64
  incActiveC : W64 := ~~~0x147AE147B#64
  incPrev : W64 := 0x147AE147B#64
  incPrevC : W64 := ~~~0x147AE147B#64
  stepPending : Option W64 := none
  load : Option TimeLoad := none
  quality : TimeQuality := .unset
  setSinceReset : Bool := false
  refreshed : Bool := false
  sinceRefresh : Nat := 0
  holdoverTicks : Nat := 0
  holdoverElapsed : W32 := 0
  ppsCapture : BitVec 96 := 0
  ppsCount : W32 := 0
  ref10mDrift : BitVec 32 := 0
  ref10mStart : Option Nat := none
  ppsOut : Bool := false
  ppsOutLeft : Nat := 0
deriving DecidableEq, Repr

/-- What the links give to time and keep of it: whether the recovered clock of the selected link holds lock (R61), and the rate in Gb/s to
which each link's latencies were last set (R60). -/
structure LinkTime where
  synceLocked : Bool := false
  linkRates : Tab Nat := []
deriving DecidableEq, Repr

/-! ### The Characteristic (R64 to R83, R97) -/

/-- One entry of an island's window list: the window's index in the version, and the value (window entry in [255:0],
horizon in [319:256] as two's complement, MaxPass limit in cycles in [383:320]) with its complement (R77, R81). -/
structure ListEntry where
  window : Nat
  value : BitVec 384
  comp : BitVec 384
deriving DecidableEq, Repr

/-- One clock island: its window list and the previous version's, the entry whose window is open, how many edges of the
period (and, ahead of the boundary, of the next) have been emitted toward it, how many of the period have taken effect, whether it waits for a late pass of the window before (R82), and the last cycle number
at which it started anything. -/
structure Island where
  list : List ListEntry := []
  previous : List ListEntry := []
  current : Option ListEntry := none
  emitted : Nat := 0
  emittedEarly : Nat := 0
  taken : Nat := 0
  waitsForLate : Bool := false
  lastWindow : Option Nat := none
  latency : W32 := 0
deriving DecidableEq, Repr

/-- The Characteristic master. Bit g of `gated` and `groupStopped` is group g (R26, R45); `eclipse` is the one from an accepted time load
to the first period boundary in the new time, in which no island starts anything (R53); `suspended` is that and the wait for the first
period of a version that activated within one of its own periods, in which no window is open. `selfTests` keeps, by the engines a
SERVICE window names, how many segments of their self-tests have committed (R405). -/
structure Characteristic where
  periodCount : W32 := 0
  overruns : W32 := 0
  pollOpen : Option Nat := none
  pollStart : Nat := 0
  suspended : Bool := false
  eclipse : Bool := false
  gated : BitVec 8 := 0xFF
  groupStopped : BitVec 8 := 0
  selfTests : Tab Nat := []
  islands : Tab Island := []
deriving DecidableEq, Repr

/-! ### Submission (R84 to R95) -/

/-- Ring state of R84. -/
inductive RingState where
  | idle | active | ringError
deriving DecidableEq, Repr

/-- The device's side of a submission ring: fetched and written counts, state, batch slots, the counts last read, the due
time in nanoseconds, the records whose reads are issued and not returned, those a poll still owes a read, and whether the discard of a completion in
RING_ERROR has been raised. -/
structure Ring where
  fetched : W24 := 0
  written : W24 := 0
  state : RingState := .idle
  slots : Nat := 0
  submit : W24 := 0
  consumed : W24 := 0
  due : Nat := 0
  reading : Nat := 0
  left : Nat := 0
  discardNoted : Bool := false
deriving DecidableEq, Repr

/-- Who a batch belongs to: a function's ring, or the receiver chart of a cell (R229). -/
inductive BatchOrigin where
  | ring (source : Source)
  | receiver (cell : CellId)
deriving DecidableEq, Repr

/-- A fetched batch (R87, R91): its record's fields, how many steps were routed and committed, every status that applies to
it, the bytes its committed steps wrote outside scratchpads, when its first step issued, and whether a failure ended it. `issuer` is the
generation of its ring's function when it was fetched; a `foreign` one names a context that is not its function's, or none, and stands in
no context's order. -/
structure Batch where
  id : Nat
  origin : BatchOrigin
  context : ContextId
  generation : W16
  stepCount : Nat
  tag : W32
  msix : Bool
  listAddress : W64
  argument : W64
  input : W64
  output : W64
  routed : Nat := 0
  committed : W16 := 0
  statuses : List (BitVec 8) := []
  bytes : W64 := 0
  started : Option Nat := none
  ended : Bool := false
  counted : Bool := true
  issuer : W16 := 0
  foreign : Bool := false
  lastCommit : BitVec 96 := 0
deriving DecidableEq, Repr

/-- Lifecycle of an instance (R352). -/
inductive Lifecycle where
  | idle | active | quiescing | quiesced | resetting | resetStalled
deriving DecidableEq, Repr

/-- One instance: generation pair, lifecycle, ring, counters, and what its resets and quiesces wait for (R352 to R356). -/
structure Inst where
  generation : W16 := 0
  generationC : W16 := 0xFFFF
  life : Lifecycle := .idle
  ring : Ring := {}
  resets : W32 := 0
  stale : W32 := 0
  flushRetries : W32 := 0
  flushIssued : Bool := false
  flushDone : Bool := false
  wroteSinceFlush : Bool := false
  lastWritePage : W64 := 0
  disabling : Bool := false
  scrubsLeft : Nat := 0
  importing : Option (List (BitVec 512)) := none
  histogram : Tab W32 := []
  lateRun : BitVec 8 := 0
deriving DecidableEq, Repr

/-! ### Engines (R99 to R208) -/

/-- A stored value with its complement (R403). -/
structure Pair64 where
  value : W64 := 0
  comp : W64 := 0xFFFFFFFFFFFFFFFF#64
deriving DecidableEq, Repr

/-- A mooring entry and its complement (R133). The reset value names no scale plane (AuxHandle 0xFF). -/
structure Mooring where
  value : BitVec 256 := 0xFF#256 <<< 168
  comp : BitVec 256 := ~~~(0xFF#256 <<< 168)
deriving DecidableEq, Repr

/-- Granule state (R129). -/
inductive GranuleState where
  | free | active | scrubbing
deriving DecidableEq, Repr

/-- One granule: its state and the context that owns it when ACTIVE. -/
structure Granule where
  state : GranuleState := .free
  context : ContextId := 0
deriving DecidableEq, Repr

/-- A routed step: the descriptor with its address resolved (R140), and the batch it belongs to. -/
structure Step where
  descriptor : BitVec 512
  address : W64
  batch : Nat
  generation : W16
deriving DecidableEq, Repr

/-- Which of a step's products a pass computes: the only product, or the two of a Form 2 chain (R180), or a VECTOR tile. -/
inductive PassKind where
  | single | first | second | vectorTile
deriving DecidableEq, Repr

/-- A pass or VECTOR tile: owner, step serial, kind, tile (m, n) and its ordinal in the step, the array that must run it (0 either), mode, cycle count, issue
interval and stream cycles, whether it is half of a twin issue, paired, sampled for sounding or a shadow, the cycle and window of its start,
and how it fared. -/
structure Pass where
  context : ContextId
  serial : W16
  kind : PassKind
  m : Nat
  n : Nat
  ordinal : Nat := 0
  select : Nat := 0
  twin : Bool := false
  paired : Bool := false
  shadow : Bool := false
  sampled : Bool := false
  mode : Nat := 0
  cycles : Nat := 0
  interval : Nat := 0
  stream : Nat := 0
  started : Int := 0
  origin : Int := 0
  window : Nat := 0
  late : Bool := false
  discard : Bool := false
deriving DecidableEq, Repr

/-- A committed pass whose accumulators wait in a drain bank (R153): rows of FP32 or INT32 codes. -/
structure DrainTile where
  pass : Pass
  integer : Bool
  rows : List (List W32)
deriving DecidableEq, Repr

/-- Array state of R121. -/
inductive ArrayHealth where
  | inService | quarantined | disabled
deriving DecidableEq, Repr

/-- One matrix array: published state, passes in flight in start order, abandoned passes that wait to re-run, sounding
shadows that wait to start, the tiles that wait in its drain path, the mode of the last pass, the cycle from which it is
free, the cycle from which the round robin may look at it again (R83), the earliest next inference start under the duty (R442), its demand as (end cycle, demand), the sounding register
(R406), the times it was counted (R412), the cycle up to which its slots are counted, the place of the reason of those that no pass has, and
whose it is (R447), the paired result that waits for its partner (R411), whether it returns at the next
activation (R120, R412), and the faulty rows that the segments of a self-test in progress have found (R405). -/
structure MatrixArray where
  health : ArrayHealth := .inService
  sparedRow : BitVec 8 := 0xFF
  latency : BitVec 16 := 160
  bySelfTest : Bool := false
  flight : List Pass := []
  reruns : List Pass := []
  shadows : List Pass := []
  drains : List DrainTile := []
  lastMode : Nat := 0
  freeAt : Nat := 0
  turn : Nat := 0
  nextInference : Nat := 0
  demand : List (Nat × Nat) := []
  lfsr : W32 := 0
  counts : List Nat := []
  pairHold : Option DrainTile := none
  returning : Bool := false
  testRows : List Nat := []
  slots : Nat := 0
  idle : Nat := 7
  idleOwner : Option ContextId := none
deriving DecidableEq, Repr

/-- A line fetch of the tender: the engine line it fills, its source, how many bytes, and the tile it belongs to (0 for
none) (R144). A GATHER's lines go to the pooling unit and name no engine line; one that arrives before an earlier line keeps
its bytes here. The data of a `dropped` one is discarded when it arrives (R146). -/
structure Fetch where
  line : Nat
  kind : BitVec 2
  source : W64
  bytes : Nat
  tile : Nat := 0
  refetch : Bool := false
  arrived : Option (List Byte) := none
  dropped : Bool := false
  issuedAt : Nat := 0
deriving DecidableEq, Repr

/-- A write of the tender: bytes of a line to be read at issue, its target, the poison of its buffer, and the generation it
carries; `sendTo` names the destination of a fused send (R144, R185, R476). -/
structure TenderWrite where
  start : Nat
  kind : BitVec 2
  target : W64
  bytes : Nat
  poison : Bool
  generation : W16
  issuedAt : Nat := 0
deriving DecidableEq, Repr

/-- Progress of a fused send to one destination (R185): tiles sent and counted, whether a tile is on its way with how many
packets not yet acknowledged, whether its notify is, whether it waits for credit and since which tick, and whether tiles are still owed to it. -/
structure SendState where
  next : Nat := 0
  active : Bool := false
  packets : Nat := 0
  notifying : Bool := false
  waiting : Bool := false
  since : Nat := 0
  live : Bool := false
  issued : Nat := 0
  lines : Nat := 0
deriving DecidableEq, Repr

/-- Progress of a GATHER (R200, R202): the entry being pooled, the lines landed and not pooled, the bytes of its row so far,
the accumulators and the rows counted in its bag. -/
structure GatherState where
  entry : Nat := 0
  landed : List (List Byte) := []
  row : List Byte := []
  acc : List W32 := []
  count : Nat := 0
deriving DecidableEq, Repr

/-- An issued, uncommitted step, or a producing step that runs `again` (R149): serial, passes not yet started, tiles or bands whose chain work is not done, sounding
comparisons not yet made, fetches and writes to make and outstanding, tiles being filled and tile tokens held, statuses, bytes written outside
scratchpads, the WriteSeq of each buffer it read, the tiles of the band held (R177), the factors α its bands keep between
ONLINE and MERGE (key 32 × band + row, R182), the progress of gathers and sends, and the records of the operation port not
yet issued (R332); the streamed tiles a skip leaves nothing of (R193), the cycle from which its last output may be read
(R123, R167), and the tiles that a send gives poisoned (R186). (DESIGN CHOICE, assumption 166) -/
structure Run where
  step : Step
  serial : W16
  waiting : List Pass := []
  chainLeft : Nat := 0
  shadowsLeft : Nat := 0
  fetches : List Fetch := []
  fetching : List Fetch := []
  filling : List Nat := []
  tokens : List Nat := []
  writes : List TenderWrite := []
  writing : List TenderWrite := []
  statuses : List (BitVec 8) := []
  bytes : Nat := 0
  reads : List (Nat × W16) := []
  tilesDone : List Nat := []
  gather : Option GatherState := none
  heldTiles : List (Nat × Nat) := []
  alpha : Tab W32 := []
  sends : Tab SendState := []
  producing : Bool := false
  again : Bool := false
  records : List (BitVec 512) := []
  emptyTiles : List Nat := []
  written : Nat := 0
  poisonTiles : List Nat := []
deriving DecidableEq, Repr

/-- An entry of the re-run log (R149). -/
structure LogEntry where
  step : Step
  serial : W16
  reads : List (Nat × W16)
deriving DecidableEq, Repr

/-- A signal owed by a committed step (R141). -/
structure Signal where
  engine : EngineId
  sem : BitVec 5
deriving DecidableEq, Repr

/-- What an engine keeps for one context (R124): serial, step queue, issued steps, semaphores, tokens, tracker lines, writes
in flight, re-run log, signals owed, whether an unpaired Paired step has been noted, and by handle the cycle from which a pass may
read what was written (R123). -/
structure EngineContext where
  serial : W16 := 0
  queue : List Step := []
  runs : List Run := []
  semaphores : Tab W16 := []
  tokensIssued : Nat := 0
  tokensFilling : Nat := 0
  readLines : Nat := 0
  writeLines : Nat := 0
  log : List LogEntry := []
  signals : List Signal := []
  pairedNoted : Bool := false
  outReady : Tab Nat := []
deriving DecidableEq, Repr

/-- A partition waiting for, or under, the scrubber; `ready` once the last work of its context has ended (R150 to R152). -/
structure Scrub where
  context : ContextId
  first : Nat
  count : Nat
  ready : Bool := false
  started : Bool := false
  instanceId : Option InstanceId := none
deriving DecidableEq, Repr

/-- The vector unit (R154): 64 × 128 vector lanes (key 128 × register + lane), 8 × 128 predicate lanes, 32 scalars, the
row-statistic registers (key 32 × array + row), the steps whose two chains are held, and the tile in the chain: the pass it
belongs to, its rows, how many stages it has passed, its first column, and the codes and scale bytes a QUANT stage made of it;
the cycle on which its last chain work ended (R153, R167), and the columns of the pieces a program was entered with (R160). -/
structure VectorUnit where
  v : Tab W32 := []
  p : Tab Bool := []
  s : Tab W64 := []
  runMax : Tab W32 := []
  runSum : Tab W32 := []
  held : List (ContextId × W16) := []
  tilePass : Option Pass := none
  tileArray : ArrayId := false
  tile : List (List W32) := []
  tileCol : Nat := 0
  stagesDone : Nat := 0
  codes : List (List Nat) := []
  scales : List (List Byte) := []
  freeAt : Nat := 0
  widths : List Nat := []
deriving DecidableEq, Repr

/-- One tile engine. `badWords` marks the 64-bit words that fail their parity (R128, R148); `soundings` keeps the
accumulators of sampled passes and shadows until both are there (R408); `vuPass` is the VECTOR tile in progress (R477). -/
structure Engine where
  stopped : Bool := false
  scratch : Tab Byte := []
  badWords : Tab Bool := []
  granules : Tab Granule := []
  bounds : Tab Pair64 := []
  boundsPrevious : Tab Pair64 := []
  moorings : Tab Mooring := []
  contexts : Tab EngineContext := []
  arrays : Tab MatrixArray := []
  vu : VectorUnit := {}
  scrubs : List Scrub := []
  deficit : Tab Nat := []
  debt : Tab Nat := []
  stale : Tab Bool := []
  cursor : Nat := 0
  soundings : List DrainTile := []
  vuPass : Option Pass := none
deriving DecidableEq, Repr

/-! ### Radio (R209 to R242) -/

/-- Transport-block state of a result record (R220). -/
inductive TbState where
  | pending | crcPass | crcFail | notDecoded | refused
deriving DecidableEq, Repr

/-- A PDU of a slot in progress: its record and what has become of it; `payload` is what was read at DataAddress for a downlink
PDU, `bits` the decoded or encoded bytes by code block. -/
structure Pdu where
  record : BitVec 512
  skipped : Bool := false
  empty : Bool := false
  asked : Bool := false
  payload : Option (List Byte) := none
  samplesMissing : Bool := false
  softLost : Bool := false
  foDisabled : Bool := false
  tb : TbState := .pending
  iterations : BitVec 8 := 0
  cbFailed : W16 := 0
  cbDone : W16 := 0
  cbStarted : Nat := 0
  cbTotal : Nat := 0
  bits : Tab (List Byte) := []
  resultWritten : Bool := false
  cplaneSent : Bool := false
  foSum : Int × Int := (0, 0)
  foSeen : Bool := false
  foFrozen : Bool := false
  stages : Tab (List Byte) := []
deriving DecidableEq, Repr

/-- One downlink eAxC-symbol (R239): payload complete in the block's buffer, judged at its deadline, queued and sent. -/
structure DlSymbol where
  complete : Bool := false
  judged : Bool := false
  queued : Bool := false
  sent : Bool := false
  payload : List Byte := []
deriving DecidableEq, Repr

/-- A slot in progress on a cell (R214 to R219): its downlink symbols (key 32 × symbol + stream), the uplink PRBs that have
arrived (key (32 × symbol + stream) × 512 + PRB), the symbols whose windows have opened or closed, and whether the receiver
chart has been issued. -/
structure SlotPlan where
  slot : Nat
  sfn : BitVec 10
  slotInFrame : BitVec 7
  directions : BitVec 28
  tag : W32
  missing : Bool
  pdus : List Pdu
  statuses : List (BitVec 8) := []
  samplesMissing : Bool := false
  linkDown : Bool := false
  fillCount : W16 := 0
  dl : Tab DlSymbol := []
  windowOpen : BitVec 14 := 0
  judged : BitVec 14 := 0
  ul : Tab Bool := []
  ulClosed : BitVec 14 := 0
  receiverIssued : Bool := false
deriving DecidableEq, Repr

/-- One cell: the slot whose plan is being read, the last slot whose plan was asked for, the slots in progress, oldest first, and
the weights last sent per beam. -/
structure Cell where
  fetching : List Nat := []
  lastSlot : Option Nat := none
  plans : List SlotPlan := []
  weights : Tab (List Byte) := []
deriving DecidableEq, Repr

/-- What a coding unit does (R237). -/
inductive CodingKind where
  | ldpcDecode | ldpcEncode | polarDecode | polarEncode | dft | interpolation | prach
deriving DecidableEq, Repr

/-- An operation in progress on a coding unit: its slot, its cycles, and the cycle of the window in progress at which it ends. -/
structure CodingOp where
  kind : CodingKind
  block : CodeBlock
  slot : Nat
  cycles : Nat
  ends : Int
  late : Bool := false
  limit : Nat
  input : List Byte
  result : List Byte
  used : Nat
  good : Bool
deriving DecidableEq, Repr

/-- A coding unit: its operations in progress and the cycle from which it takes another. -/
structure CodingUnit where
  stopped : Bool := false
  ops : List CodingOp := []
  freeAt : Nat := 0
deriving DecidableEq, Repr

/-- The radio pipeline's shared state. -/
structure Radio where
  cells : Tab Cell := []
  units : Tab CodingUnit := []
  ringWritten : W32 := 0
  ringConsumed : W64 := 0
  overflow : Bool := false
  dropped : W32 := 0
  rxStats : Tab W32 := []
  fillTotal : W32 := 0
  saturations : Nat := 0
deriving DecidableEq, Repr

/-! ### Signal cores (R243 to R262) -/

/-- State of a signal core (R262). -/
inductive CoreHealth where
  | inService | reloading | quarantined | disabled
deriving DecidableEq, Repr

/-- One accumulator lane: 40-bit I and Q (R244). -/
structure AccLane where
  i : BitVec 40 := 0
  q : BitVec 40 := 0
deriving DecidableEq, Repr

/-- A job given to a core: its request, its inputs, whether it is a re-run, which half of the data memories it uses, and the
cycle of the window in progress at which its budget ends (R254, R255, R261). -/
structure Job where
  request : JobRequest
  budget : Nat
  xIn : List Byte
  yIn : List Byte
  rerun : Bool := false
  high : Bool := false
  poisoned : Bool := false
  ends : Int := 0
  late : Bool := false
deriving DecidableEq, Repr

/-- One signal core. Vector lanes at key 8 × register + lane, accumulator lanes likewise, X and Y memories by byte. `landing`
holds vector results on their way as (elapsed cycle, register, lanes); `ready` gives, per source (keys in
Machine/SignalCore.lean), the elapsed cycle from which a reader may issue (R251). `suspended` counts the loop levels whose end
detection a handler suspends (R260); `rep` is the count of a repeat whose instruction is next (R253). `busyHalf` marks the
halves of the data memories in use, bit 0 the low one; `nextHigh` names the half the next job takes (R254). -/
structure SignalCore where
  health : CoreHealth := .inService
  stopped : Bool := false
  lastCause : BitVec 8 := 0
  lastEpc : BitVec 16 := 0
  committed : W32 := 0
  failed : W32 := 0
  overflows : W32 := 0
  parityTimes : List Nat := []
  returning : Bool := false
  program : Tab W32 := []
  x : Tab Byte := []
  y : Tab Byte := []
  v : Tab (BitVec 32) := []
  landing : List (Nat × Nat × List (BitVec 32)) := []
  a : Tab AccLane := []
  p : Tab W16 := []
  m : Tab W16 := []
  s : Tab W32 := []
  eq : Bool := false
  lt : Bool := false
  link : Option (BitVec 14) := none
  ls : Tab W16 := []
  le : Tab W16 := []
  lc : Tab W16 := []
  depth : W32 := 0
  suspended : Nat := 0
  epc : W32 := 0
  cause : BitVec 8 := 0
  accTrap : Bool := false
  inHandler : Bool := false
  held : List (BitVec 8) := []
  pc : BitVec 14 := 0
  elapsed : Nat := 0
  ready : Tab Nat := []
  rep : Option Nat := none
  loaded : Option Job := none
  job : Option Job := none
  done : List Job := []
  abandoned : Option Job := none
  nextHigh : Bool := false
  busyHalf : BitVec 2 := 0
deriving DecidableEq, Repr

/-! ### Ports (R263 to R289) -/

/-- Port state of R267. -/
inductive PortState where
  | disabled | down | up
deriving DecidableEq, Repr

/-- Where a queued frame came from. -/
inductive FrameOrigin where
  | mgmt (serial : Nat) (timestamp : Bool)
  | cplane (cell : CellId) (slot : Nat)
  | uplane (cell : CellId) (slot : Nat) (symbol : BitVec 4) (stream : BitVec 5)
  | enalup (cls : BitVec 2)
deriving DecidableEq, Repr

/-- A frame in an egress queue: bytes without FCS, origin, and the nanosecond at which it was queued. -/
structure Frame where
  bytes : List Byte
  origin : FrameOrigin
  queuedAt : Nat := 0
  order : Nat := 0
deriving DecidableEq, Repr

/-- A MACsec secure association (R286, R287): key, salt, SSCI, the next PN on transmit or the lowest acceptable one on
receive, and whether its PN threshold has been noted. -/
structure SecureAssoc where
  installed : Bool := false
  key256 : Bool := false
  key : BitVec 256 := 0
  salt : BitVec 96 := 0
  ssci : BitVec 32 := 0
  pn : W64 := 0
  exhausted : Bool := false
  warned : Bool := false
deriving DecidableEq, Repr

/-- One Ethernet port: status, queues (by queue or class number), the frame on the wire, how many gate entries of the period
have opened, what shapers, deficits and policer buckets have spent (in units of 1/256 byte divided by 8,192,000, so that growth
over 2^-16 ns is a whole number) with the time they were last filled in 2^-16 ns, secure associations (key 4 × SC + AN) and
traffic counters. -/
structure Port where
  state : PortState := .disabled
  stopped : Bool := false
  localFault : Bool := false
  remoteFault : Bool := false
  transitions : W32 := 0
  queues : Tab (List Frame) := []
  wire : Option Frame := none
  gateEntry : Nat := 0
  spent : Tab Nat := []
  filledAt : Nat := 0
  deficit : Tab Nat := []
  tcSpent : Tab Nat := []
  teSpent : Tab Nat := []
  policedAt : Tab Nat := []
  sas : Tab SecureAssoc := []
  stats : Tab W64 := []
deriving DecidableEq, Repr

/-- A management descriptor that has not had its TX_DONE record: its port and tag, and once it has ended its status and
timestamp (R271). -/
structure TxOpen where
  serial : Nat
  port : BitVec 7
  tag : W32
  outcome : Option (BitVec 8 × BitVec 96) := none
deriving DecidableEq, Repr

/-- The management queue (R269 to R272) in the device. -/
structure MgmtQueue where
  rxWritten : W64 := 0
  rxConsumed : W64 := 0
  overflow : Bool := false
  txCount : W64 := 0
  txFetched : W64 := 0
  dropped : W32 := 0
  completed : W32 := 0
  txOpen : List TxOpen := []
  nextTx : Nat := 0
deriving DecidableEq, Repr

/-! ### Memory (R290 to R317) -/

/-- What a segment holds besides its bytes: a LOST or POISONED marker, or bytes with errors in the given symbols (R294, R295).
(DESIGN CHOICE, assumption 86) -/
inductive SegMark where
  | good | lost | poisoned | errors (symbols : List Nat)
deriving DecidableEq, Repr

/-- Channel state of R315. -/
inductive ChannelState where
  | inService | failedTraining | failed
deriving DecidableEq, Repr

/-- Writes held for one segment (R299): the bytes written so far as (offset, byte), whether any carried poison, how many
writes wait for their acknowledgement, whether the merge read has begun, and the tick at which the first of them was accepted. -/
structure HeldWrite where
  segment : Nat
  bytes : Tab (Option Byte)
  poison : Bool
  waiting : Nat
  merging : Bool := false
  cls : BitVec 2 := 0
  since : Nat := 0
deriving DecidableEq, Repr

/-- An acknowledgement a controller gave: how many writes, and their status. -/
structure WriteAck where
  segment : Nat
  count : Nat
  status : BitVec 8
deriving DecidableEq, Repr

/-- A line a controller delivered: data, poison flag, status. -/
structure LineReply where
  segment : Nat
  line : Nat
  data : List Byte
  poison : Bool
  status : BitVec 8
deriving DecidableEq, Repr

/-- One near-memory channel. `buffer` is the segment held and the tick at which it was decoded (R298). -/
structure Channel where
  state : ChannelState := .inService
  temperature : BitVec 8 := 0
  runs : BitVec 8 := 1
  errors : Tab W32 := []
  buffer : Option (Nat × Nat) := none
  queue : List HeldWrite := []
  replays : Nat := 0
  patrol : Nat := 0
  lastReply : Option LineReply := none
  lastAck : Option WriteAck := none
deriving DecidableEq, Repr

/-- State of a far port (R315). -/
inductive FarState where
  | absent | down | up
deriving DecidableEq, Repr

/-- One CXL port. `owed` counts reads that timed out and whose completions may still come; one that comes is dropped and counted (R313). -/
structure FarPort where
  state : FarState := .absent
  width : BitVec 5 := 0
  fast : Bool := false
  capacity : W32 := 0
  mapped : W32 := 0
  owed : Nat := 0
  lateDropped : Nat := 0
deriving DecidableEq, Repr

/-- Region state (R305). -/
inductive RegionPhase where
  | ready | clearing | degraded
deriving DecidableEq, Repr

/-- State of one declared region. -/
structure Region where
  phase : RegionPhase := .ready
deriving DecidableEq, Repr

/-- The memory tiers. `near` and `far` hold bytes by module address; after training near memory is zero (R316). `marks` is
keyed by segment (module address divided by 256). -/
structure Memory where
  near : List Host.Cell := []
  marks : Tab SegMark := []
  far : List Host.Cell := []
  farPoison : Tab Bool := []
  channels : Tab Channel := []
  farPorts : Tab FarPort := []
  interleaved : Bool := false
  regions : Tab Region := []
  mirrorAcks : List (Nat × WriteAck) := []
deriving DecidableEq, Repr

/-! ### Fabric (R318 to R344) -/

/-- Peer state (R338). -/
inductive PeerLiveness where
  | up | silent | dead
deriving DecidableEq, Repr

/-- A packet sent and not acknowledged (R325 to R327). -/
structure Packet where
  psn : W32
  header : BitVec 384
  payload : List Byte
  port : BitVec 5
  sentAt : Nat
deriving DecidableEq, Repr

/-- One stream of a peer and class: next PSN to send, unacknowledged packets, and on receipt the next PSN expected, the
bitmap of those received beyond it, NOTIFY requests that wait for lower PSNs (R324, R329), and PSNs whose writes were applied
and are not acknowledged before the mirror's partner has acknowledged the named segments (R341). -/
structure Stream where
  nextPsn : W32 := 0
  unacked : List Packet := []
  expect : W32 := 0
  bitmap : List (BitVec 32) := []
  notifies : List (BitVec 384) := []
  applied : List (W32 × List Nat) := []
deriving DecidableEq, Repr

/-- What a fabric operation is for. -/
inductive FabricUse where
  | tender (engine : EngineId) (context : ContextId)
  | port (engine : EngineId) (context : ContextId) (serial : W16) (result : W64)
  | send (engine : EngineId) (context : ContextId) (serial : W16) (destination : Nat)
  | mirror (record : Nat)
deriving DecidableEq, Repr

/-- An operation toward a peer that has not completed (R337, R339); `id` tells it from every other of this module, and `inst` is the
instance whose batch caused it with the generation it carries (R354). -/
structure FabricOp where
  id : Nat := 0
  request : W16
  opcode : BitVec 6
  cls : BitVec 2
  psn : W32 := 0
  use : FabricUse
  issuedAt : Nat
  acked : Bool := false
  sent : Bool := false
  address : W64 := 0
  operand1 : W64 := 0
  operand2 : W64 := 0
  lines : BitVec 7 := 0
  payload : List Byte := []
  poison : Bool := false
  inst : Option (InstanceId × W16) := none
deriving DecidableEq, Repr

/-- An entry of a peer's reply cache (R337). -/
structure CachedReply where
  request : W16
  opcode : BitVec 6
  value : W64
  status : BitVec 8 := 0
deriving DecidableEq, Repr

/-- One peer. -/
structure Peer where
  liveness : PeerLiveness := .up
  remoteIncarnation : W16 := 0
  retransmits : W32 := 0
  lastReceipt : Nat := 0
  lastSent : Nat := 0
  nextPort : BitVec 5 := 0
  streams : Tab Stream := []
  nextRequest : W16 := 0
  ops : List FabricOp := []
  cache : List CachedReply := []
deriving DecidableEq, Repr

/-- A FENCE in progress (R336): who issued it, when, where its result goes, the operations it counts as (peer, identity), and
the modules at which a counted one ended not DONE. -/
structure Fence where
  engine : EngineId
  context : ContextId
  serial : W16
  result : W64
  issuedAt : Nat
  counted : List (Nat × Nat)
  missing : List Nat := []
deriving DecidableEq, Repr

/-- Mirror record state (R342). -/
inductive MirrorState where
  | active | broken
deriving DecidableEq, Repr

/-- A mirror write not yet sent: its mirror record, the segment, the bytes from a byte of it, whether poisoned, and the
channel write that waits for the partner's acknowledgement (R341). -/
structure MirrorWrite where
  record : Nat
  address : Nat
  bytes : List Byte
  poison : Bool
  sent : Bool := false
deriving DecidableEq, Repr

/-- The fabric transport. `ingress` holds the packets of the ingress buffers: die, header, lines (R325). -/
structure Fabric where
  incarnation : W16 := 0
  peers : Tab Peer := []
  fences : List Fence := []
  nextOp : Nat := 0
  mirrors : Tab MirrorState := []
  mirrorWaiting : List MirrorWrite := []
  stats : Tab W64 := []
  ingress : List (Nat × BitVec 384 × Nat) := []
deriving DecidableEq, Repr

/-! ### Host link (R345 to R366) -/

/-- What a host read is for (R88, R214, R219, R270, R347, R399). -/
inductive ReadPurpose where
  | summary (line : BitVec 7)
  | batch (source : Source)
  | plan (cell : CellId) (slot : Nat)
  | payload (cell : CellId) (slot : Nat) (pdu : BitVec 7)
  | radioConsumed
  | mgmtCounts (tx : Bool)
  | eventConsumed
  | providerCounter
  | tender (engine : EngineId) (context : ContextId)
  | flush (source : Source)
deriving DecidableEq, Repr

/-- A non-posted read outstanding (R345, R347). -/
structure HostRead where
  source : Source
  address : W64
  length : Nat
  purpose : ReadPurpose
  issuedAt : Nat := 0
deriving DecidableEq, Repr

/-- What a posted write is (R93, R219, R272, R399). -/
inductive WritePurpose where
  | completion | radio | mgmt | event | store (engine : EngineId) (context : ContextId) | msix | dirty | dictionary | sample
deriving DecidableEq, Repr

/-- A posted write the host port holds until it is sent onto the link (R347): function, address, bytes, the generation it
carries (R354), and what it is. -/
structure PostedWrite where
  source : Source
  address : W64
  bytes : List Byte
  poisoned : Bool := false
  generation : W16 := 0
  purpose : WritePurpose
deriving DecidableEq, Repr

/-- An MSI-X vector (R351); its mask bit is set at reset, as the PCI Express specification gives. (PRESUMED, assumption 9) -/
structure Vector where
  unmasked : Bool := false
  pending : Bool := false
deriving DecidableEq, Repr

/-- One dirty log in the device (R358 to R360). -/
structure DirtyLog where
  epoch : Nat := 0
  completed : W32 := 0
  harvesting : Bool := false
  closing : Bool := false
  flushing : Bool := false
  marked : List (Bool × Nat) := []
deriving DecidableEq, Repr

/-- One IDE stream: keys programmed per sub-stream, and whether it is secure (R365). Stream 0 is the link stream. -/
structure IdeStream where
  keys : Tab (BitVec 256) := []
  secure : Bool := false
deriving DecidableEq, Repr

/-- A dictionary window or session's status block and data area (R369, R370). -/
structure DictWindow where
  sequence : W16 := 0
  state : BitVec 2 := 0
  status : BitVec 8 := 0
  reason : BitVec 8 := 0
  total : W32 := 0
  returned : W32 := 0
  data : List Byte := []
deriving DecidableEq, Repr

/-- Whether the host link carries traffic (R357, R366, R429). -/
inductive LinkPhase where
  | inReset | training | up | down
deriving DecidableEq, Repr

/-- The host link. -/
structure HostLink where
  phase : LinkPhase := .inReset
  perst : Bool := false
  width : BitVec 4 := 0
  rate : BitVec 4 := 0
  flit : Bool := false
  timeoutCode : BitVec 4 := 0
  vfEnable : Bool := false
  numVFs : W16 := 0
  reads : Tab (Option HostRead) := []
  nextTag : BitVec 14 := 0
  writes : List PostedWrite := []
  lastSent : Option PostedWrite := none
  lateDropped : Nat := 0
  vectors : Tab Vector := []
  translations : List (Source × Nat) := []
  windows : Tab DictWindow := []
  unmappedWrites : W32 := 0
  dirty : Tab DirtyLog := []
  pfWrote : Bool := false
  pfPage : W64 := 0
  ide : Tab IdeStream := []
  hostReady : Bool := false
  radioReady : Bool := false
deriving DecidableEq, Repr

/-! ### Dictionary and versions (R367 to R388) -/

/-- Configuration state (R380). -/
inductive ConfigPhase where
  | confirmed | pending | unconfirmed
deriving DecidableEq, Repr

/-- A flash slot for a configuration version (R385): number and complement as stored, state code, whether digest and
signature verified, and the body. -/
structure ConfigSlot where
  number : W32 := 0
  numberC : W32 := 0
  state : BitVec 4 := 0
  verified : Bool := false
  body : Tab Nat := []
deriving DecidableEq, Repr

/-- A settings record of flash (R387). -/
structure Settings where
  count : W32 := 0
  verified : Bool := false
  values : Tab Nat := []
  incarnation : W16 := 0
  expelled : Bool := false
  lastSequence : W64 := 0
  managerKeys : List (BitVec 1088) := []
  quorum : BitVec 8 := 0
deriving DecidableEq, Repr

/-- What activates at a coming boundary (R381, R383). -/
inductive Activation where
  | commit | revert
deriving DecidableEq, Repr

/-- The configuration versions. Tables hold object records by packed key (Machine/Objects.lean); numbers carry complements. -/
structure Versions where
  active : Tab Nat := []
  staging : Tab Nat := []
  previous : Tab Nat := []
  activeNo : W32 := 0
  activeNoC : W32 := 0xFFFFFFFF#32
  stagingNo : W32 := 0
  stagingNoC : W32 := 0xFFFFFFFF#32
  previousNo : W32 := 0
  previousNoC : W32 := 0xFFFFFFFF#32
  counter : W32 := 0
  phase : ConfigPhase := .confirmed
  previousValid : Bool := false
  previousRejected : Bool := false
  startupFallback : Bool := false
  stored : Bool := false
  activationPeriod : W32 := 0
  due : Option (Activation × Nat) := none
  deadline : W32 := 0
  report : BitVec 128 := 0
  slots : Tab ConfigSlot := []
  settings : Tab Settings := []
  stats : Tab W32 := []
deriving DecidableEq, Repr

/-! ### Keeper line and SPDM (R389 to R395, R439) -/

/-- Keeper link state (R395). -/
inductive KeeperPhase where
  | down | training | up
deriving DecidableEq, Repr

/-- How far an SPDM session has come. -/
inductive SessionPhase where
  | closed | exchanged | opened
deriving DecidableEq, Repr

/-- A keeper session (R393, R394). -/
structure Session where
  phase : SessionPhase := .closed
  address : BitVec 128 := 0
  port : W16 := 0
  spdmId : W32 := 0
  lastSequence : W16 := 0
  anyRequest : Bool := false
  opened : Nat := 0
  lastValid : Nat := 0
  idleLimit : W32 := 60
  keyEpoch : Nat := 0
  response : List Byte := []
deriving DecidableEq, Repr

/-- An SPDM responder on one connection: which negotiation steps it has answered, the messages so far, its last response, and how far
the DOE mailbox's session has come (R364, R439). -/
structure SpdmState where
  version : Bool := false
  capabilities : Bool := false
  algorithms : Bool := false
  transcript : List Byte := []
  response : List Byte := []
  session : SessionPhase := .closed
deriving DecidableEq, Repr

/-- What the keeper line sends (R391, R392): a UDP payload to an address and port, a neighbour solicitation, an advertisement of one of
its own addresses, or an echo reply from the address that was asked. -/
inductive KeeperPacket where
  | datagram (dest : BitVec 128) (port : W16) (bytes : List Byte)
  | solicitation (target : BitVec 128)
  | advertisement (dest target : BitVec 128)
  | echoReply (src dest : BitVec 128) (body : List Byte)
deriving DecidableEq, Repr

/-- The keeper line. `inForce` holds the persistent keeper objects as they stood at the last start-up (R395); `waiting` the packets whose
next hop is not resolved, with that hop; `out` what has been sent; `spdm` the negotiation of each connection. -/
structure Keeper where
  phase : KeeperPhase := .down
  polarity : Bool := false
  inForce : Tab Nat := []
  sqi : BitVec 3 := 0
  ups : BitVec 24 := 0
  sessions : Tab Session := []
  nextSession : W32 := 0
  stats : Tab W32 := []
  neighbours : List (BitVec 128 × BitVec 48) := []
  duplicate : List (BitVec 128) := []
  waiting : List (BitVec 128 × KeeperPacket) := []
  out : List KeeperPacket := []
  spdm : Tab SpdmState := []
  doe : SpdmState := {}
deriving DecidableEq, Repr

/-! ### Integrity (R396 to R425) -/

/-- An event record (R397), with when its first event was raised, in ticks; `phase` and `overflow` are set when the ring takes it. -/
structure EventRecord where
  time : BitVec 96
  code : W16
  unit : UnitId
  status : BitVec 8
  severity : BitVec 2
  context : Option ContextId
  instanceId : Option InstanceId
  repeats : W16
  temperature : BitVec 8
  voltage : W16
  load : BitVec 8
  detail : BitVec 256
  raisedAt : Nat
  phase : Bool := false
  overflow : Bool := false
deriving DecidableEq, Repr

/-- What a conservation ledger (R400) holds beyond the pool's own state: by how much its Free term departs from what conservation
gives it, and by which bits its stored size and complement disagree. A ledger that is not listed balances.
(DESIGN CHOICE, assumption 122) -/
structure Ledger where
  drift : Int := 0
  sizeFault : W32 := 0
deriving DecidableEq, Repr

/-- A health score (R414, R415). -/
structure Health where
  score : W32 := 0
  flagged : Bool := false
  own : Bool := false
  events : W32 := 0
  last : W32 := 0
deriving DecidableEq, Repr

/-- A pass kept for arbitration (R409): both results, and the result its copied operands give on any array that works (R105),
with its stream cycles. (DESIGN CHOICE, assumption 55) -/
structure SoundingSlot where
  engine : EngineId
  array : ArrayId
  arrayOp : W32
  here : List (List W32)
  other : List (List W32)
  truth : List (List W32)
  stream : Nat
  since : Nat
deriving DecidableEq, Repr

/-- Integrity, health and fleet state. -/
structure Integrity where
  holding : List EventRecord := []
  recent : List EventRecord := []
  faultLog : List EventRecord := []
  unlogged : List EventRecord := []
  ringWritten : W64 := 0
  ringConsumed : W64 := 0
  overflow : Bool := false
  dropped : W32 := 0
  raised : Nat := 0
  ledgers : Tab Ledger := []
  health : Tab Health := []
  decayTicks : Nat := 0
  soundingStats : Tab W32 := []
  soundingSlots : Tab (Option SoundingSlot) := []
  managerKeys : List (BitVec 1088) := []
  quorum : BitVec 8 := 0
  expelled : Bool := false
  orderPending : Option (Bool × Nat) := none
  lastSequence : W64 := 0
  fenced : Bool := false
  firmwareLost : Bool := false
deriving DecidableEq, Repr

/-! ### Start-up, reset, power (R426 to R444) -/

/-- A boot image slot as flash holds it: its state record (R434), whether it verified at the last boot, whether it has been written since
it was erased, and its bytes, of which an unlisted one is erased and reads 0xFF. -/
structure ImageSlot where
  state : BitVec 4 := 0
  attempts : BitVec 2 := 0
  confirmSeq : W32 := 0
  verified : Bool := false
  written : Bool := false
  content : Tab Byte := []
deriving DecidableEq, Repr

/-- The kind of the last reset (R430). -/
inductive ResetKind where
  | cold | pad | command | firmware | thermal
deriving DecidableEq, Repr

/-- Start-up and security state. -/
structure Startup where
  powered : Bool := false
  modRst : Bool := false
  running : Bool := false
  testEn : Bool := false
  klMaster : Bool := false
  recovery : Bool := false
  bootedSlot : BitVec 8 := 0xFF
  firmwareVersion : W32 := 0
  lastReset : ResetKind := .cold
  thermalBefore : Bool := false
  resetDue : Option (Bool × Nat) := none
  images : Tab ImageSlot := []
  fuses : W64 := 0
  revoked : BitVec 4 := 0
  debugLock : Bool := false
  integratorDigest : BitVec 512 := 0
  integratorLocked : Bool := false
  scImageAccepted : Bool := false
  scSigner : BitVec 8 := 0
  scVersion : W32 := 0
  handlerEntry : BitVec 14 := 0
  kernels : Tab (BitVec 128) := []
  aliasEpoch : Nat := 0
  thermTrip : Bool := false
deriving DecidableEq, Repr

/-- A temperature sensor (R444): last reading, whether it is in the excursion band, in a trip and since how many samples. -/
structure Sensor where
  reading : BitVec 16 := 0
  excursion : Bool := false
  trip : Bool := false
  tripSamples : Nat := 0
  excursions : W32 := 0
  trips : W32 := 0
  samples : W32 := 0
deriving DecidableEq, Repr

/-- Power and thermal control (R442 to R444). Duties are stored as 64 − D, so that an unlisted group has D = 64. -/
structure Power where
  p10 : Nat := 0
  history : List Nat := []
  duty : Tab Nat := []
  rails : Tab (BitVec 32 × BitVec 32) := []
  overFor : Nat := 0
  overRaised : Bool := false
  sensors : Tab Sensor := []
deriving DecidableEq, Repr

/-! ### Counters (R445 to R456) -/

/-- A programmable counter's value (R451). -/
structure ProgValue where
  count : W48 := 0
  overflow : Bool := false
  sampleValid : Bool := false
  sampleClass : BitVec 2 := 0
  sampleOwner : BitVec 11 := 0
  sampleUnit : W16 := 0
  sampleAddress : W48 := 0
  sampleTime : BitVec 96 := 0
deriving DecidableEq, Repr

/-- The counters: fixed ones by packed key (Machine/Counting.lean), programmable values, controls in force and waiting,
the latched snapshot, and its request. -/
structure CounterBlock where
  fixed : Tab W64 := []
  prog : Tab ProgValue := []
  control : Tab (BitVec 256) := []
  waiting : Tab (Option (BitVec 256)) := []
  snapControl : Tab (BitVec 256) := []
  snapFixed : Tab W64 := []
  snapProg : Tab ProgValue := []
  snapRequested : Bool := false
  snapCount : W32 := 0
  sinceSnap : Nat := 0
deriving DecidableEq, Repr

/-! ### Die-to-die links and the test port (R39 to R41, R467 to R470) -/

/-- A die-to-die link: training lost and the tick at which it was, whether it failed for good, and replays made. -/
structure D2dLink where
  lost : Bool := false
  lostAt : Nat := 0
  dead : Bool := false
  replays : Nat := 0
deriving DecidableEq, Repr

/-- What the functional pads follow (R470). -/
inductive PadDrive where
  | functional | boundary | clamped | highZ | pulse | train
deriving DecidableEq, Repr

/-- The IEEE 1149.1 test access port: the opcode in the instruction register, the boundary register's captured and update cells, what the
data register that is selected shifts out, first bit first, and what drives the pads (R467 to R470). -/
structure Tap where
  instruction : BitVec 8 := 0x01
  captured : List Bool := []
  update : List Bool := []
  out : List Bool := []
  drive : PadDrive := .functional
deriving DecidableEq, Repr

/-! ### The whole state -/

/-- The module. `pending` is the queue of commands that wait, first in, first out. `freeCount` counts the places at which an
open value was taken (the model's own field). -/
structure State where
  pending : List Instr := []
  freeCount : Nat := 0
  time : TimeBase := {}
  links : LinkTime := {}
  chr : Characteristic := {}
  insts : Tab Inst := []
  provider : Ring := {}
  batches : List Batch := []
  nextBatch : Nat := 0
  batchesDiscarded : Nat := 0
  engines : Tab Engine := []
  scrubsCompleted : W32 := 0
  radio : Radio := {}
  cores : Tab SignalCore := []
  ports : Tab Port := []
  mgmt : MgmtQueue := {}
  mem : Memory := {}
  fabric : Fabric := {}
  host : HostLink := {}
  vers : Versions := {}
  rw : Tab Nat := []
  keeper : Keeper := {}
  integ : Integrity := {}
  start : Startup := {}
  power : Power := {}
  ctrs : CounterBlock := {}
  d2d : Tab D2dLink := []
  tap : Tap := {}
deriving DecidableEq, Repr

/-- The module right after reset: every field at the value the manual gives for a cold reset, or at the value the
assumption log names; no command waits. (DESIGN CHOICE, assumption 5) (DESIGN CHOICE, assumption 6) -/
def State.reset : State := {}

end Sys2Proof.Machine
end

