-- ==== Sys2Proof/Machine/BoundaryScan.lean ====
section
/-!
DEFINITION. The IEEE 1149.1 test access port (R467 to R470).
-/

namespace Sys2Proof.Machine

/-- The IDCODE register: 0x292005E7 for stepping B0 (R468). -/
def idcodeValue : Nat := 0x292005E7

/-- How many cells the boundary register holds (R467). -/
def boundaryCells : Nat := 3312

/-- The cells of the boundary register, those not given read as 0. -/
def cells (xs : List Bool) : List Bool := (xs ++ List.replicate boundaryCells false).take boundaryCells

/-- What drives the functional pads under an instruction that does not drive them: the part itself, and nothing in boundary-scan mode
(R470). (DEDUCED, assumption 142) -/
def State.padsIdle (s : State) : PadDrive := if s.start.testEn then .highZ else .functional

/-- Load an instruction. -/
def State.loadTap (s : State) (t : Tap) : State := if s.start.powered then { s with tap := t } else s

/-- BYPASS: the one-bit bypass register is selected and captures 0; the opcode stays as it was loaded. -/
def State.bypassTap (s : State) (opcode : BitVec 8) : State :=
  s.loadTap { s.tap with instruction := opcode, out := [false], drive := s.padsIdle }

/-- An instruction that acts in boundary-scan mode, and as BYPASS otherwise (R470). -/
def State.scan (s : State) (opcode : BitVec 8) (t : Tap) : State :=
  if s.start.testEn then s.loadTap { t with instruction := opcode } else s.bypassTap opcode

/-- An instruction through the boundary register: the pads are captured, and the pads follow the update cells in a stated way. -/
def State.throughBoundary (s : State) (opcode : BitVec 8) (pads update : List Bool) (drive : PadDrive) : State :=
  s.scan opcode { s.tap with captured := cells pads, update := cells update, out := cells pads, drive }

/-- EXTEST (R467). -/
def execExtest (pads drive : List Bool) (s : State) : Host.Outcome State Fault Refusal := .next (s.throughBoundary 0x00 pads drive .boundary)

/-- IDCODE (R468). -/
def execIdcode (s : State) : Host.Outcome State Fault Refusal :=
  .next (s.loadTap { s.tap with instruction := 0x01, out := (List.range 32).map (bit idcodeValue), drive := s.padsIdle })

/-- SAMPLE_PRELOAD (R467): the pads are sampled and the update cells preloaded, and nothing is driven from them. -/
def execSamplePreload (pads preload : List Bool) (s : State) : Host.Outcome State Fault Refusal :=
  .next (s.throughBoundary 0x02 pads preload s.padsIdle)

/-- EXTEST_PULSE (R469): the serial lanes send pulses, and their receivers' edge detectors are captured. -/
def execExtestPulse (pads drive : List Bool) (s : State) : Host.Outcome State Fault Refusal := .next (s.throughBoundary 0x03 pads drive .pulse)

/-- EXTEST_TRAIN (R469): as EXTEST_PULSE, with trains of edges. -/
def execExtestTrain (pads drive : List Bool) (s : State) : Host.Outcome State Fault Refusal := .next (s.throughBoundary 0x04 pads drive .train)

/-- CLAMP (R467): the pads hold the update cells' values with the bypass register selected. -/
def execClamp (s : State) : Host.Outcome State Fault Refusal := .next (s.scan 0x05 { s.tap with out := [false], drive := .clamped })

/-- HIGHZ (R467): the outputs are in high impedance with the bypass register selected. -/
def execHighz (s : State) : Host.Outcome State Fault Refusal := .next (s.scan 0x06 { s.tap with out := [false], drive := .highZ })

/-- BYPASS (R467). -/
def execBypass (s : State) : Host.Outcome State Fault Refusal := .next (s.bypassTap 0xFF)

/-- TRST_N_ASSERT (R470): test-logic reset, in which IDCODE is selected, whatever TEST_EN is. -/
def execTrstNAssert (s : State) : Host.Outcome State Fault Refusal :=
  .next (s.loadTap { s.tap with instruction := 0x01, out := [], drive := s.padsIdle })

end Sys2Proof.Machine
end

