-- ==== Sys2Proof/Config.lean ====
section
/-!
DEFINITION. What the manual leaves open, as constants with no body: nothing in Lean can evaluate one or prove a value of it,
so a claim about the model holds whatever they are. Each is named in a row of the assumption log.
-/

namespace Sys2Proof.Config

/-- The value the manual leaves open at the n-th place where a run meets an open value (the assumption log names the places). -/
opaque freeValue : Nat → Nat

/-- Which of the FP32 values within one unit in the last place of the exact one a special function returns (R160): a
function of the function code and the operand only, since the same input gives the same bits everywhere. (DESIGN CHOICE, assumption 48) -/
opaque sfuPick : Nat → W32 → Nat

/-- What a signal core's lane or index takes on an operand code the manual gives no meaning (for example an SFU code of 6 or 7).
(DESIGN CHOICE, assumption 49) -/
opaque sfuReserved : Nat → W32 → W32

/-- GELU in its tanh form (R162): the manual fixes neither its constants nor its order of rounding. The same input gives the
same bits everywhere (R160). (DESIGN CHOICE, assumption 50) -/
opaque gelu : W32 → W32

/-- The next value of an array's 32-bit sounding register, and its seed at start-up from the serial number and the array's
record index: the manual gives neither the polynomial nor the seeding (R406). (DESIGN CHOICE, assumption 54) -/
opaque soundingNext : W32 → W32
opaque soundingSeed : Nat → W32

/-- SHA-512, named by the manual and not defined in it (R385, R419, R433). (DESIGN CHOICE, assumption 126) -/
opaque sha512 : List Byte → BitVec 512

/-- ECDSA P-521 verification: public key (x, y), digest, signature (r, s) (R385, R420, R433). -/
opaque ecdsaVerify : Nat → Nat → Nat → Nat → Nat → Bool

/-- ECDSA P-521 signing by the module's own key number k (0 identity, 1 alias): the pair r, s as one number (R385, R439). -/
opaque ecdsaSign : Nat → Nat → BitVec 1056

/-- The receive check of a MACsec frame: key, packet number and frame bytes give whether the ICV holds (R285). -/
opaque macsecIcvGood : Nat → Nat → List Byte → Bool

/-- The bytes of a MACsec frame on the wire: key, packet number, plain frame (R285). (PRESUMED, assumption 79) -/
opaque macsecSeal : Nat → Nat → List Byte → List Byte

/-- The plain bytes of a received MACsec frame (R285). -/
opaque macsecOpen : Nat → Nat → List Byte → List Byte

/-- The decryption of one SPDM secured message under a session's keys; none when it fails (R392, R393). -/
opaque spdmOpen : Nat → List Byte → Option (List Byte)

/-- The encryption of one SPDM secured message under a session's keys (R392, R393). -/
opaque spdmSeal : Nat → List Byte → List Byte

/-- The body of an SPDM response the DMTF standard lays out and the manual does not: message code, request bytes, and the
contents the manual does state, as one list of bytes (R439). -/
opaque spdmBody : Nat → List Byte → List Byte → List Byte

/-- Whether a requester's certificate chain ends at one of the registered root digests (R393, R439). -/
opaque chainEndsAt : List Byte → List Nat → Bool

/-- The hard decisions of an LDPC decoder after at most n iterations, with the iterations used, and whether it stopped on
its check (TS 38.212 code, decoder arithmetic the manual leaves open): LLR bytes, base graph 2, Z, K, n; the check is the zero syndrome for
the only block of its transport block, else CRC 24B (R232, R237). -/
opaque ldpcDecode : List Byte → Bool → Nat → Nat → Bool → Nat → List Byte × Nat × Bool

/-- LDPC encoding and rate matching of TS 38.212: input bytes, output bits E (R237). -/
opaque ldpcEncode : List Byte → Nat → List Byte

/-- The destination address of a cell's radio unit on a fronthaul link: the manual names no object that holds it (R221, R225,
R239). -/
opaque radioUnitMac : Nat → BitVec 48

/-- The bytes of an O-RAN C-plane message after its eCPRI payload identifiers: section type, cell record, PDU record, slot and stream, and the
weights of its extension 1 or its channel information (R225); the O-RAN standard lays them out and the manual does not.
(DESIGN CHOICE, assumption 58) -/
opaque cplaneBody : Nat → Nat → Nat → Nat → Nat → List Byte → List Byte

/-- The frequency offset, S16 in Hz, whose phase advance over a time in units of 2^-16 ns is the argument of a complex sum (R227): the manual
gives the formula and not the arithmetic. -/
opaque phaseRate : Int × Int → Nat → BitVec 16

/-- The I and Q of a sample rotated by exp(−j 2π f t): f, S16 in Hz, and t in units of 2^-16 ns (R227). -/
opaque rotate : BitVec 16 → Nat → Int × Int → Int × Int

/-- The Q1.15 value of the smallest amplitude of a modulation order's constellation at the demapper and at the modulator (R230, R233): the manual
gives no reference level. -/
opaque amplitude : Nat → Nat

/-- The scale s of the demapper as a numerator and a denominator, set from the modulation order and the noise variance (R230).
(DESIGN CHOICE, assumption 63) -/
opaque demapScale : Nat → W32 → Nat × Nat

/-- Polar list decoding (R237): LLR bytes, length; the decoded bytes and whether the CRC held. -/
opaque polarDecode : List Byte → Nat → List Byte × Bool

/-- Polar encoding of TS 38.212 (R237). -/
opaque polarEncode : List Byte → Nat → List Byte

/-- DFT or inverse DFT of M points (R237); the arithmetic of the transform unit is not stated. -/
opaque dft : Bool → Nat → List Byte → List Byte

/-- Interpolation of channel estimates to M subcarriers (R228, R237). -/
opaque interpolate : Nat → List Byte → List Byte

/-- PRACH correlation of an occasion: the samples of every uplink stream, format code, threshold; the detected preambles as (index, delay,
power) (R235). -/
opaque prachDetect : List (List Byte) → Nat → Nat → List (Nat × Nat × Nat)

/-- Whether the transport-block CRC of TS 38.212 holds over the decoded bytes (R232). -/
opaque tbCrcGood : List Byte → Bool

/-- Which of the 36 upper-case letters and digits the serial number of this module has at a place (R1). -/
opaque serialPick : Nat → Nat

/-- Character number p of the serial number: a digit or an upper-case letter (R1). -/
def serialChar (p : Nat) : Byte :=
  let k := serialPick p % 36
  if k < 10 then BitVec.ofNat 8 (0x30 + k) else BitVec.ofNat 8 (0x37 + k)

/-- The serial number, its first character in the low byte (R1, R17). -/
def serialNumber : BitVec 128 := (List.range 16).foldr (fun p (v : BitVec 128) => v * 256 + (serialChar p).setWidth 128) 0

/-- How much of a CLEARING region has been cleared, by region and tick: the share of time it is given bounds it from above only (R305, R308).
(DESIGN CHOICE, assumption 174) -/
opaque clearedUnits : Nat → Nat → Nat

/-- The unicast MAC address of the keeper line (R395). -/
opaque keeperMac : BitVec 48

/-- The identity public key of this module, 133 bytes (R439). -/
opaque identityPublicKey : BitVec 1064

/-- The certificate chain of slot 0 for a boot of the given alias (R439). (DESIGN CHOICE, assumption 141) -/
opaque certificateChain : Nat → List Byte

/-- The bytes of the boot ROM, which measurement 1 digests (R439). -/
opaque bootRom : List Byte

/-- The bytes of a configuration version's body, of which flash slots and measurement 6 hold a digest (R385, R439): the manual does not
lay them out. (DESIGN CHOICE, assumption 127) -/
opaque versionBody : Tab Nat → List Byte

/-- Whether an INTEGRATOR_SC section carries a valid signature by the key of a registered digest: the manual does not say where the
public key is found (R433, R438). -/
opaque integratorSigned : BitVec 512 → List Byte → Bool

/-- What a signal-core body holds: its handler entry, kernel records and program words. The manual gives the records and not the
body's layout (R258). -/
opaque signalHandlerEntry : List Byte → BitVec 14
opaque signalKernels : List Byte → List (BitVec 128)
opaque signalProgram : List Byte → List W32

/-- The SHA-512 digests of the four Trewidon keys held in ROM, and their public keys (R433). -/
opaque trewidonKey : Nat → Nat × Nat

end Sys2Proof.Config
end

