-- ==== Sys2Proof/Machine/Flags.lean ====
section
/-!
DEFINITION. Completion statuses and their precedence (R13, R14); complement pairs and their fallback (R403).
-/

namespace Sys2Proof.Machine

/-! ### Statuses (R13) -/

def stDone : BitVec 8 := 0x00
def stRerun : BitVec 8 := 0x08
def stInvalid : BitVec 8 := 0x10
def stNotResident : BitVec 8 := 0x11
def stHoldExceeded : BitVec 8 := 0x12
def stDataLost : BitVec 8 := 0x20
def stPoisoned : BitVec 8 := 0x21
def stRemoteTimeout : BitVec 8 := 0x30
def stUnknown : BitVec 8 := 0x31
def stFenceIncomplete : BitVec 8 := 0x32
def stRemoteRefused : BitVec 8 := 0x33
def stOverrun : BitVec 8 := 0x40
def stFill : BitVec 8 := 0x41
def stQuarantined : BitVec 8 := 0x60
def stSecurity : BitVec 8 := 0x70
def stInternal : BitVec 8 := 0xFF

/-- The statuses in rising precedence number: an earlier one wins (R13). (DEDUCED, assumption 29) -/
def statusOrder : List (BitVec 8) :=
  [stInternal, stSecurity, stInvalid, stNotResident, stHoldExceeded, stQuarantined, stDataLost, stPoisoned, stUnknown,
   stFenceIncomplete, stRemoteTimeout, stRemoteRefused, stFill, stOverrun, stRerun, stDone]

/-- The precedence number of a status; a value R13 does not list counts as INTERNAL_FAULT (R15). -/
def precedence (st : BitVec 8) : Nat := if st ∈ statusOrder then statusOrder.idxOf st + 1 else 1

/-- A status as the module reports it: one of the table's; a code the table does not list, as a peer or a port may hand in, is
reported as INTERNAL_FAULT (R13). -/
def listedStatus (st : BitVec 8) : BitVec 8 := if st ∈ statusOrder then st else stInternal

/-- The status a completion carries when several conditions apply (R14): the one of lowest precedence number. -/
def carried (sts : List (BitVec 8)) : BitVec 8 :=
  (sts.map listedStatus).foldl (fun a b => if precedence b < precedence a then b else a) stDone

/-- The conditions a completion does not carry, each of which is raised as an event (R14). -/
def notCarried (sts : List (BitVec 8)) : List (BitVec 8) :=
  ((sts.map listedStatus).eraseDups.filter (fun st => st ≠ stDone)).filter (fun st => st ≠ carried sts)

/-- Whether a status leaves the outputs valid: DONE and the statuses whose Outputs column says so (R13). -/
def outputsValid (st : BitVec 8) : Bool := st == stDone || st == stRerun || st == stOverrun || st == stFill

/-! ### Reasons of a dictionary refusal (R375) -/

def rsNone : BitVec 8 := 0
def rsNoObject : BitVec 8 := 1
def rsAccess : BitVec 8 := 2
def rsSize : BitVec 8 := 3
def rsRange : BitVec 8 := 4
def rsComplement : BitVec 8 := 5
def rsState : BitVec 8 := 6
def rsCheck : BitVec 8 := 7
def rsQuorum : BitVec 8 := 8
def rsDma : BitVec 8 := 9
def rsFlash : BitVec 8 := 0x0A
def rsPair : BitVec 8 := 0x0B

/-- The status that goes with a Reason (R375); DMA failures take the status R347 gives instead. -/
def statusOfReason (r : BitVec 8) : BitVec 8 :=
  if r = rsNone then stDone
  else if r = rsAccess ∨ r = rsQuorum then stSecurity
  else if r = rsFlash ∨ r = rsPair then stDataLost
  else stInvalid

/-! ### Complement pairs (R403) -/

/-- Whether a value and its complement half agree, at n bits. -/
def pairGood (n value comp : Nat) : Bool := compl n value == comp % 2 ^ n

/-- The fallback of a failing pair: the previous version's value, only when its own pair is good and it equals the value
half of the failing pair or the inverse of its complement half (R403). -/
def pairFallback (n value comp prev prevComp : Nat) : Option Nat :=
  if pairGood n prev prevComp && (prev % 2 ^ n == value % 2 ^ n || prev % 2 ^ n == compl n comp) then some prev else none

end Sys2Proof.Machine
end

