-- ==== Sys2Proof/Machine/Objects.lean ====
section
/-!
DEFINITION. Object records (R16 to R19, R376, R379): a record is named by index, subindex and record number and its value is
one little-endian number. A table of records stores the exclusive-or of value and default, so that an object nothing has
written is unlisted.
-/

namespace Sys2Proof.Machine

/-- The packed key of a record. -/
def objKey (index sub record : Nat) : Nat := (index * 256 + sub) * 65536 + record

/-- Defaults that are the same for every record of an object and not zero, by index × 256 + subindex. -/
def plainDefaults : List (Nat × Nat) :=
  [(0x100E00, 30), (0x200400, 1000), (0x200500, 14400), (0x200700, 100), (0x203000, 0xFF), (0x204200, 100000000),
   (0x300000, 1), (0x300300, 6000), (0x302000, 1000 <<< 50 ||| 1 <<< 42 ||| 16 <<< 35), (0x302400, 0xFFFF <<< 36),
   (0x403100, 0x0103), (0x403300, 2000), (0x501102, 12), (0x501103, 0xFFFF),
   (0x500100, 1 <<< 245 ||| 273 <<< 236 ||| 4 <<< 230 ||| 4 <<< 224 ||| 9 <<< 211 ||| 9 <<< 206 ||| 2500 <<< 168 ||| 500 <<< 152 |||
     500 <<< 136 ||| 50 <<< 120 ||| 500 <<< 104 ||| 1000 <<< 88 ||| 2000 <<< 72 ||| 8 <<< 34), (0x600100, 7 <<< 65 ||| 7 <<< 62 ||| 9000 <<< 48 ||| 20 <<< 42), (0x600200, 20 <<< 73),
   (0x603000, 1 <<< 28 ||| 2 <<< 26), (0x604002, 8), (0x604005, 8), (0x604007, 0xFFFF), (0x605000, 1 <<< 60),
   (0x701300, 25), (0x702000, 128), (0x703100, 24), (0x704200, 2000),
   (0x805001, 16), (0x805002, 250), (0x805003, 2000), (0x805004, 4000), (0x805005, 4000),
   (0x805101, 64), (0x805102, 512), (0x805103, 16), (0x805104, 256)] ++
  [(0xA00200, 24), (0xA01002, 10), (0xA01005, 0xFFFF), (0xA03000, 16), (0xA03100, 86400), (0xA03200, 0xFFF),
   (0xA05100, 150 <<< 22 ||| 8 <<< 14), (0xC00100, 900), (0xC00200, 1000), (0xE01200, 50100), (0xE01400, 60)]

/-- Default weights of the event kinds, in units of 1/256 point (R398, 0xA001). -/
def weightDefaults : List (Nat × Nat) :=
  [(0x01, 256), (0x02, 128), (0x03, 2048), (0x04, 512), (0x06, 8192), (0x08, 4096), (0x09, 16384), (0x0A, 16384),
   (0x11, 4096), (0x12, 32768), (0x30, 16384), (0x31, 16384)]

/-- The latencies R60 gives a link of the stated rate in Gb/s: ingress and egress, in units of 2^-16 ns. -/
def linkLatency : Nat → Nat × Nat
  | 400 => (0x00447AE1, 0x00333333)
  | 200 => (6039798, 0x00400000)
  | 100 => (9059697, 5872026)
  | 50 => (14092861, 8556380)
  | _ => (0, 0)

/-- The default of a record: what it holds until something writes it. (DEDUCED, assumption 110) -/
def defaultRec (index sub record : Nat) : Nat :=
  if index = 0xA001 then (weightDefaults.lookup record).getD 0
  else if index = 0xA004 then (if record = 0 then 1024 else 256)
  else if index = 0x5006 then (if record < 11 then 0x0A00 else 0)
  else if index = 0x2010 then
    (if record % 8 = 0 then (linkLatency 400).1 <<< 96 ||| (linkLatency 400).2 <<< 64 else 0)
  else (plainDefaults.lookup (index * 256 + sub)).getD 0

/-- Read a record of a table. -/
def getRec (t : Tab Nat) (index sub record : Nat) : Nat :=
  Nat.xor (Tab.get 0 t (objKey index sub record)) (defaultRec index sub record)

/-- Write a record of a table. -/
def setRec (t : Tab Nat) (index sub record v : Nat) : Tab Nat :=
  Tab.set 0 t (objKey index sub record) (Nat.xor v (defaultRec index sub record))

/-- A record of the active configuration version. -/
def State.act (s : State) (index sub record : Nat) : Nat := getRec s.vers.active index sub record

/-- A record of an RW object. -/
def State.obj (s : State) (index sub record : Nat) : Nat := getRec s.rw index sub record

/-- The state with a record of an RW object written. -/
def State.setObj (s : State) (index sub record v : Nat) : State := { s with rw := setRec s.rw index sub record v }

/-- The numbers of the records of an object that a table lists, in rising order. -/
def listedRecs (t : Tab Nat) (index sub : Nat) : List Nat :=
  t.filterMap (fun p => if p.1 / 65536 = index * 256 + sub then some (p.1 % 65536) else none)

end Sys2Proof.Machine
end

