-- ==== Sys2Proof/Machine/Ops.lean ====
section
/-!
DEFINITION. Operations every family shares: the clock's readings, unit identifiers, posted writes and MSI-X messages, events
and health scores, and access to the indexed parts of the state.
-/

namespace Sys2Proof.Machine

/-! ### Open values -/

/-- The next open value, and the state in which it has been taken. (DESIGN CHOICE, assumption 4) -/
def State.draw (s : State) : Nat × State := (Config.freeValue s.freeCount, { s with freeCount := s.freeCount + 1 })

/-! ### Readings of the clock (R46, R47, R62, R64) -/

/-- One second in units of 2^-32 ns. -/
def secondUnits : Nat := 10 ^ 9 * 2 ^ 32

/-- The whole time in units of 2^-32 ns since the epoch. -/
def TimeBase.units (t : TimeBase) : Nat := t.seconds.toNat * secondUnits + t.acc

/-- The time base set to a whole time, Seconds modulo 2^48. -/
def TimeBase.setUnits (t : TimeBase) (u : Nat) : TimeBase :=
  { t with seconds := BitVec.ofNat 48 (u / secondUnits), acc := u % secondUnits }

/-- A timestamp of a time given in units of 2^-16 ns (R46). -/
def stampOf16 (q : Nat) : BitVec 96 := BitVec.ofNat 96 (q / (10 ^ 9 * 2 ^ 16) * 2 ^ 48 + q % (10 ^ 9 * 2 ^ 16))

/-- The units of 2^-16 ns a timestamp stands for. -/
def unitsOfStamp (v : BitVec 96) : Nat := (v.toNat / 2 ^ 48) * (10 ^ 9 * 2 ^ 16) + v.toNat % 2 ^ 48

/-- The reported time: the fraction rounded to 16 bits half up, with its carry (R47). -/
def TimeBase.stamp (t : TimeBase) : BitVec 96 := stampOf16 ((t.units + 2 ^ 15) / 2 ^ 16)

/-- The time now, as reported. -/
def State.now (s : State) : BitVec 96 := s.time.stamp

/-- Whether a number of microseconds has passed since a count of the time base's ticks, 781.25 to the microsecond (R46). -/
def State.elapsed (s : State) (since us : Nat) : Bool := decide (us * 78125 ≤ (s.time.ticks - since) * 100)

/-- Whole nanoseconds since the epoch. -/
def State.ns (s : State) : Nat := s.time.units / 2 ^ 32

/-- The frame count F: GPS time in 10 ms units, rounded down; negative before the GPS epoch, from which a time base that
runs from zero starts (R56, R62). (DEDUCED, assumption 15) -/
def TimeBase.frame (t : TimeBase) : Int := ((t.units / 2 ^ 32 : Nat) : Int) / 10000000 - 31596481900

/-- Nanoseconds into the frame in progress. -/
def TimeBase.intoFrame (t : TimeBase) : Nat := t.units / 2 ^ 32 % 10 ^ 7

/-- The period count of a time at a period length of P frames: F divided by P, rounded down, modulo 2^32 (R64). -/
def TimeBase.periodCount (t : TimeBase) (p : Nat) : W32 := BitVec.ofInt 32 (t.frame / p)

/-- Nanoseconds into the period in progress at a period length of P frames (R64). -/
def TimeBase.intoPeriod (t : TimeBase) (p : Nat) : Nat := (t.frame % p).toNat * 10 ^ 7 + t.intoFrame

/-- The period length P in frames of the active version. -/
def State.periodFrames (s : State) : Nat := s.act 0x3000 0 0

/-- Ticks of the time-base island in a number of microseconds (781,250 to the millisecond, R55), rounded up. (DEDUCED, assumption 11) -/
def ticksOfUs (us : Nat) : Nat := ceilDiv (us * 78125) 100

/-! ### Unit identifiers (R22) -/

/-- The unit identifier of a kind and an index. -/
def unitId (kind index : Nat) : UnitId := BitVec.ofNat 16 (kind * 256 + index)
def engineUnit (e : EngineId) : UnitId := unitId 0 e.toNat
def channelUnit (c : Fin 48) : UnitId := unitId 3 c.val
def fabricPortUnit (n : Nat) : UnitId := unitId 4 n
def coreUnit (c : Fin 48) : UnitId := unitId 6 c.val
/-- The unit field of an event that concerns the module as a whole (R397). -/
def moduleUnit : UnitId := 0xFFFF
def hostUnit : UnitId := unitId 0x0E 0
def timeUnit : UnitId := unitId 0x10 0
def controlUnit : UnitId := unitId 0x0F 0
def UnitId.kind (u : UnitId) : Nat := u.toNat / 256
def UnitId.index (u : UnitId) : Nat := u.toNat % 256

/-- The die a unit lies on: 0 = L0, 1 = L1, 2 = Gallery (R21, R22). -/
def dieOfUnit (u : UnitId) : Nat :=
  let i := UnitId.index u
  match UnitId.kind u with
  | 0x00 => if i < 32 then 0 else 1
  | 0x01 => if i < 4 then 0 else 1
  | 0x02 => i
  | 0x03 => if i < 24 then 0 else 1
  | 0x04 => if i < 10 then 0 else 1
  | 0x05 => if i = 0 ∨ i = 3 then 0 else if i = 1 ∨ i = 5 then 1 else 2
  | _ => 2

/-- Whether transfers pass between two dies: the die-to-die link that joins them is trained (R21, R41). Links 0, 1 and 2 are L0↔L1,
Gallery↔L0 and Gallery↔L1. -/
def State.diesJoined (s : State) (a b : Nat) : Bool :=
  a == b ||
  !(Tab.get {} s.d2d (if a + b = 1 then 0 else if a + b = 2 then 1 else 2)).lost

/-- The group of an engine or router, if the unit is in one. -/
def groupOfUnit (u : UnitId) : Option Nat :=
  match UnitId.kind u with
  | 0x00 => some (UnitId.index u / 8 % 8)
  | 0x01 => some (UnitId.index u % 8)
  | _ => none

/-- The group of an engine (R5). -/
def groupOf (e : EngineId) : Nat := e.toNat / 8

/-- The unit of a port of R263: fronthaul links first, by block, then the twenty fabric ports. -/
def portUnit (p : Fin 84) : UnitId := if p.val < 64 then unitId 0x0C (p.val / 8) else unitId 4 (p.val - 64)

/-! ### Indexed parts of the state -/

def State.engine (s : State) (e : EngineId) : Engine := Tab.get {} s.engines e.toNat
def State.setEngine (s : State) (e : EngineId) (x : Engine) : State := { s with engines := Tab.set {} s.engines e.toNat x }
def State.updEngine (s : State) (e : EngineId) (f : Engine → Engine) : State := s.setEngine e (f (s.engine e))
def Engine.ctx (x : Engine) (c : ContextId) : EngineContext := Tab.get {} x.contexts c.toNat
def Engine.setCtx (x : Engine) (c : ContextId) (v : EngineContext) : Engine :=
  { x with contexts := Tab.set {} x.contexts c.toNat v }
def State.ectx (s : State) (e : EngineId) (c : ContextId) : EngineContext := (s.engine e).ctx c
def State.setEctx (s : State) (e : EngineId) (c : ContextId) (v : EngineContext) : State :=
  s.updEngine e (fun x => x.setCtx c v)
def Engine.array (x : Engine) (a : ArrayId) : MatrixArray := Tab.get {} x.arrays (b2n a)
def Engine.setArray (x : Engine) (a : ArrayId) (v : MatrixArray) : Engine :=
  { x with arrays := Tab.set {} x.arrays (b2n a) v }
def State.inst (s : State) (n : InstanceId) : Inst := Tab.get {} s.insts n.toNat
def State.setInst (s : State) (n : InstanceId) (v : Inst) : State := { s with insts := Tab.set {} s.insts n.toNat v }
def State.cell (s : State) (c : CellId) : Cell := Tab.get {} s.radio.cells c.toNat
def State.setCell (s : State) (c : CellId) (v : Cell) : State :=
  { s with radio := { s.radio with cells := Tab.set {} s.radio.cells c.toNat v } }
def State.core (s : State) (c : Fin 48) : SignalCore := Tab.get {} s.cores c.val
def State.setCore (s : State) (c : Fin 48) (v : SignalCore) : State := { s with cores := Tab.set {} s.cores c.val v }
def State.port (s : State) (p : Fin 84) : Port := Tab.get {} s.ports p.val
def State.setPort (s : State) (p : Fin 84) (v : Port) : State := { s with ports := Tab.set {} s.ports p.val v }
def State.channel (s : State) (c : Fin 48) : Channel := Tab.get {} s.mem.channels c.val
def State.setChannel (s : State) (c : Fin 48) (v : Channel) : State :=
  { s with mem := { s.mem with channels := Tab.set {} s.mem.channels c.val v } }
def State.peer (s : State) (p : BitVec 12) : Peer := Tab.get {} s.fabric.peers p.toNat
def State.setPeer (s : State) (p : BitVec 12) (v : Peer) : State :=
  { s with fabric := { s.fabric with peers := Tab.set {} s.fabric.peers p.toNat v } }

def State.island (s : State) (u : UnitId) : Island := Tab.get {} s.chr.islands u.toNat
def State.setIsland (s : State) (u : UnitId) (i : Island) : State :=
  { s with chr := { s.chr with islands := Tab.set {} s.chr.islands u.toNat i } }

/-! ### Counters (R445) -/

/-- Add to a fixed counter, wrapping at 64 bits. -/
def State.count (s : State) (key n : Nat) : State :=
  { s with ctrs := { s.ctrs with fixed := Tab.upd 0 s.ctrs.fixed key (fun v => v + BitVec.ofNat 64 n) } }

/-- The key of a fixed counter: object index, subindex, place within the object (R449, R450). -/
def ctrKey (index sub place : Nat) : Nat := (index * 256 + sub) * 65536 + place

/-- Advance counter number `place` of EngineCounters of an engine (R450). -/
def State.countEngine (s : State) (e : EngineId) (place n : Nat) : State := s.count (ctrKey 0xD001 e.toNat place) n

/-- Advance counter `place` of a port's PortCounters (R450). -/
def State.countPort (s : State) (p : Fin 84) (place : Nat) : State := s.count (ctrKey 0xD003 p.val place) 1

/-- Advance counter `place` of a port's PortStats (0x6060). -/
def State.portStat (s : State) (p : Fin 84) (place n : Nat) : State :=
  s.setPort p { s.port p with stats := Tab.upd 0 (s.port p).stats place (fun v => v + BitVec.ofNat 64 n) }

/-! ### Posted writes and MSI-X (R347, R351) -/

/-- A posted write that the host port discards: a radio, management or event record is counted as dropped (R472). What a
discarded write of a step or of a dictionary request does is its issuer's. -/
def State.discardPost (s : State) (w : PostedWrite) : State :=
  match w.purpose with
  | .radio => { s with radio := { s.radio with dropped := s.radio.dropped + 1 } }
  | .mgmt => { s with mgmt := { s.mgmt with dropped := s.mgmt.dropped + 1 } }
  | .event => { s with integ := { s.integ with dropped := s.integ.dropped + 1 } }
  | _ => s

/-- Hand a posted write to the host port; while the link is in reset, down or training it is discarded at once (R472). -/
def State.post (s : State) (w : PostedWrite) : State :=
  if s.host.phase = .up then { s with host := { s.host with writes := s.host.writes ++ [w] } } else s.discardPost w

/-- The generation of an instance, zero for the provider. -/
def State.generationOf (s : State) : Source → W16
  | .provider => 0
  | .inst n => (s.inst n).generation

/-- The key of an MSI-X vector: the physical function's 64, then entry 0 of each virtual function. -/
def vectorKey : Source → Nat → Nat
  | .provider, v => v % 64
  | .inst n, _ => 64 + n.toNat

/-- An MSI-X message: posted at once, or pending while the vector is masked (R351). The message's address and data are the
host's entry in the MSI-X table; the write names the vector instead. -/
def State.msix (s : State) (f : Source) (vector : Nat) : State :=
  let k := vectorKey f vector
  let v := Tab.get {} s.host.vectors k
  if v.unmasked then
    s.post { source := f, address := BitVec.ofNat 64 vector, bytes := [], generation := s.generationOf f, purpose := .msix }
  else { s with host := { s.host with vectors := Tab.set {} s.host.vectors k { v with pending := true } } }

/-! ### Events and health (R396 to R399, R414, R415) -/

/-- What a rule raises: code area and kind, unit, status, whether it is FATAL beyond its kind, the context and instance
concerned, and the quantities the rule names as (width, value), packed from bit 255 downward. -/
structure EventSpec where
  area : Nat
  kind : Nat
  unit : UnitId := moduleUnit
  status : BitVec 8 := 0
  fatal : Bool := false
  ctx : Option ContextId := none
  inst : Option InstanceId := none
  detail : List (Nat × Nat) := []
deriving DecidableEq, Repr

/-- Quantities packed from bit 255 downward. (DESIGN CHOICE, assumption 119) -/
def packDetail (qs : List (Nat × Nat)) : Nat :=
  (qs.foldl (fun (a : Nat × Nat) q => if q.1 ≤ a.1 then (a.1 - q.1, a.2 + (q.2 % 2 ^ q.1) * 2 ^ (a.1 - q.1)) else a) (256, 0)).2

/-- The kinds whose severity is INFO. -/
def infoKinds : List Nat := [0x18, 0x19, 0x20, 0x38, 0x39, 0x40, 0x41, 0x10]

/-- Severity of an event (R398): 0 INFO, 1 CORRECTED, 2 FAULT, 3 FATAL. -/
def severityOf (e : EventSpec) : BitVec 2 :=
  if e.fatal then 3
  else if e.kind = 0x01 ∨ e.kind = 0x02 ∨ e.kind = 0x04 then 1
  else if e.kind ∈ infoKinds then 0
  else if e.kind = 0x7E then (if e.status.toNat < 0x10 then 0 else 2)
  else 2

/-- The health record of the part a unit is attributed to (R414). -/
def partOf (u : UnitId) : Nat :=
  let i := UnitId.index u
  match UnitId.kind u with
  | 0x03 => 1 + i
  | 0x00 => 49 + i
  | 0x04 => 113 + i
  | 0x0C => 133 + i
  | 0x0D => 141 + i
  | 0x0E => 143
  | _ => 0

/-- The unit identifier of a health record (0xA000). -/
def unitOfPart (p : Nat) : UnitId :=
  if p = 0 then moduleUnit else if p < 49 then unitId 3 (p - 1) else if p < 113 then unitId 0 (p - 49)
  else if p < 133 then unitId 4 (p - 113) else if p < 141 then unitId 0x0C (p - 133)
  else if p < 143 then unitId 0x0D (p - 141) else hostUnit

/-- The threshold record of a part: module, memory devices, engines, ports (0xA004). -/
def thresholdOf (p : Nat) : Nat := if p = 0 then 0 else if p < 49 then 1 else if p < 113 then 2 else 3

/-- Temperature, voltage and GroupLoad at a unit when an event is raised (R397). Which die sensor is nearest a unit outside a
group, the rail of the module as a whole, and the load of a group are open values. (DESIGN CHOICE, assumption 120) -/
def State.sensed (s : State) (u : UnitId) : (BitVec 8 × W16 × BitVec 8) × State :=
  let d1 := s.draw
  let d2 := d1.2.draw
  let d3 := d2.2.draw
  let temp : BitVec 8 :=
    match groupOfUnit u with
    | some g => BitVec.ofInt 8 ((toSigned 16 (Tab.get {} s.power.sensors g).reading.toNat + 128) / 256)
    | none => BitVec.ofNat 8 d1.1
  let rail := match dieOfUnit u with | 0 => 5 | 1 => 6 | _ => 4
  let volt : W16 := if u = moduleUnit then BitVec.ofNat 16 d2.1 else (Tab.get (0, 0) s.power.rails rail).1.setWidth 16
  let load : BitVec 8 := match groupOfUnit u with | some _ => BitVec.ofNat 8 (d3.1 % 101) | none => 0xFF
  ((temp, volt, load), d3.2)

/-- The 64-byte record of an event as one number (R397). -/
def EventRecord.encode (r : EventRecord) : Nat :=
  r.time.toNat * 2 ^ 416 + r.code.toNat * 2 ^ 400 + r.unit.toNat * 2 ^ 384 + r.status.toNat * 2 ^ 376 +
  r.severity.toNat * 2 ^ 374 + b2n r.phase * 2 ^ 373 + b2n r.overflow * 2 ^ 372 +
  (match r.context with | some c => 2 ^ 371 + c.toNat * 2 ^ 361 | none => 0) +
  (match r.instanceId with | some n => 2 ^ 360 + n.toNat * 2 ^ 350 | none => 0) +
  r.repeats.toNat * 2 ^ 334 + r.temperature.toNat * 2 ^ 326 + r.voltage.toNat * 2 ^ 310 + r.load.toNat * 2 ^ 302 +
  r.detail.toNat

/-- Keep the last n of a list. -/
def lastN {α : Type} (n : Nat) (xs : List α) : List α := xs.drop (xs.length - n)

/-- Phase bit of the record at a count: 1 on the first pass through the ring, alternating at each wrap (R92). -/
def phaseAt (written size : Nat) : Bool := (written / size) % 2 == 0

/-- Write an event record to the ring and to RecentEvents; FAULT and FATAL records then wait for the fault log (R399). -/
def State.writeEvent (s : State) (r : EventRecord) : State :=
  let size := 2 ^ s.obj 0xA010 2 0
  let w := s.integ.ringWritten.toNat
  let room := decide ((s.integ.ringWritten - s.integ.ringConsumed).toNat < size)
  let taken : Bool := decide (s.obj 0xA010 4 0 = 1) && room
  let r1 := if taken then { r with phase := phaseAt w size, overflow := s.integ.overflow } else r
  let i1 := { s.integ with
    recent := lastN 256 (s.integ.recent ++ [r1]),
    unlogged := if 2 ≤ r.severity.toNat then s.integ.unlogged ++ [r1] else s.integ.unlogged }
  if s.obj 0xA010 4 0 = 1 then
    if room then
      let s1 := { s with integ := { i1 with ringWritten := i1.ringWritten + 1, overflow := false } }
      let s2 := s1.post { source := .provider, address := BitVec.ofNat 64 (s.obj 0xA010 1 0 + 64 * (w % size)),
                          bytes := leBytes 64 r1.encode, purpose := .event }
      let vec := s.obj 0xA010 5 0
      if vec = 0xFFFF then s2 else s2.msix .provider vec
    else { s with integ := { i1 with overflow := true, dropped := i1.dropped + 1 } }
  else { s with integ := i1 }

/-- Hold a new record, merge it into the held one of equal Code and UnitId, or write a FATAL one at once (R396). -/
def State.holdEvent (s : State) (e : EventSpec) : State :=
  let code : W16 := BitVec.ofNat 16 (e.area * 256 + e.kind)
  let same := fun (r : EventRecord) => r.code == code && r.unit == e.unit
  if severityOf e ≠ 3 ∧ s.integ.holding.any same then
    { s with integ := { s.integ with raised := s.integ.raised + 1, holding := s.integ.holding.map (fun r =>
        if same r then { r with repeats := if r.repeats = 0xFFFF then 0xFFFF else r.repeats + 1 } else r) } }
  else
    let q := s.sensed e.unit
    let r : EventRecord :=
      { time := s.now, code, unit := e.unit, status := e.status, severity := severityOf e, context := e.ctx,
        instanceId := e.inst, repeats := 0, temperature := q.1.1, voltage := q.1.2.1, load := q.1.2.2,
        detail := BitVec.ofNat 256 (packDetail e.detail), raisedAt := s.time.ticks }
    let s1 := { q.2 with integ := { q.2.integ with raised := q.2.integ.raised + 1 } }
    if severityOf e = 3 then s1.writeEvent r else { s1 with integ := { s1.integ with holding := s1.integ.holding ++ [r] } }

/-- Add points to a score, saturating (R415). -/
def satAdd32 (a b : Nat) : W32 := BitVec.ofNat 32 (min (a + b) 0xFFFFFFFF)

/-- Whether a part is flagged by its own score: set at the threshold, cleared below half of it (R415). -/
def flagOf (old : Bool) (score threshold : Nat) : Bool :=
  if threshold * 65536 ≤ score then true else if 2 * score < threshold * 65536 then false else old

/-- Score one event at a part: add its weight, count it, note the time; the new flag (R415). -/
def State.scoreEvent (s : State) (part kind : Nat) : State :=
  let h := Tab.get {} s.integ.health part
  let h1 := { h with score := satAdd32 h.score.toNat (s.obj 0xA001 0 kind * 256), events := h.events + 1,
                     last := BitVec.ofNat 32 s.time.seconds.toNat }
  { s with integ := { s.integ with health := Tab.set {} s.integ.health part h1 } }

/-- The parts, other than the module, that are flagged. -/
def State.anyPartFlagged (s : State) : Bool := s.integ.health.any (fun p => p.1 != 0 && p.2.flagged)

/-- Bring a part's flag up to date with its score (and, for the module, with the other parts' flags); the new state and
whether the flag changed (R415). -/
def State.reflag (s : State) (part : Nat) : State × Bool :=
  let h := Tab.get {} s.integ.health part
  let own := flagOf h.own h.score.toNat (s.obj 0xA004 0 (thresholdOf part))
  let f := if part = 0 then own || s.anyPartFlagged else own
  if f = h.flagged ∧ own = h.own then (s, false)
  else ({ s with integ := { s.integ with health := Tab.set {} s.integ.health part { h with flagged := f, own } } }, decide (f ≠ h.flagged))

/-- A HEALTH event: it is held and scored like any other (R415). -/
def State.healthEvent (s : State) (part : Nat) : State :=
  let u := unitOfPart part
  (s.holdEvent { area := 0xA0, kind := 0x39, unit := u }).scoreEvent part 0x39

/-- Bring the flag of a part, then the module's, up to date, each change raising a HEALTH event (R415). -/
def State.reflagAll (s : State) (part : Nat) : State :=
  let a := s.reflag part
  let s1 := if a.2 then a.1.healthEvent part else a.1
  let b := s1.reflag 0
  if b.2 then b.1.healthEvent 0 else b.1

/-- Raise an event (R396, R415): hold or merge or write its record, score it, and bring the flags up to date. -/
def State.raise (s : State) (e : EventSpec) : State :=
  ((s.holdEvent e).scoreEvent (partOf e.unit) e.kind).reflagAll (partOf e.unit)

/-- Raise an event when a condition holds. -/
def State.raiseIf (s : State) (c : Bool) (e : EventSpec) : State := if c then s.raise e else s

/-- Two wrapping counters whose difference is not representable: the wrap fault is flagged by an event of the rule's area and nothing is
read from the difference (R11). (DEDUCED, assumption 151) -/
def State.noteWrap (s : State) (area : Nat) (unit : UnitId) (diff : Option Int) : State :=
  s.raiseIf diff.isNone { area, kind := 0x10, unit }

/-- Raise the conditions a completion does not carry (R14). -/
def State.raiseConditions (s : State) (sts : List (BitVec 8)) (ctx : Option ContextId) (inst : Option InstanceId) : State :=
  (notCarried sts).foldl (fun s st => s.raise { area := 0x30, kind := 0x7E, status := st, ctx, inst }) s

/-- Raise every condition of work that writes no completion record (R14). -/
def State.raiseStatuses (s : State) (sts : List (BitVec 8)) (ctx : Option ContextId) : State :=
  (sts.eraseDups.filter (fun st => st ≠ stDone)).foldl (fun s st => s.raise { area := 0x30, kind := 0x7E, status := st, ctx }) s

end Sys2Proof.Machine
end

