-- ==== Sys2Proof/Machine/Operands.lean ====
section
/-!
DEFINITION. The fields of the records software writes and the device reads: windows, contexts, partitions, and the descriptors
and words of the engines. Each accessor takes the record as one little-endian number (R7).
-/

namespace Sys2Proof.Machine

/-! ### Window entries (R69) -/

/-- The value half of window record i of a version. -/
def windowOf (t : Tab Nat) (i : Nat) : Nat := getRec t 0x3002 0 i % 2 ^ 256
def winEngines (w : Nat) : Nat := bits w 255 192
def winCores (w : Nat) : Nat := bits w 191 144
def winClass (w : Nat) : Nat := bits w 91 90
def winPoll (w : Nat) : Bool := bit w 89
def winOwner (w : Nat) : Nat := bits w 87 76
def winStart (w : Nat) : Nat := bits w 75 46
def winLength (w : Nat) : Nat := bits w 45 16
def winEclipseNs (w : Nat) : Nat := bits w 15 8 * 40
def winMaxPassNs (w : Nat) : Nat := bits w 7 0 * 20
def ownerService : Nat := 0xFFE
def ownerOpen : Nat := 0xFFF

/-- The number of windows a version declares. -/
def windowCount (t : Tab Nat) : Nat := getRec t 0x3001 0 0

/-- Whether a window entry names a unit (R69). -/
def winNames (w : Nat) (u : UnitId) : Bool :=
  let i := UnitId.index u
  match UnitId.kind u with
  | 0x00 => bit w (192 + i)
  | 0x06 => bit w (144 + i)
  | 0x07 => bit w (120 + i)
  | 0x08 => bit w (112 + i)
  | 0x09 => bit w (108 + i)
  | 0x0A => bit w (100 + i)
  | 0x0B => bit w (92 + i)
  | _ => false

/-- The value halves of a version's windows that are not skipped, with their index. -/
def liveWindows (t : Tab Nat) : List (Nat × Nat) :=
  ((List.range (windowCount t)).map (fun i => (i, windowOf t i))).filter (fun p => winLength p.2 ≠ 0)

/-- Whether a version holds a RAN window. -/
def hasRanWindow (t : Tab Nat) : Bool := (liveWindows t).any (fun p => winClass p.2 == 0)

/-! ### Contexts and partitions (R73, R74) -/

def ctxId (r : Nat) : Nat := bits r 63 54
def ctxClassOf (r : Nat) : Nat := bits r 53 52
def ctxProvider (r : Nat) : Bool := bit r 51
def ctxInstanceOf (r : Nat) : InstanceId := BitVec.ofNat 10 (bits r 50 41)
def ctxPaired (r : Nat) : Bool := bit r 40

/-- The context records of a version: those that are not all zero. -/
def contextRecs (t : Tab Nat) : List Nat :=
  ((listedRecs t 0x3030 0).map (fun r => getRec t 0x3030 0 r)).filter (fun v => v ≠ 0)

/-- The record of a context in a version. -/
def contextOf (t : Tab Nat) (c : Nat) : Option Nat := (contextRecs t).find? (fun r => ctxId r == c)

def parContext (r : Nat) : Nat := bits r 63 54
def parEngine (r : Nat) : Nat := bits r 53 48
def parFirst (r : Nat) : Nat := bits r 47 44
def parCount (r : Nat) : Nat := bits r 43 39
def parCredits (r : Nat) : Nat := bits r 38 28

/-- The value halves of a version's partition records. -/
def partitionRecs (t : Tab Nat) : List Nat :=
  ((listedRecs t 0x3031 0).map (fun r => getRec t 0x3031 0 r)).filter (fun v => v ≠ 0) |>.map (fun v => v % 2 ^ 64)

/-- The partition a version declares for a context on an engine. -/
def partitionOf (t : Tab Nat) (c e : Nat) : Option Nat :=
  (partitionRecs t).find? (fun r => parContext r == c && parEngine r == e)

/-- The active version's record of a context. -/
def State.ctxRec (s : State) (c : ContextId) : Option Nat := contextOf s.vers.active c.toNat

/-- Class of a context: 0 RAN, 1 INFERENCE, 2 ADMIN; 3 where the active version has none. -/
def State.ctxClass (s : State) (c : ContextId) : Nat := match s.ctxRec c with | some r => ctxClassOf r | none => 3

/-- The function a context belongs to: its instance, or the provider. -/
def State.ctxSource (s : State) (c : ContextId) : Source :=
  match s.ctxRec c with
  | some r => if ctxProvider r then .provider else .inst (ctxInstanceOf r)
  | none => .provider

/-- The instance of a context that is not the provider's. -/
def State.ctxInst (s : State) (c : ContextId) : Option InstanceId :=
  match s.ctxSource c with | .inst n => some n | .provider => none

/-- The active version's partition of a context on an engine. -/
def State.partition (s : State) (e : EngineId) (c : ContextId) : Option Nat := partitionOf s.vers.active c.toNat e.toNat

/-! ### Memory regions (R305) -/

def regBase (r : Nat) : Nat := bits r 127 96 * 2 ^ 26
def regUnits (r : Nat) : Nat := bits r 95 64
def regBytes (r : Nat) : Nat := bits r 95 64 * 2 ^ 26
def regOwnerKind (r : Nat) : Nat := bits r 63 62
def regInstance (r : Nat) : Nat := bits r 61 52
def regShared (r : Nat) : Bool := bit r 51
def regReadOnly (r : Nat) : Bool := bit r 50

/-- The value half of a region record of a version. -/
def regionOf (t : Tab Nat) (i : Nat) : Nat := getRec t 0x7010 0 i % 2 ^ 128

/-- The regions a version declares, with their index. -/
def regionsOf (t : Tab Nat) : List (Nat × Nat) := (List.range (getRec t 0x7011 0 0)).map (fun i => (i, regionOf t i))

/-- The region record the active version serves: its value where the pair is good, the previous version's under the fallback rule,
and none where neither serves, so that the region grants no access (R403). -/
def State.regionServed (s : State) (i : Nat) : Option Nat :=
  let r := getRec s.vers.active 0x7010 0 i
  if pairGood 128 (r % 2 ^ 128) (r >>> 128) then some (r % 2 ^ 128)
  else if s.vers.previousValid = false then none
  else
    let q := getRec s.vers.previous 0x7010 0 i
    pairFallback 128 (r % 2 ^ 128) (r >>> 128) (q % 2 ^ 128) (q >>> 128)

/-- The regions of the active version that are served, with their index. -/
def State.regionsServed (s : State) : List (Nat × Nat) :=
  (List.range (getRec s.vers.active 0x7011 0 0)).filterMap (fun i => (s.regionServed i).map (fun r => (i, r)))

/-- Whether a span lies within a region. -/
def regHolds (r address length : Nat) : Bool := decide (regBase r ≤ address ∧ address + length ≤ regBase r + regBytes r)

end Sys2Proof.Machine
end

