-- ==== Sys2Proof/Machine/Counting.lean ====
section
/-!
DEFINITION. Programmable counters (R451, R452, R454): what an event carries, which controls count it, and the sample it leaves; and the slots of
the arrays (R446 to R449).
-/

namespace Sys2Proof.Machine

/-! ### Control records (R451) -/

/-- What a control record reads before anything writes it: ClassMask 0xF and SampleShift 31. -/
def controlDefault : Nat := 0xF <<< 229 ||| 31 <<< 223

/-- The control in force of a programmable counter. The table keeps the exclusive-or with the default. -/
def CounterBlock.controlOf (c : CounterBlock) (i : Nat) : Nat := Nat.xor (Tab.get 0 c.control i).toNat controlDefault

def pcEvent (r : Nat) : Nat := bits r 255 248
def pcEnable (r : Nat) : Bool := bit r 247
def pcPrivilege (r : Nat) : Nat := bits r 246 245
def pcRequesterKind (r : Nat) : Nat := bits r 244 243
def pcRequester (r : Nat) : Nat := bits r 242 233
def pcClassMask (r : Nat) : Nat := bits r 232 229
def pcAddressFilter (r : Nat) : Bool := bit r 228
def pcSampleShift (r : Nat) : Nat := bits r 227 223
def pcBase (r : Nat) : Nat := bits r 191 144
def pcLimit (r : Nat) : Nat := bits r 143 96

/-! ### Events (R452) -/

/-- An event: its code, increment, class (0 RAN, 1 INFERENCE, 2 ADMIN, 3 MIRROR), owner, requesting unit, and module address; a `bare` one has
neither owner nor class. -/
structure CountEvent where
  code : Nat
  amount : Nat
  cls : Nat
  owner : Option Source := none
  unit : UnitId := 0
  address : Option Nat := none
  bare : Bool := false

/-- The bit of ClassMask of a class. -/
def classBit (cls : Nat) : Nat := match cls with | 0 => 3 | 1 => 0 | 2 => 2 | _ => 1

/-- Whether every filter that a control sets holds of an event. -/
def CountEvent.matches (v : CountEvent) (r : Nat) : Bool :=
  pcEnable r && pcEvent r == v.code && bit (pcClassMask r) (classBit v.cls) &&
  (!v.bare || (pcRequesterKind r == 0 && pcClassMask r == 0xF)) &&
  (match pcPrivilege r with
   | 0 => true
   | 1 => v.owner == some Source.provider
   | _ => match v.owner with | some (.inst _) => true | _ => false) &&
  (match pcRequesterKind r with
   | 0 => true
   | 1 => UnitId.kind v.unit == 0 && UnitId.index v.unit == pcRequester r
   | 3 => match v.owner with | some (.inst n) => n.toNat == pcRequester r | _ => false
   | _ => false) &&
  (!pcAddressFilter r || (match v.address with | some a => decide (pcBase r ≤ a ∧ a ≤ pcLimit r) | none => false))

/-- A counter's value after an event that it counts; the event that carries Count to or past a multiple of 2^SampleShift is
sampled (R451, R454). -/
def ProgValue.add (p : ProgValue) (v : CountEvent) (shift : Nat) (now : BitVec 96) : ProgValue :=
  let n := p.count.toNat + v.amount
  let q := { p with count := BitVec.ofNat 48 n, overflow := p.overflow || decide (2 ^ 48 ≤ n) }
  if shift < 31 ∧ p.count.toNat / 2 ^ shift < n / 2 ^ shift then
    { q with sampleValid := true, sampleClass := BitVec.ofNat 2 v.cls,
             sampleOwner := match v.owner with | some (.inst k) => k.setWidth 11 | _ => 0x7FF,
             sampleUnit := v.unit, sampleAddress := BitVec.ofNat 48 (v.address.getD 0), sampleTime := now }
  else q

/-- Give an event to the programmable counters of its host. -/
def State.progEvent (s : State) (host : List Nat) (v : CountEvent) : State :=
  let prog := host.foldl (fun t i =>
    let r := s.ctrs.controlOf i
    if v.matches r then Tab.upd {} t i (fun p => p.add v (pcSampleShift r) s.now) else t) s.ctrs.prog
  { s with ctrs := { s.ctrs with prog } }

/-- The counters of an engine, of a port, and of a group's router. -/
def engineCounters (e : EngineId) : List Nat := (List.range 4).map (fun c => 4 * e.toNat + c)
def portCounters (p : Fin 84) : List Nat := (List.range 2).map (fun c => 288 + 2 * p.val + c)
def routerCounters (g : Nat) : List Nat := (List.range 4).map (fun c => 256 + 4 * g + c)

/-- An event of an engine's work for a context. -/
def State.progEngine (s : State) (e : EngineId) (c : ContextId) (code amount : Nat) (address : Option Nat) : State :=
  s.progEvent (engineCounters e)
    { code, amount, cls := s.ctxClass c, owner := some (s.ctxSource c), unit := engineUnit e, address }

/-- Lines pass through the router of an engine's group (R450, R452). -/
def State.countRouted (s : State) (e : EngineId) (c : ContextId) (lines : List (BitVec 2 × W64)) : State :=
  lines.foldl (fun (s : State) (q : BitVec 2 × W64) => s.progEvent (routerCounters (groupOf e))
      { code := 0x20, amount := 1, cls := s.ctxClass c, owner := some (s.ctxSource c), unit := engineUnit e,
        address := if q.1 = 1 then some q.2.toNat else none })
    (s.count (ctrKey 0xD002 (groupOf e) (2 * s.ctxClass c)) lines.length)

/-- Lines an engine fetches, discards or writes for a context, each given by its memory kind and address: the fixed counter at
`place` and the programmable event advance once a line; those that move pass through the router. -/
def State.countLines (s : State) (e : EngineId) (c : ContextId) (place code : Nat) (lines : List (BitVec 2 × W64)) : State :=
  let s1 := lines.foldl (fun s q => s.progEngine e c code 1 (if q.1 = 1 then some q.2.toNat else none)) (s.countEngine e place lines.length)
  if place = 3 then s1 else s1.countRouted e c lines

/-- A port's frame event: code, increment, class. -/
def State.progPort (s : State) (p : Fin 84) (code amount cls : Nat) : State :=
  s.progEvent (portCounters p) { code, amount, cls, unit := portUnit p }

/-! ### Array counters (R446 to R449) -/

/-- Places of the fields of an ArrayCounters record, in the order of its map. -/
def acRetired : Nat := 1
def acAbandoned : Nat := 2
def acSounding : Nat := 3
def acPaired : Nat := 4
def acService : Nat := 5
def acDiscarded : Nat := 6
def acNoWindow : Nat := 7
def acNoStep : Nat := 8
def acNoToken : Nat := 9
def acNoFit : Nat := 10
def acThrottle : Nat := 11
def acDependency : Nat := 12
def acPipeline : Nat := 13
def acDemand : Nat := 14
def acDrain : Nat := 15
def acMacs : Nat := 17
def acCommitted : Nat := 18
def acPassesAbandoned : Nat := 19
def acSaturations : Nat := 20
def acSkipped : Nat := 21

/-- Advance a field of an array's ArrayCounters record. -/
def State.countArrayCtr (s : State) (e : EngineId) (a : ArrayId) (place n : Nat) : State :=
  s.count (ctrKey 0xD000 e.toNat (24 * b2n a + place)) n

/-- Stream cycles of a pass are attributed to a class of slots, or a count of its passes advances (R446, R448, R452). -/
def State.countSlots (s : State) (e : EngineId) (a : ArrayId) (place n : Nat) (c : ContextId) : State :=
  (s.countArrayCtr e a place n).progEngine e c (if place = acRetired then 0x01 else 0x02) n none

/-- Slots are given to a reason, on behalf of the context that has it, if any: the front reasons are counted by one event and the back ones
by another (R447, R452). -/
def State.countStarved (s : State) (e : EngineId) (a : ArrayId) (k place : Nat) (owner : Option ContextId) : State :=
  let code := if place ≤ acThrottle then 0x03 else 0x04
  let s1 := (s.countArrayCtr e a place k).countArrayCtr e a 0 k
  match owner with
  | some c => s1.progEngine e c code k none
  | none => s1.progEvent (engineCounters e) { code, amount := k, cls := 0, unit := engineUnit e, bare := true }

/-- Slots of an array that no pass has, up to a cycle, are counted under a reason; an array out of service accumulates none (R447, R449). -/
def State.countIdle (s : State) (e : EngineId) (a : ArrayId) (n place : Nat) (owner : Option ContextId) : State :=
  let m := (s.engine e).array a
  let k := if m.health = .inService then n - m.slots else 0
  let s1 := s.updEngine e (fun x => x.setArray a { x.array a with slots := Nat.max n m.slots, idle := place, idleOwner := owner })
  s1.countStarved e a k place owner

/-- A pass starts on an array: the slots since the last are counted under the reason they had, and its issue interval outside its stream
cycles is the pipeline's (R446, R447). -/
def State.countPass (s : State) (e : EngineId) (n : Nat) (a : ArrayId) (q : Pass) : State :=
  if q.kind = .vectorTile then s
  else
    let m := (s.engine e).array a
    let s1 := (s.countIdle e a n m.idle m.idleOwner).updEngine e (fun x => x.setArray a { x.array a with
      slots := n + q.interval, idle := acNoStep, idleOwner := none })
    (s1.countStarved e a (q.interval - q.stream) acPipeline (some q.context)).countArrayCtr e a 0 q.stream

end Sys2Proof.Machine
end

