-- ==== Sys2Proof/Machine/Shared.lean ====
section
/-!
DEFINITION. What several families do alike: ending batches, stopping engines and groups (R44, R45), killing a partition
(R150), and the self-fence (R423).
-/

namespace Sys2Proof.Machine

/-! ### Stopped units (R44, R45, R423) -/

/-- Whether an engine is stopped with INTERNAL_FAULT: itself, its group, or the whole module. -/
def State.engineStopped (s : State) (e : EngineId) : Bool :=
  s.integ.fenced || (s.engine e).stopped || s.chr.groupStopped.getLsbD (groupOf e)

/-- Whether the module takes and gives no work: it is not running, self-fenced, or expelled (R68, R422, R423). -/
def State.noWork (s : State) : Bool := s.integ.fenced || s.integ.expelled

/-! ### Batches (R91, R143) -/

/-- Change the batch of an identity. -/
def State.updBatch (s : State) (id : Nat) (f : Batch → Batch) : State :=
  { s with batches := s.batches.map (fun b => if b.id = id then f b else b) }

/-- Remove the steps of a batch that have not issued from every engine's queues. -/
def State.dropQueued (s : State) (id : Nat) : State :=
  { s with engines := Tab.mapAll {} (fun _ x => { x with contexts := Tab.mapAll {} (fun _ c =>
      { c with queue := c.queue.filter (fun st => st.batch ≠ id) }) x.contexts }) s.engines }

/-- A batch with a refusal: a batch of which no step has committed is stamped with the time of its first (R92). -/
def Batch.refuse (b : Batch) (st : BitVec 8) (now : BitVec 96) : Batch :=
  { b with ended := true, statuses := b.statuses ++ [st], lastCommit := if b.ended ∨ b.committed ≠ 0 then b.lastCommit else now }

/-- A failure ends a batch: no later step of it issues, and its completion carries the status (R143). -/
def State.endBatch (s : State) (id : Nat) (st : BitVec 8) : State :=
  (s.updBatch id (fun b => b.refuse st s.now)).dropQueued id

/-- Add a status to a batch without ending it. -/
def State.noteBatch (s : State) (id : Nat) (st : BitVec 8) : State :=
  s.updBatch id (fun b => { b with statuses := b.statuses ++ [st] })

/-- The batches with a step queued or issued in an engine's context. -/
def EngineContext.batchIds (c : EngineContext) : List Nat :=
  (c.queue.map (·.batch) ++ c.runs.map (·.step.batch)).eraseDups

/-- The batches with a step queued or issued on an engine. -/
def Engine.batchIds (x : Engine) : List Nat := (x.contexts.flatMap (fun p => p.2.batchIds)).eraseDups

/-- Whether a batch has no step queued or issued anywhere. -/
def State.batchIdle (s : State) (id : Nat) : Bool :=
  s.engines.all (fun p => !(p.2.batchIds.contains id))

/-- Whether a batch has run to its end: every step routed, or ended by a failure, and nothing of it left on any engine. -/
def State.batchDone (s : State) (b : Batch) : Bool := (b.ended || decide (b.stepCount ≤ b.routed)) && s.batchIdle b.id

/-- The oldest batch of a context (R91). -/
def State.oldestBatch (s : State) (c : ContextId) : Option Batch := s.batches.find? (fun b => b.context == c && !b.foreign)

/-- The statuses that a step's work has met so far stay with its batch when the work is dropped; work that runs again for a batch that
has completed has them raised (R14). -/
def State.keepStatuses (s : State) (c : ContextId) (r : Run) : State :=
  if s.batches.any (fun b => b.id == r.step.batch) then r.statuses.foldl (fun s st => s.noteBatch r.step.batch st) s
  else s.raiseStatuses r.statuses (some c)

/-- The statuses of every issued step of a context on an engine. -/
def State.keepContext (s : State) (e : EngineId) (c : ContextId) : State := (s.ectx e c).runs.foldl (fun s r => s.keepStatuses c r) s

/-- The statuses of every issued step of an engine. -/
def State.keepEngine (s : State) (e : EngineId) : State :=
  (s.engine e).contexts.foldl (fun s q => s.keepContext e (BitVec.ofNat 10 q.1)) s

/-! ### Stopping an engine or a group (R44, R45) -/

/-- End every batch of a list with a status. -/
def State.endBatches (s : State) (ids : List Nat) (st : BitVec 8) : State := ids.foldl (fun s id => s.endBatch id st) s

/-- An array with its work in progress dropped. -/
def MatrixArray.clear (a : MatrixArray) : MatrixArray :=
  { a with flight := [], reruns := [], shadows := [], drains := [], demand := [], pairHold := none }

/-- The vector unit with nothing of a chain left in it (R154). -/
def VectorUnit.clear (u : VectorUnit) : VectorUnit :=
  { u with v := [], p := [], s := [], runMax := [], runSum := [], tilePass := none, tile := [], stagesDone := 0, tileCol := 0, codes := [],
           scales := [], widths := [] }

/-- An engine stops with INTERNAL_FAULT: its work ends, and the batches that had steps on it end with that status. -/
def State.stopEngine (s : State) (e : EngineId) : State :=
  let x := s.engine e
  let s1 := (s.keepEngine e).endBatches x.batchIds stInternal
  s1.updEngine e (fun x => { x with stopped := true, contexts := Tab.mapAll {} (fun _ c => { c with queue := [], runs := [] }) x.contexts,
                                    arrays := Tab.mapAll {} (fun _ a => a.clear) x.arrays, vuPass := none,
                                    vu := x.vu.clear })

/-- A group stops with INTERNAL_FAULT: its eight engines stop (R44). -/
def State.stopGroup (s : State) (g : Nat) : State :=
  let s1 := (List.range 8).foldl (fun s i => s.stopEngine (BitVec.ofNat 6 (g * 8 + i))) s
  { s1 with chr := { s1.chr with groupStopped := s1.chr.groupStopped ||| BitVec.ofNat 8 (2 ^ g) } }

/-! ### Self-fence (R423) -/

/-- The self-fence: every engine, Gallery unit and port stops, fetched batches and the radio slots in progress complete with
INTERNAL_FAULT, nothing further is fetched, and a FENCE event of severity FATAL is raised. It happens once. -/
def State.selfFence (s : State) : State :=
  if s.integ.fenced then s
  else
    let s1 := s.raise { area := 0xA0, kind := 0x41, fatal := true }
    let s1 := s1.engines.foldl (fun s q => s.keepEngine (BitVec.ofNat 6 q.1)) s1
    let s2 := s1.endBatches (s1.batches.map (·.id)) stInternal
    { s2 with
      integ := { s2.integ with fenced := true },
      engines := Tab.mapAll {} (fun _ x => { x with
        contexts := Tab.mapAll {} (fun _ c => { c with queue := [], runs := [] }) x.contexts,
        arrays := Tab.mapAll {} (fun _ a => a.clear) x.arrays, vuPass := none,
        vu := x.vu.clear }) s2.engines,
      cores := Tab.mapAll {} (fun _ c => { c with job := none, loaded := none, done := [] }) s2.cores,
      ports := Tab.mapAll {} (fun _ p => { p with wire := none }) s2.ports,
      radio := { s2.radio with
        units := Tab.mapAll {} (fun _ u => { u with ops := [] }) s2.radio.units,
        cells := Tab.mapAll {} (fun _ c => { c with fetching := [], plans := c.plans.map (fun p =>
          { p with statuses := p.statuses ++ [stInternal] }) }) s2.radio.cells } }

/-! ### Partitions on an engine (R129 to R132, R150) -/

/-- The bounds an engine holds for a context, as a partition value; none where it holds no partition. -/
def Engine.boundsOf (x : Engine) (c : ContextId) : Option Nat :=
  if (Tab.get {} x.bounds c.toNat).value = 0 ∧ (Tab.get {} x.bounds c.toNat).comp = 0xFFFFFFFFFFFFFFFF#64 then none
  else some (Tab.get {} x.bounds c.toNat).value.toNat

/-- The granules of a partition. -/
def granulesOf (r : Nat) : List Nat := (List.range (parCount r)).map (fun i => parFirst r + i)

/-- Whether a context is resident on an engine: it holds a partition none of whose granules is SCRUBBING (R143, R150). -/
def State.resident (s : State) (e : EngineId) (c : ContextId) : Bool :=
  match (s.engine e).boundsOf c with
  | none => false
  | some r => (granulesOf r).all (fun g => (Tab.get {} (s.engine e).granules g).state == .active)

/-- Whether a partition is being scrubbed or waits for it. -/
def Engine.scrubbing (x : Engine) (c : ContextId) : Bool := x.scrubs.any (fun k => k.context == c)

/-- Whether a context still has passes or chain work in flight on an engine (R150 step 3). -/
def Engine.contextInFlight (x : Engine) (c : ContextId) : Bool :=
  x.arrays.any (fun a => a.2.flight.any (·.context == c) || a.2.drains.any (·.pass.context == c)) ||
  (match x.vuPass with | some q => q.context == c | none => false) ||
  (match x.vu.tilePass with | some q => q.context == c | none => false)

/-- The partitions whose step 3 has ended come first, in the order in which it did (R152). -/
def Engine.noteScrubs (x : Engine) : Engine :=
  let now := x.scrubs.map (fun k => if k.ready ∨ x.contextInFlight k.context then (k, false) else ({ k with ready := true }, true))
  { x with scrubs := (now.filter (fun q => q.1.ready && !q.2)).map (·.1) ++ (now.filter (·.2)).map (·.1) ++
                     (now.filter (fun q => !q.1.ready)).map (·.1) }

/-- The passes of an engine that are late: in flight, waiting to re-run, or the VECTOR tile in progress (R82). -/
def Engine.anyLate (x : Engine) : Bool :=
  x.arrays.any (fun m => (m.2.flight ++ m.2.reruns).any (·.late)) || (match x.vuPass with | some v => v.late | none => false)

/-- Whether an engine's next start waits for late work of the window before (R82). -/
def State.lateWaits (s : State) (e : EngineId) : Bool := (s.island (engineUnit e)).waitsForLate && (s.engine e).anyLate

/-- Kill a context's partition on one engine (R150, steps 1 to 4): its queued steps end with the given status, its granules
enter SCRUBBING, its passes in flight run to commit with their outputs discarded, and its entries, tokens, tracker lines,
semaphores and log are reset. The scrub that follows is owed to an instance's reset when one is named. (DESIGN CHOICE, assumption 157) -/
def State.killPartition (s : State) (e : EngineId) (c : ContextId) (st : BitVec 8) (owner : Option InstanceId) : State :=
  match (s.engine e).boundsOf c with
  | none => s
  | some r =>
    let s1 := (s.keepContext e c).endBatches (s.ectx e c).batchIds st
    s1.updEngine e (fun x => Engine.noteScrubs { x with
      granules := (granulesOf r).foldl (fun t g => Tab.set {} t g { state := .scrubbing, context := 0 }) x.granules,
      arrays := Tab.mapAll {} (fun _ a => { a with
        flight := a.flight.map (fun p => if p.context = c then { p with discard := true } else p),
        reruns := a.reruns.filter (fun p => p.context ≠ c),
        shadows := a.shadows.filter (fun p => p.context ≠ c),
        drains := a.drains.map (fun d => if d.pass.context = c then { d with pass := { d.pass with discard := true } } else d) }) x.arrays,
      soundings := x.soundings.filter (fun d => d.pass.context ≠ c),
      vuPass := x.vuPass.map (fun p => if p.context = c then { p with discard := true } else p),
      moorings := x.moorings.filter (fun p => !(decide (16 * parFirst r ≤ p.1 ∧ p.1 < 16 * (parFirst r + parCount r)))),
      contexts := Tab.erase x.contexts c.toNat,
      scrubs := x.scrubs ++ [{ context := c, first := parFirst r, count := parCount r, instanceId := owner }],
      vu := { x.vu with held := x.vu.held.filter (fun p => p.1 ≠ c),
                        tilePass := x.vu.tilePass.map (fun p => if p.context = c then { p with discard := true } else p) } })

/-- The engines on which a context holds a partition. -/
def State.enginesOf (s : State) (c : ContextId) : List EngineId :=
  ((List.range 64).map (BitVec.ofNat 6)).filter (fun e => ((s.engine e).boundsOf c).isSome)

end Sys2Proof.Machine
end

