-- ==== Sys2Proof/Machine/Characteristic.lean ====
section
/-!
DEFINITION. The Characteristic: lists of the islands, edges, admission, overruns and group gating (R26 to R31, R64, R65,
R69 to R82).
-/

namespace Sys2Proof.Machine

/-! ### Islands and their lists (R23, R77) -/

/-- An island's frequency in kHz under a version, by the kind of its unit; engines run at their group's (R23, R26). -/
def islandKHz (t : Tab Nat) (u : UnitId) : Nat :=
  match UnitId.kind u with
  | 0x00 => match getRec t 0x4030 0 (UnitId.index u / 8) with | 0 => 1050000 | 1 => 900000 | _ => 700000
  | 0x01 => 1400000
  | 0x02 => if UnitId.index u = 2 then 1200000 else 1400000
  | 0x03 => 1750000
  | 0x04 => 1250000
  | 0x05 => 2000000
  | 0x06 => 1600000
  | 0x07 | 0x08 | 0x09 | 0x0A | 0x0B => 1200000
  | 0x0C => 781250
  | 0x0D | 0x0E => 1000000
  | 0x0F => 2000000
  | 0x10 => 781250
  | _ => 0

/-- Cycles of an island in a number of nanoseconds, rounded down. -/
def cyclesIn (khz ns : Nat) : Nat := ns * khz / 10 ^ 6

/-- The units a window can name (R69). -/
def namedUnits : List UnitId :=
  [(0x00, 64), (0x06, 48), (0x07, 24), (0x08, 8), (0x09, 4), (0x0A, 8), (0x0B, 8)].flatMap
    (fun p => (List.range p.2).map (unitId p.1))

/-- The instant N of R77: the start of the next window on the island in the period, or the period's end less PhaseStepLimit. -/
def nextStart (endOfPeriod : Nat) : List (Nat × Nat) → Nat
  | [] => endOfPeriod
  | p :: _ => winStart p.2

/-- The horizon H in island cycles, as a 64-bit two's complement number (R77). -/
def horizon (khz start next : Nat) : Nat :=
  ofSigned 64 ((cyclesIn khz (next - start) : Int) - 4 - (ceilDiv (304 * khz) (10 ^ 6) : Nat))

/-- One list entry of an island (R77): window entry, horizon and MaxPass limit, with its complement. -/
def mkListEntry (khz next : Nat) (p : Nat × Nat) : ListEntry :=
  let v : BitVec 384 := BitVec.ofNat 384 (p.2 + horizon khz (winStart p.2) next * 2 ^ 256 + cyclesIn khz (winMaxPassNs p.2) * 2 ^ 320)
  { window := p.1, value := v, comp := ~~~v }

/-- The entries of the windows that name an island, in window order. -/
def islandEntries (khz endOfPeriod : Nat) : List (Nat × Nat) → List ListEntry
  | [] => []
  | p :: ps => mkListEntry khz (nextStart endOfPeriod ps) p :: islandEntries khz endOfPeriod ps

/-- The list a version gives an island (R77). -/
def islandList (t : Tab Nat) (u : UnitId) : List ListEntry :=
  islandEntries (islandKHz t u) (getRec t 0x3000 0 0 * 10 ^ 7 - getRec t 0x2007 0 0)
    ((liveWindows t).filter (fun p => winNames p.2 u))

/-- The window entry, horizon (in cycles, signed) and MaxPass limit (in cycles) of a list entry. -/
def ListEntry.win (l : ListEntry) : Nat := l.value.toNat % 2 ^ 256
def ListEntry.horizon (l : ListEntry) : Int := toSigned 64 (bits l.value.toNat 319 256)
def ListEntry.maxPass (l : ListEntry) : Nat := bits l.value.toNat 383 320

/-! ### Emission of edges (R28, R65) -/

/-- Whether the Gallery link that carries a unit's edge lane has failed (R41). -/
def State.laneLost (s : State) (u : UnitId) : Bool :=
  match dieOfUnit u with
  | 0 => (Tab.get {} s.d2d 1).dead
  | 1 => (Tab.get {} s.d2d 2).dead
  | _ => false

/-- Whether the time into the period has reached an instant less a latency in picoseconds, in units of 2^-32 ns × 1,000.
(DEDUCED, assumption 18) -/
def reached (intoUnits latencyPs instantNs : Nat) : Bool :=
  decide (instantNs * 1000 * 2 ^ 32 ≤ intoUnits * 1000 + latencyPs * 2 ^ 32)

/-- The edges of a version toward a unit in window order: edge 2w is the start of window w, edge 2w + 1 its end (R65, R71). -/
def unitEdges (t : Tab Nat) (u : UnitId) : List Nat :=
  ((liveWindows t).filter (fun p => winNames p.2 u)).flatMap (fun p => [2 * p.1, 2 * p.1 + 1])

/-- The next edge toward a unit when the first `emitted` indices are behind. -/
def nextEdge (t : Tab Nat) (u : UnitId) (emitted : Nat) : Option Nat := (unitEdges t u).find? (fun k => decide (emitted ≤ k))

/-- The instant of an edge in nanoseconds from the boundary. -/
def edgeInstant (t : Tab Nat) (index : Nat) : Nat :=
  let w := windowOf t (index / 2)
  if index % 2 = 0 then winStart w else winStart w + winLength w

/-- The time into the period in units of 2^-32 ns. -/
def State.intoUnits (s : State) : Nat := s.time.intoPeriod s.periodFrames * 2 ^ 32 + s.time.acc % 2 ^ 32

/-- The ticks that are left to the next period boundary at the active increment. -/
def State.ticksLeft (s : State) : Nat :=
  ceilDiv (s.periodFrames * 10 ^ 7 * 2 ^ 32 - s.intoUnits) (Nat.max 1 s.time.incActive.toNat)

/-- The version that will be active from the next boundary: the one that activates there, if one does (R381, R383). -/
def State.nextVersion (s : State) : Tab Nat :=
  let reverts := s.vers.phase == .unconfirmed &&
    (match wrapDiff 32 (s.chr.periodCount + 1).toNat s.vers.deadline.toNat with | some left => decide (left ≤ 0) | none => false)
  if reverts then s.vers.previous
  else match s.vers.due with
    | some (kind, tick) =>
      if s.time.ticks + s.ticksLeft < tick then s.vers.active
      else (match kind with | .commit => s.vers.staging | .revert => s.vers.previous)
    | none => s.vers.active

/-- Whether the next boundary of the period in progress begins a period of a version (R64). -/
def State.boundaryOf (s : State) (t : Tab Nat) : Bool :=
  (s.time.frame - s.time.frame % s.periodFrames + s.periodFrames) % (getRec t 0x3000 0 0 : Nat) == 0

/-- An edge emitted toward an island: the next in window order, once the time reaches its instant less the lane latency, and never twice
in a period. One due ahead of the boundary is an edge of the period that follows, under the version that will be active then (R28, R65). -/
def effEdgeEmit (u : UnitId) (index : BitVec 14) (s : State) : State :=
  let i := s.island u
  let k := index.toNat
  let next := s.nextVersion
  if s.laneLost u then s
  else if s.chr.suspended = false ∧ nextEdge s.vers.active u i.emitted = some k ∧
      reached s.intoUnits i.latency.toNat (edgeInstant s.vers.active k) then
    s.setIsland u { i with emitted := k + 1 }
  else if s.time.load.isNone ∧ s.boundaryOf next ∧ nextEdge next u i.emittedEarly = some k ∧
      reached s.intoUnits i.latency.toNat (edgeInstant next k + s.periodFrames * 10 ^ 7) then
    s.setIsland u { i with emittedEarly := k + 1 }
  else s

/-- EDGE_EMIT (R65). -/
def execEdgeEmit (unit : UnitId) (index : BitVec 14) (s : State) : Host.Outcome State Fault Refusal :=
  .next (effEdgeEmit unit index s)

/-! ### Window edges (R75, R81, R82, R131) -/

/-- Whether the time lies within two cycles of an island of an instant of the period, to the tick (R29). (DEDUCED, assumption 153) -/
def State.nearInstant (s : State) (u : UnitId) (instantNs : Nat) : Bool :=
  let khz := islandKHz s.vers.active u
  let slack := 2 * 10 ^ 6 * 2 ^ 32 + s.time.incActive.toNat * khz
  decide (s.intoUnits * khz ≤ instantNs * 2 ^ 32 * khz + slack ∧ instantNs * 2 ^ 32 * khz ≤ s.intoUnits * khz + slack)

/-- Whether an edge that has been emitted takes effect at its island now, once, within two cycles of its instant; the lane of a Gallery
link that has failed carries none (R29, R41, R65). -/
def State.edgeArrives (s : State) (u : UnitId) (index : Nat) : Bool :=
  let i := s.island u
  !s.laneLost u && decide (i.taken ≤ index ∧ index < i.emitted) && s.nearInstant u (edgeInstant s.vers.active index)

/-- The entry an island uses at a start edge: its own when the pair is good, the previous version's where that qualifies,
or none (R81, R403). The flag says whether the pair failed. -/
def Island.checked (i : Island) (window : Nat) : Option ListEntry × Bool :=
  match i.list.find? (fun l => l.window == window) with
  | none => (none, false)
  | some l =>
    if pairGood 384 l.value.toNat l.comp.toNat then (some l, false)
    else
      match i.previous.find? (fun q => q.window == window) with
      | none => (none, true)
      | some q =>
        match pairFallback 384 l.value.toNat l.comp.toNat q.value.toNat q.comp.toNat with
        | some _ => (some q, true)
        | none => (none, true)

/-- The contexts a window admits on an engine (R75): its owner, or in an OPEN window every INFERENCE context that holds a
partition there. -/
def State.admitted (s : State) (e : EngineId) (w : Nat) : List ContextId :=
  if winOwner w = ownerOpen then
    ((contextRecs s.vers.active).filter (fun r => ctxClassOf r == 1)).map (fun r => BitVec.ofNat 10 (ctxId r)) |>.filter
      (fun c => ((s.engine e).boundsOf c).isSome)
  else if winOwner w = ownerService then []
  else [BitVec.ofNat 10 (winOwner w)]

/-- The bounds pair of a context checked at its admission: kept, replaced by the previous version's, or the engine stops;
an event either way (R131, R403). -/
def State.checkBounds (s : State) (e : EngineId) (c : ContextId) : State :=
  let x := s.engine e
  let b := Tab.get {} x.bounds c.toNat
  if pairGood 64 b.value.toNat b.comp.toNat then s
  else
    let p := Tab.get {} x.boundsPrevious c.toNat
    match pairFallback 64 b.value.toNat b.comp.toNat p.value.toNat p.comp.toNat with
    | some _ =>
      (s.updEngine e (fun x => { x with bounds := Tab.set {} x.bounds c.toNat p })).raise
        { area := 0x40, kind := 0x08, unit := engineUnit e, ctx := some c }
    | none => (s.raise { area := 0x40, kind := 0x09, unit := engineUnit e, ctx := some c }).stopEngine e

/-- Passes and VECTOR tiles of an engine that have not committed when a start edge takes effect, with the cycle after their
end (a pass that waits to re-run ends C cycles after its re-run's earliest start). -/
def Engine.lateEnds (x : Engine) : List Int :=
  x.arrays.flatMap (fun p => p.2.flight.map (fun q => q.started + (q.cycles : Int)) ++ p.2.reruns.map (fun q => q.started + 2 * (q.cycles : Int))) ++
  (x.vuPass.map (fun q => q.started + (q.cycles : Int))).toList

/-- The ends of the work still in progress on a unit: passes, a job, coding operations (R80, R82). -/
def State.workEnds (s : State) (u : UnitId) : List Int :=
  match UnitId.kind u with
  | 0x00 => (s.engine (BitVec.ofNat 6 (UnitId.index u))).lateEnds
  | 0x06 => match (Tab.get {} s.cores (UnitId.index u)).job with | some j => [j.ends] | none => []
  | _ => (Tab.get {} s.radio.units u.toNat).ops.map (·.ends)

/-- Mark the passes of an engine late. -/
def Engine.markLate (x : Engine) : Engine :=
  { x with arrays := Tab.mapAll {} (fun _ a => { a with flight := a.flight.map (fun p => { p with late := true }),
                                                        reruns := a.reruns.map (fun p => { p with late := true }) }) x.arrays,
           vuPass := x.vuPass.map (fun p => { p with late := true }) }

/-- Cycles from the start of one window to the start of the next on an island. (DEDUCED, assumption 22) -/
def State.cyclesBetween (s : State) (u : UnitId) (old new : Nat) : Nat :=
  let d := if winStart old < winStart new then winStart new - winStart old
           else winStart new + s.periodFrames * 10 ^ 7 - winStart old
  cyclesIn (islandKHz s.vers.active u) d

/-- The overrun of the window before, when its work has not ended as the next start edge takes effect: the island's next
start waits, OverrunCount advances, and an event names the window and the excess in cycles (R82). -/
def State.overrun (s : State) (u : UnitId) (before : Nat) (new : Nat) : State :=
  let ends := s.workEnds u
  let i := s.island u
  if ends.isEmpty then s.setIsland u { i with waitsForLate := false }
  else
    let excess := (ends.foldl max 0 - (s.cyclesBetween u (windowOf s.vers.active before) new : Nat)).toNat
    let s1 := s.setIsland u { i with waitsForLate := true }
    let s2 := if UnitId.kind u = 0 then s1.updEngine (BitVec.ofNat 6 (UnitId.index u)) Engine.markLate else s1
    { s2 with chr := { s2.chr with overruns := s2.chr.overruns + 1 } }.raise
      { area := 0x30, kind := 0x18, unit := u, detail := [(16, before), (32, excess)] }

/-- Mark the work in progress on a coding unit or signal core late, and carry its cycle numbers into a new window, which
starts d cycles after the one before. -/
def State.rebaseUnit (s : State) (u : UnitId) (d : Nat) : State :=
  match UnitId.kind u with
  | 0x00 => s
  | 0x06 =>
    let c := Tab.get {} s.cores (UnitId.index u)
    let c1 := { c with job := c.job.map (fun j => { j with ends := j.ends - d, late := true }) }
    { s with cores := Tab.set {} s.cores (UnitId.index u) c1 }
  | _ =>
    let x := Tab.get {} s.radio.units u.toNat
    let x1 := { x with freeAt := x.freeAt - d, ops := x.ops.map (fun o => { o with ends := o.ends - d, late := true }) }
    { s with radio := { s.radio with units := Tab.set {} s.radio.units u.toNat x1 } }

/-- An engine's cycle numbers carried into a new window, which starts d cycles after the one before. -/
def Engine.rebase (x : Engine) (d : Nat) : Engine :=
  let shift := fun (p : Pass) => { p with started := p.started - d, origin := p.origin - d }
  { x with vuPass := x.vuPass.map shift,
           vu := { x.vu with tilePass := x.vu.tilePass.map shift, freeAt := x.vu.freeAt - d },
           contexts := Tab.mapAll {} (fun _ c => { c with
             outReady := Tab.mapAll 0 (fun _ n => n - d) c.outReady,
             runs := c.runs.map (fun r => { r with written := r.written - d }) }) x.contexts,
           arrays := Tab.mapAll {} (fun _ a => { a with
             flight := a.flight.map shift, reruns := a.reruns.map shift, drains := a.drains.map (fun t => { t with pass := shift t.pass }),
             freeAt := a.freeAt - d, turn := a.turn - d, slots := a.slots - d, nextInference := a.nextInference - d,
             demand := (a.demand.map (fun q => (q.1 - d, q.2))).filter (fun q => q.1 ≠ 0) }) x.arrays }

/-- The cycles of an engine between two windows are counted, and the slots of its arrays that were left had no window; a power-gated group
accumulates none (R447, R449, R450). -/
def State.closeSlots (s : State) (e : EngineId) (d : Nat) : State :=
  if s.chr.gated.getLsbD (groupOf e) then s
  else (((s.countIdle e false d acNoWindow none).countIdle e true d acNoWindow none).countEngine e 0 d)

/-- The window whose work is in progress on an engine, for an overrun's event. -/
def State.windowInProgress (s : State) (u : UnitId) : Nat :=
  match UnitId.kind u with
  | 0x00 => match (s.engine (BitVec.ofNat 6 (UnitId.index u))).arrays.flatMap (fun p => p.2.flight ++ p.2.reruns) with
            | p :: _ => p.window
            | [] => ((s.island u).lastWindow).getD 0
  | _ => ((s.island u).lastWindow).getD 0

/-- A window's start edge takes effect at an island (R75, R81, R82, R131). A list entry with no good copy is skipped; on a
Gallery island at the period boundary that is a self-fence (R423). (DESIGN CHOICE, assumption 19) -/
def effWindowStartEdge (u : UnitId) (entry : BitVec 13) (s0 : State) : State :=
  let arrives := s0.edgeArrives u (2 * entry.toNat)
  let s := s0.setIsland u { s0.island u with taken := 2 * entry.toNat + 1 }
  let i := s.island u
  let ck := i.checked entry.toNat
  let known := i.list.any (fun l => l.window == entry.toNat)
  if arrives = false ∨ s0.chr.suspended ∨ known = false ∨ s0.integ.fenced then s0
  else
    match ck.1 with
    | none =>
      let s1 := s.setIsland u { i with current := none }
      if dieOfUnit u = 2 ∧ winStart (windowOf s.vers.active entry.toNat) = 0 then
        (s1.raise { area := 0x30, kind := 0x09, unit := u, fatal := true, detail := [(16, entry.toNat)] }).selfFence
      else s1.raise { area := 0x30, kind := 0x09, unit := u, detail := [(16, entry.toNat)] }
    | some l =>
      let s1 := s.raiseIf ck.2 { area := 0x30, kind := 0x08, unit := u, detail := [(16, entry.toNat)] }
      let s2 := s1.overrun u (s1.windowInProgress u) l.win
      let s3 := s2.setIsland u { s2.island u with current := some l, lastWindow := some entry.toNat }
      if UnitId.kind u = 0 then
        let e : EngineId := BitVec.ofNat 6 (UnitId.index u)
        let s4 := match i.lastWindow with
          | some w =>
            let d := s1.cyclesBetween u (windowOf s1.vers.active w) l.win
            (s3.closeSlots e d).updEngine e (fun x => x.rebase d)
          | none => s3
        (s4.admitted e l.win).foldl (fun s c => s.checkBounds e c) s4
      else
        match i.lastWindow with
        | some w => s3.rebaseUnit u (s1.cyclesBetween u (windowOf s1.vers.active w) l.win)
        | none => s3

/-- WINDOW_START_EDGE (R75). -/
def execWindowStartEdge (unit : UnitId) (entry : BitVec 13) (s : State) : Host.Outcome State Fault Refusal :=
  .next (effWindowStartEdge unit entry s)

/-- A window's end edge takes effect: nothing more starts in the window (R29, R78). -/
def effWindowEndEdge (u : UnitId) (entry : BitVec 13) (s : State) : State :=
  if s.edgeArrives u (2 * entry.toNat + 1) = false then s
  else
    let i := s.island u
    let open' := match i.current with | some l => l.window == entry.toNat | none => false
    s.setIsland u { i with taken := 2 * entry.toNat + 2, current := if open' then none else i.current }

/-- WINDOW_END_EDGE (R78). -/
def execWindowEndEdge (unit : UnitId) (entry : BitVec 13) (s : State) : Host.Outcome State Fault Refusal :=
  .next (effWindowEndEdge unit entry s)

/-! ### Fit or wait (R78) -/

/-- Whether a unit may start anything now: powered and running, no load pending, no time eclipse, not fenced or expelled.
(DESIGN CHOICE, assumption 146) -/
def State.mayStart (s : State) : Bool := !s.chr.suspended && s.time.load.isNone && !s.noWork

/-- Whether a window starts work at all now: one of class RAN does not while TimeQuality is UNSET (R56) or before RadioReady (R441). -/
def State.windowServes (s : State) (w : Nat) : Bool := !(decide (winClass w = 0) && (s.time.quality == .unset || !s.host.radioReady))

/-- The window open on an island in which it may start work: RAN windows receive none while TimeQuality is UNSET (R56) or
before RadioReady (R441). -/
def State.openWindow (s : State) (u : UnitId) : Option ListEntry :=
  match (s.island u).current with
  | none => none
  | some l => if winClass l.win = 0 ∧ (s.time.quality = .unset ∨ s.host.radioReady = false) then none else some l

/-- The three conditions on a start of C cycles on cycle n in an open window (R78). -/
def ListEntry.fits (l : ListEntry) (c n : Nat) : Bool :=
  decide (c ≤ l.maxPass) && decide (((n + 2 * c : Nat) : Int) ≤ l.horizon)

/-! ### Group gating (R26, R27) -/

/-- The groups that a version's windows name. -/
def namedGroups (t : Tab Nat) : List Nat :=
  (List.range 8).filter (fun g => (liveWindows t).any (fun p => bits (winEngines p.2) (8 * g + 7) (8 * g) ≠ 0))

/-- Ungate every group a version names (R27). The pools of a group are full when it is ungated (R401). -/
def State.ungateFor (s : State) (t : Tab Nat) : State :=
  { s with chr := { s.chr with gated := (namedGroups t).foldl (fun g k => g &&& ~~~(BitVec.ofNat 8 (2 ^ k))) s.chr.gated } }

/-- Whether 50 µs or less remain to the period boundary at which a version would be confirmed at the latest (R383). -/
def State.deadlineNear (s : State) : Bool :=
  s.vers.phase == .unconfirmed &&
  (match wrapDiff 32 s.chr.periodCount.toNat s.vers.deadline.toNat with
   | some left => decide (left ≤ 0) || (left == 1 && decide (s.periodFrames * 10 ^ 7 ≤ s.time.intoPeriod s.periodFrames + 50000))
   | none => false)

/-- The groups that a coming activation needs: a pending commit's, an ordered revert's, or those ungated ahead of the confirm
deadline (R27, R381, R383). -/
def State.groupsWanted (s : State) : List Nat :=
  (match s.vers.due with
   | some (.commit, _) => namedGroups s.vers.staging
   | some (.revert, _) => namedGroups s.vers.previous
   | none => []) ++
  (if s.deadlineNear then namedGroups s.vers.previous else [])

/-- A group that the active version does not name is gated once its last pass has committed (R26, R27). -/
def effGroupGate (group : BitVec 3) (s : State) : State :=
  let g := group.toNat
  let busy := (List.range 8).any (fun k =>
    let x := s.engine (BitVec.ofNat 6 (8 * g + k))
    x.vuPass.isSome || x.arrays.any (fun p => !p.2.flight.isEmpty || !p.2.reruns.isEmpty))
  if g ∈ namedGroups s.vers.active ∨ busy ∨ g ∈ s.groupsWanted then s
  else { s with chr := { s.chr with gated := s.chr.gated ||| BitVec.ofNat 8 (2 ^ g) } }

/-- GROUP_GATE (R27). -/
def execGroupGate (group : BitVec 3) (s : State) : Host.Outcome State Fault Refusal := .next (effGroupGate group s)

end Sys2Proof.Machine
end

