-- ==== Sys2Proof/Machine/Submission.lean ====
section
/-!
DEFINITION. Submission and completion: poll slots, rings, batch records and completion records (R84 to R94, R416 to R418).
-/

namespace Sys2Proof.Machine

/-! ### Ring records (R84, R94) -/

/-- The ring record of a function: a record of 0x3021 InstanceRings, or the low 192 bits of 0x3024 ProviderRing's layout with
the bases moved into the same places. -/
def State.ringRec (s : State) : Source → Nat
  | .inst n => s.obj 0x3021 0 n.toNat
  | .provider =>
    let r := s.obj 0x3024 0 0
    bits r 255 192 * 2 ^ 128 + bits r 191 128 * 2 ^ 64 + r % 2 ^ 64

def ringSubmitBase (r : Nat) : Nat := bits r 191 128
def ringCompleteBase (r : Nat) : Nat := bits r 127 64
def ringSubmitSize (r : Nat) : Nat := 2 ^ bits r 63 59
def ringCompleteSize (r : Nat) : Nat := 2 ^ bits r 58 54
def ringMsix (r : Nat) : Bool := bit r 53
def ringEnabled (r : Nat) : Bool := bit r 52

/-- The device's side of a function's ring. -/
def State.ring (s : State) : Source → Ring
  | .provider => s.provider
  | .inst n => (s.inst n).ring

def State.setRing (s : State) (f : Source) (r : Ring) : State :=
  match f with
  | .provider => { s with provider := r }
  | .inst n => s.setInst n { s.inst n with ring := r }

/-- PollPeriod in ns, Weight and BatchSlots of an instance (R84); the provider holds 64 slots of its own (R94). -/
def State.pollPeriodNs (s : State) (n : InstanceId) : Nat := bits (s.act 0x3020 0 n.toNat) 63 50 * 1000
def State.weightOf (s : State) (n : InstanceId) : Nat := bits (s.act 0x3020 0 n.toNat) 49 42
def State.batchSlots (s : State) : Source → Nat
  | .provider => 64
  | .inst n => bits (s.act 0x3020 0 n.toNat) 41 35

/-! ### Host reads (R345, R347) -/

/-- The tag of the first outstanding read of a purpose. -/
def State.findRead (s : State) (p : ReadPurpose) : Option (Nat × HostRead) :=
  s.host.reads.findSome? (fun q => match q.2 with | some r => if r.purpose = p then some (q.1, r) else none | none => none)

/-- Whether a function's requests are translated by ATS (R351). The physical function's use of it is configuration space's. -/
def State.usesAts (s : State) : Source → Bool
  | .provider => false
  | .inst n => bit (s.obj 0x9020 0 n.toNat) 11

/-- A request of a function that uses ATS keeps its page's translation, in a cache of 8,192 entries (R345). (DEDUCED, assumption 103) -/
def State.translate (s : State) (f : Source) (address : Nat) : State :=
  if s.usesAts f ∧ (s.host.translations.contains (f, address / 4096)) = false then
    { s with host := { s.host with translations := (f, address / 4096) :: s.host.translations.take 8191 } }
  else s

/-- Issue a non-posted read, at most 1,024 being outstanding (R345); one that finds no tag is not issued. -/
def State.issueRead (s : State) (f : Source) (address length : Nat) (p : ReadPurpose) : State :=
  if 1024 ≤ s.host.reads.length then s
  else
    let free := ((List.range 1025).map (fun i => (s.host.nextTag.toNat + i) % 16384)).find?
      (fun t => (Tab.get none s.host.reads t).isNone)
    match free with
    | none => s
    | some t =>
      let r : HostRead := { source := f, address := BitVec.ofNat 64 address, length, purpose := p, issuedAt := s.time.ticks }
      let s1 := { s with host := { s.host with reads := Tab.set none s.host.reads t (some r), nextTag := BitVec.ofNat 14 (t + 1) } }
      s1.translate f address

/-- A read is over. -/
def State.endRead (s : State) (tag : Nat) : State :=
  { s with host := { s.host with reads := Tab.set none s.host.reads tag none } }

/-- The status a failed read carries (R347). -/
def statusOfRead : ReadResult → BitVec 8
  | .good => stDone
  | .poisoned => stPoisoned
  | .refused => stSecurity
  | .timeout => stRemoteTimeout

/-- A read of a host count failed: the count keeps its value and an event names it and carries the status (R473). -/
def State.countFailed (s : State) (index sub record : Nat) (r : ReadResult) : State :=
  s.raise { area := 0x90, kind := 0x10, unit := hostUnit, status := statusOfRead r,
            detail := [(16, index), (8, sub), (32, record)] }

/-- Issue a read of a host count unless one is outstanding. -/
def State.readCount (s : State) (address length : Nat) (p : ReadPurpose) : State :=
  if (s.findRead p).isSome then s else s.issueRead .provider address length p

/-- The reads of the counts the host keeps, made at every poll slot and period boundary (R219, R270, R399). -/
def State.readHostCounts (s : State) : State :=
  let s1 := if s.obj 0x5011 4 0 = 0 then s else s.readCount (s.obj 0x5011 4 0) 8 .radioConsumed
  let s2 := if s.obj 0x6040 8 0 = 1 then (s1.readCount (s1.obj 0x6040 3 0) 8 (.mgmtCounts false)).readCount (s1.obj 0x6040 6 0) 8 (.mgmtCounts true)
            else s1
  if s.obj 0xA010 4 0 = 1 then s2.readCount (s2.obj 0xA010 3 0) 8 .eventConsumed else s2

/-! ### Poll slots (R88, R94) -/

/-- Whether the host link carries traffic. -/
def State.linkUp (s : State) : Bool := s.host.phase == .up

/-- Whether a function's ring may fetch: enabled, ACTIVE, not in RING_ERROR, and the module gives work. -/
def State.fetches (s : State) (f : Source) : Bool :=
  ringEnabled (s.ringRec f) && !(s.ring f).state == .ringError && !s.noWork && s.linkUp &&
  (match f with | .provider => true | .inst n => (s.inst n).life == .active)

/-- Whether an instance is due at a poll slot (R88). -/
def State.due (s : State) (n : InstanceId) : Bool :=
  s.fetches (.inst n) && decide (s.pollPeriodNs n ≠ 0) && decide ((s.inst n).ring.due ≤ s.chr.pollStart)

/-- The eight instances of a summary line (R85). -/
def lineInstances (line : Nat) : List InstanceId := (List.range 8).map (fun i => BitVec.ofNat 10 (8 * line + i))

/-- Read the summary lines that hold a due instance, each once (R88 step 2). -/
def State.readSummaries (s : State) : State :=
  (List.range 128).foldl (fun s g =>
    if (lineInstances g).any s.due then
      if (s.findRead (.summary (BitVec.ofNat 7 g))).isSome then s
      else s.issueRead .provider (s.obj 0x3022 0 0 + 64 * g) 64 (.summary (BitVec.ofNat 7 g))
    else s) s

/-- A poll slot's start edge: the provider ring's counter, the due instances' summary lines, and the host's counts
(R88, R94, R219, R270, R399). (DEDUCED, assumption 28) -/
def effPollSlotStart (window : BitVec 13) (s : State) : State :=
  let w := windowOf s.vers.active window.toNat
  if winPoll w = false ∨ winLength w = 0 ∨ windowCount s.vers.active ≤ window.toNat ∨ s.chr.suspended then s
  else
    let s1 := { s with chr := { s.chr with pollOpen := some window.toNat, pollStart := s.ns },
                       insts := Tab.mapAll {} (fun _ i => { i with ring := { i.ring with left := 0 } }) s.insts,
                       provider := { s.provider with left := 0 } }
    if s.linkUp = false then s1
    else
      let s2 := if s1.fetches .provider then s1.readCount (bits (s1.obj 0x3024 0 0) 127 64) 8 .providerCounter else s1
      s2.readSummaries.readHostCounts

/-- POLL_SLOT_START (R88). -/
def execPollSlotStart (window : BitVec 13) (s : State) : Host.Outcome State Fault Refusal := .next (effPollSlotStart window s)

/-- Whether the poll slot's end edge has not yet taken effect (R88 step 4). -/
def State.slotOpen (s : State) : Bool :=
  match s.chr.pollOpen with
  | none => false
  | some w => decide (s.ns < s.chr.pollStart + winLength (windowOf s.vers.active w))

/-- Issue the reads of `want` batch records from ring index Fetched on, in pieces of at most 16 that do not wrap, while tags are free;
what is not issued is `left`. `fuel` bounds the number of pieces (R86, R88). The queue's State reads ACTIVE from the first of these reads
until the last batch slot is released. (DEDUCED, assumption 27) (DESIGN CHOICE, assumption 155) -/
def State.fetchRecords (s : State) (f : Source) : Nat → Nat → State
  | 0, want => s.setRing f { s.ring f with left := want }
  | _, 0 => s.setRing f { s.ring f with left := 0 }
  | fuel + 1, want + 1 =>
    let rec' := s.ringRec f
    let r := s.ring f
    let index := r.fetched.toNat % ringSubmitSize rec'
    let k := min 16 (min (want + 1) (ringSubmitSize rec' - index))
    if 1024 ≤ s.host.reads.length then s.setRing f { r with left := want + 1 } else
    let s1 := s.issueRead f (ringSubmitBase rec' + 64 * index) (64 * k) (.batch f)
    let s2 := s1.setRing f { r with fetched := r.fetched + BitVec.ofNat 24 k, slots := r.slots + k, reading := r.reading + k,
                                     state := .active }
    s2.fetchRecords f fuel (want + 1 - k)

/-- Whether a counter difference is out of range: a wrap fault, negative, or above the ring's size (R11, R89). -/
def countBad (d : Option Int) (size : Nat) : Bool :=
  match d with
  | none => true
  | some x => decide (x < 0 ∨ (size : Int) < x)

/-- A poll of an instance has issued all its reads: the instance is next due a PollPeriod after the slot's start (R88). -/
def State.pollDone (s : State) (f : Source) : State :=
  match f with
  | .provider => s
  | .inst n => if (s.ring f).left = 0 then s.setRing f { s.ring f with due := s.chr.pollStart + s.pollPeriodNs n } else s

/-- A function whose ring is still owed reads issues them while the slot is open (R88 step 4). -/
def State.resumeRing (s : State) (f : Source) : State :=
  if (s.ring f).left = 0 ∨ s.slotOpen = false ∨ s.fetches f = false then s
  else (s.fetchRecords f 64 (min (s.ring f).left (s.batchSlots f - (s.ring f).slots))).pollDone f

/-- Every ring that is owed reads. -/
def State.resumeRings (s : State) : State :=
  s.insts.foldl (fun s q => s.resumeRing (.inst (BitVec.ofNat 10 q.1))) (s.resumeRing .provider)

/-- Read the counts of one function's 8-byte counter word: RING_ERROR where a difference is out of range, else keep them
and fetch what the slots allow (R88, R89, R94). -/
def State.pollRing (s : State) (f : Source) (word : Nat) : State :=
  if bits word 63 48 ≠ (s.generationOf f).toNat then s
  else
    let rec' := s.ringRec f
    let r := s.ring f
    let submit := bits word 47 24
    let consumed := bits word 23 0
    if countBad (wrapDiff 24 r.fetched.toNat submit) (ringSubmitSize rec') ∨
       countBad (wrapDiff 24 consumed r.written.toNat) (ringCompleteSize rec') then
      s.setRing f { r with state := .ringError }
    else
      let s1 := s.setRing f { r with submit := BitVec.ofNat 24 submit, consumed := BitVec.ofNat 24 consumed }
      if s.slotOpen = false then s1
      else
        let want := min (((wrapDiff 24 r.fetched.toNat submit).getD 0).toNat) (s.batchSlots f - r.slots)
        (s1.fetchRecords f 64 want).pollDone f

/-- A summary line's read has ended (R88, R473). -/
def effSummaryLineRead (line : BitVec 7) (result : ReadResult) (data : BitVec 512) (s : State) : State :=
  match s.findRead (.summary line) with
  | none => s
  | some (tag, _) =>
    let s1 := s.endRead tag
    if result = .good then
      (lineInstances line.toNat).foldl (fun s n =>
        if s.due n then s.pollRing (.inst n) (bits data.toNat (64 * (n.toNat % 8) + 63) (64 * (n.toNat % 8))) else s) s1
    else s1.countFailed 0x3022 0 line.toNat result

/-- SUMMARY_LINE_READ (R88). -/
def execSummaryLineRead (line : BitVec 7) (result : ReadResult) (data : BitVec 512) (s : State) :
    Host.Outcome State Fault Refusal := .next (effSummaryLineRead line result data s)

/-- The provider ring's counter has been read (R94, R473). -/
def State.providerCounterRead (s : State) (result : ReadResult) (word : Nat) : State :=
  if result = .good then (if s.fetches .provider then s.pollRing .provider word else s)
  else s.countFailed 0x3024 0 0 result

/-! ### Batch records (R87, R90, R91) -/

def batGeneration (r : Nat) : Nat := bits r 511 496
def batContext (r : Nat) : ContextId := BitVec.ofNat 10 (bits r 495 486)
def batStepCount (r : Nat) : Nat := bits r 479 464
def batRows (r : Nat) : Nat := bits r 463 448

/-- Whether a record may name a context: an INFERENCE context of its instance, or in the provider ring an ADMIN one (R90, R94). -/
def State.ownsContext (s : State) (f : Source) (c : ContextId) : Bool :=
  match f with
  | .inst n => s.ctxClass c == 1 && s.ctxSource c == .inst n
  | .provider => s.ctxClass c == 2

/-- The statuses a fetched record earns (R90, R94). -/
def State.batchStatuses (s : State) (f : Source) (r : Nat) : List (BitVec 8) :=
  (if bits r 485 480 ≠ 0 ∨ bits r 414 384 ≠ 0 ∨ bits r 127 0 ≠ 0 then [stInvalid] else []) ++
  (if batGeneration r ≠ (s.generationOf f).toNat then [stInvalid] else []) ++
  (if s.ownsContext f (batContext r) then [] else [stSecurity])

/-- The batch a record's fetch makes: its fields, and the statuses its validation or the failed read gives it. -/
def State.mkBatch (s : State) (f : Source) (r : Nat) (sts : List (BitVec 8)) : Batch :=
  { id := s.nextBatch, origin := .ring f, context := batContext r, generation := BitVec.ofNat 16 (batGeneration r),
    stepCount := if batRows r = 0 then 0 else batStepCount r, tag := BitVec.ofNat 32 (bits r 447 416), msix := bit r 415,
    listAddress := BitVec.ofNat 64 (bits r 383 320), argument := BitVec.ofNat 64 (bits r 319 256),
    input := BitVec.ofNat 64 (bits r 255 192), output := BitVec.ofNat 64 (bits r 191 128),
    statuses := sts, ended := !sts.isEmpty, lastCommit := s.now, issuer := s.generationOf f,
    foreign := !s.ownsContext f (batContext r) }

/-- A batch record of a read arrives: it is validated and its batch queued behind the earlier ones of its context (R90, R91). A
read that failed makes a batch of BatchTag 0 that ends with the failure's status (R347). -/
def State.batchArrived (s : State) (f : Source) (tag : Nat) (rd : HostRead) (result : ReadResult) (data : BitVec 512) : State :=
    let s1 := if rd.length ≤ 64 then s.endRead tag
              else { s with host := { s.host with reads := Tab.set none s.host.reads tag (some { rd with length := rd.length - 64 }) } }
    let r := s1.ring f
    let s2 := s1.setRing f { r with reading := r.reading - 1 }
    let b := if result = .good then s2.mkBatch f data.toNat (s2.batchStatuses f data.toNat)
             else { s2.mkBatch f 0 [statusOfRead result] with generation := s2.generationOf f, foreign := true }
    { s2 with batches := s2.batches ++ [b], nextBatch := s2.nextBatch + 1 }.resumeRings

/-- The next record of a function's first outstanding read of records arrives. -/
def effBatchRecordFetch (f : Source) (result : ReadResult) (data : BitVec 512) (s : State) : State :=
  match s.findRead (.batch f) with
  | none => s
  | some (tag, rd) => s.batchArrived f tag rd result data

/-- BATCH_RECORD_FETCH (R90). -/
def execBatchRecordFetch (source : Source) (result : ReadResult) (data : BitVec 512) (s : State) :
    Host.Outcome State Fault Refusal := .next (effBatchRecordFetch source result data s)

/-! ### Completion records (R92, R93, R416 to R418) -/

/-- The completion record of a batch (R92). -/
def completionRecord (b : Batch) (inst : Nat) (phase : Bool) (time : BitVec 96) : Nat :=
  b.generation.toNat * 2 ^ 240 + inst * 2 ^ 230 + b2n phase * 2 ^ 224 + b.tag.toNat * 2 ^ 192 +
  (carried b.statuses).toNat * 2 ^ 184 + b.committed.toNat * 2 ^ 160 + b.bytes.toNat * 2 ^ 96 + time.toNat

/-- The histogram bucket of a duration in units of 2^-16 ns (R416). (DEDUCED, assumption 30) -/
def durationBucket (d : Nat) : Nat :=
  let us := d / (65536 * 1000)
  if us = 0 then 0 else min 31 (Nat.log2 us + 1)

/-- Count a batch's duration, and its lateness against the insts watch (R416, R418). -/
def State.noteDuration (s : State) (n : InstanceId) (d : Nat) : State :=
  let i := s.inst n
  let w := s.obj 0xA051 0 n.toNat
  let target := bits w 63 32
  let late : Bool := decide (target ≠ 0 ∧ target * bits w 31 22 * 1000 * 65536 < d * 100)
  let run := if late then i.lateRun + 1 else 0
  let strag := late && run.toNat == bits w 21 14
  let s1 := s.setInst n { i with histogram := Tab.upd 0 i.histogram (durationBucket d) (· + 1),
                                 lateRun := if strag then 0 else run }
  s1.raiseIf strag { area := 0xA0, kind := 0x38, inst := some n }

/-- Remove a batch and release its slot (R91). -/
def State.releaseBatch (s : State) (f : Source) (b : Batch) : State :=
  let r := s.ring f
  let s1 := { s with batches := s.batches.filter (fun x => x.id ≠ b.id) }
  s1.setRing f { r with slots := r.slots - 1, state := if r.state = .ringError then .ringError
                                                       else if r.slots ≤ 1 then .idle else .active }

/-- The instance number a completion of a function carries (R92, R94). -/
def Source.number : Source → Nat
  | .provider => 0
  | .inst n => n.toNat

/-- Write the completion record of a batch of a ring with room, its message and its durations (R92, R93, R416). An empty batch, which has
neither a commit nor a refusal, carries the time of the writing. (DESIGN CHOICE, assumption 156) -/
def State.writeCompletion (s : State) (f : Source) (b : Batch) : State :=
  let rec' := s.ringRec f
  let r := s.ring f
  let size := ringCompleteSize rec'
  let w := r.written.toNat
  let time := if b.committed = 0 ∧ b.ended = false then s.now else b.lastCommit
  let s1 := s.post { source := f, address := BitVec.ofNat 64 (ringCompleteBase rec' + 32 * (w % size)),
                     bytes := leBytes 32 (completionRecord b (Source.number f) (phaseAt w size) time),
                     generation := b.issuer, purpose := .completion }
  let s2 := s1.setRing f { r with written := r.written + 1 }
  let s3 := s2.releaseBatch f b
  let vec := match f with | .provider => bits (s.obj 0x3024 0 0) 51 36 | .inst _ => 0
  let s4 := if ringMsix rec' ∧ b.msix ∧ vec ≠ 0xFFFF then s3.msix f vec else s3
  let s5 := match f with
    | .provider => s4.raiseConditions b.statuses (some b.context) none
    | .inst n => s4.raiseConditions b.statuses (some b.context) (some n)
  match f, b.started with
  | .inst n, some t0 => s5.noteDuration n (unitsOfStamp time - t0)
  | _, _ => s5

/-- A batch in RING_ERROR: its completion record is discarded and counted, raised as one event (R89), and every condition that the record
would have carried is raised, since no record carries it (R14). (DEDUCED, assumption 31) -/
def State.discardCompletion (s : State) (f : Source) (b : Batch) : State :=
  let s1 := s.releaseBatch f b
  let r := s1.ring f
  let s2 := s1.setRing f { r with discardNoted := true }
  let s3 := { s2 with batchesDiscarded := s2.batchesDiscarded + 1 }.raiseIf (!r.discardNoted)
    { area := 0x30, kind := 0x20, unit := hostUnit, inst := match f with | .inst n => some n | .provider => none }
  s3.raiseStatuses b.statuses (some b.context)

/-- Whether a batch may complete now: it has run to its end, and its ring has room or is in RING_ERROR; a receiver chart's batch has no
record (R89, R93, R229). -/
def State.completable (s : State) (b : Batch) : Bool :=
  s.batchDone b && (match b.origin with
    | .receiver _ => true
    | .ring f =>
      let r := s.ring f
      r.state == .ringError || decide ((r.written - r.consumed).toNat < ringCompleteSize (s.ringRec f)))

/-- The batch whose completion follows for a context: its oldest, or else one that names it and is not its function's (R91). -/
def State.nextCompletion (s : State) (c : ContextId) : Option Batch :=
  match s.oldestBatch c with
  | some b => if s.completable b then some b else s.batches.find? (fun q => q.context == c && q.foreign && s.completable q)
  | none => s.batches.find? (fun q => q.context == c && q.foreign && s.completable q)

/-- A batch of a context completes: its record is written when its ring has room, discarded in RING_ERROR, and
waits otherwise; a receiver chart's batch has no record (R91 to R93, R229). -/
def effCompletionRecordWrite (c : ContextId) (s : State) : State :=
  match s.nextCompletion c with
  | none => s
  | some b =>
      match b.origin with
      | .receiver _ =>
        let s1 := { s with batches := s.batches.filter (fun x => x.id ≠ b.id) }
        s1.raiseStatuses b.statuses (some c)
      | .ring f => if (s.ring f).state = .ringError then s.discardCompletion f b else s.writeCompletion f b

/-- COMPLETION_RECORD_WRITE (R93). -/
def execCompletionRecordWrite (context : ContextId) (s : State) : Host.Outcome State Fault Refusal :=
  .next (effCompletionRecordWrite context s)

/-! ### Writes of the ring records (R84, R94, R352) -/

/-- The checks on the fields two ring records share: Enable 1 allows no other change, order in 6 to 16 unless the record is
a disabled one at its reset value, 4 KiB alignment (R84). The result is a Reason. -/
def checkRing (old new : Nat) : BitVec 8 :=
  let ordersZero := bits new 63 59 = 0 ∧ bits new 58 54 = 0 ∧ bit new 52 = false
  let orderOk := fun (o : Nat) => decide (6 ≤ o ∧ o ≤ 16)
  if bits new 139 128 ≠ 0 ∨ bits new 75 64 ≠ 0 then rsRange
  else if ¬ ordersZero ∧ (orderOk (bits new 63 59) && orderOk (bits new 58 54)) = false then rsRange
  else if bit old 52 ∧ setBits new 52 52 0 ≠ setBits old 52 52 0 then rsState
  else rsNone

/-- The effect of a change of Enable on an instance: ACTIVE from zeroed counters, or QUIESCING (R84, R352). (DEDUCED, assumption 26) -/
def State.enableChanged (s : State) (n : InstanceId) (old new : Bool) : State :=
  let i := s.inst n
  if new ∧ ¬ old then
    s.setInst n { i with life := .active,
                         ring := { i.ring with fetched := 0, written := 0, submit := 0, consumed := 0, due := 0, state :=
                                     if i.ring.state = .ringError then .ringError else .idle } }
  else if old ∧ ¬ new then
    if i.life = .active ∨ i.life = .quiescing ∨ i.life = .quiesced then
      s.setInst n { i with life := .quiescing, disabling := true, flushDone := false }
    else s
  else s

/-- A write of an insts record of 0x3021 InstanceRings (R84, R352, R422). -/
def State.writeInstanceRing (s : State) (n : InstanceId) (new : Nat) : State × BitVec 8 :=
  let old := s.obj 0x3021 0 n.toNat
  let life := (s.inst n).life
  let rs := checkRing old new
  if bits new 51 0 ≠ 0 then (s, rsRange)
  else if rs ≠ rsNone then (s, rs)
  else if bit new 52 ∧ ¬ bit old 52 ∧ (s.integ.expelled ∨ life = .resetting ∨ life = .resetStalled) then (s, rsState)
  else ((s.setObj 0x3021 0 n.toNat new).enableChanged n (bit old 52) (bit new 52), rsNone)

/-- INSTANCE_RINGS_WRITE (R84). -/
def execInstanceRingsWrite (instanceId : InstanceId) (record : BitVec 192) (s : State) : Host.Outcome State Fault Refusal :=
  .next (s.writeInstanceRing instanceId record.toNat).1

/-- A write of 0x3024 ProviderRing: setting Enable zeroes the counts and leaves RING_ERROR (R94). -/
def State.writeProviderRing (s : State) (new : Nat) : State × BitVec 8 :=
  let old := s.obj 0x3024 0 0
  let low := fun (r : Nat) => bits r 255 192 * 2 ^ 128 + bits r 191 128 * 2 ^ 64 + r % 2 ^ 64
  let rs := checkRing (low old) (low new)
  if bits new 35 0 ≠ 0 ∨ bits new 66 64 ≠ 0 ∨ (bits new 51 36 ≠ 0xFFFF ∧ 64 ≤ bits new 51 36) then (s, rsRange)
  else if rs ≠ rsNone then (s, rs)
  else if bit old 52 ∧ setBits new 52 52 0 ≠ setBits old 52 52 0 then (s, rsState)
  else
    let s1 := s.setObj 0x3024 0 0 new
    if bit new 52 ∧ ¬ bit old 52 then
      ({ s1 with provider := { s1.provider with fetched := 0, written := 0, submit := 0, consumed := 0, state := .idle,
                                                discardNoted := false } }, rsNone)
    else (s1, rsNone)

/-- PROVIDER_RING_WRITE (R94). -/
def execProviderRingWrite (record : BitVec 256) (s : State) : Host.Outcome State Fault Refusal :=
  .next (s.writeProviderRing record.toNat).1

end Sys2Proof.Machine
end

