-- ==== Sys2Proof/Machine/HostPort.lean ====
section
/-!
DEFINITION. The host port's posted writes: what may be issued, dirty marks, and the sending of one write (R347, R354, R358,
R359, R365, R472).
-/

namespace Sys2Proof.Machine

/-! ### IDE (R365) -/

/-- Whether a function's DMA is withheld: IdeRequired is set and no stream that carries it is secure. Stream 0 is the link
stream, which carries every function; which functions a selective stream carries is set in configuration space, and the
model lets any secure stream carry the function. (DESIGN CHOICE, assumption 149) -/
def State.ideBlocked (s : State) : Bool :=
  s.obj 0x9050 0 0 == 1 && !(s.host.ide.any (fun p => p.2.secure))

/-! ### Dirty logs (R358, R359) -/

def dirtyHostBase (r : Nat) : Nat := bits r 255 192
def dirtyIova (r : Nat) : Nat := bits r 191 128
def dirtyDeviceBase (r : Nat) : Nat := bits r 127 64
def dirtyPages (r : Nat) : Nat := bits r 63 33
def dirtyInstance (r : Nat) : Nat := bits r 32 23
def dirtyEnabled (r : Nat) : Bool := bit r 22

/-- Round up to a multiple of 4 KiB. -/
def roundPage (n : Nat) : Nat := ceilDiv n 4096 * 4096

/-- The bytes of an instance's device map: one per 64 KiB of each of its regions (R358). -/
def deviceMapBytes (t : Tab Nat) (inst : Nat) : Nat :=
  (regionsOf t).foldl (fun a p => if regOwnerKind p.2 = 1 ∧ regInstance p.2 = inst then a + regUnits p.2 * 1024 else a) 0

/-- The index in an instance's device map of the page of a module address: the bytes of its earlier regions, in record order,
plus the page within its own region (R358). -/
def devicePageIndex (address inst : Nat) : List (Nat × Nat) → Nat → Option Nat
  | [], _ => none
  | p :: ps, before =>
    if regOwnerKind p.2 = 1 ∧ regInstance p.2 = inst then
      if regHolds p.2 address 1 then some (before + (address - regBase p.2) / 65536)
      else devicePageIndex address inst ps (before + regUnits p.2 * 1024)
    else devicePageIndex address inst ps before

/-- The address of a page's byte in a log's map of an epoch: map 0 at the base, map 1 after its rounded end (R358, R359). -/
def markAddress (base mapBytes epoch index : Nat) : W64 := BitVec.ofNat 64 (base + (epoch % 2) * roundPage mapBytes + index)

/-- The posted write that marks a page. -/
def markWrite (address : W64) : PostedWrite := { source := .provider, address, bytes := [1], purpose := .dirty }

/-- Whether a log marks: enabled and not closing. -/
def State.logMarks (s : State) (i : Nat) : Bool :=
  dirtyEnabled (s.obj 0x9030 0 i) && !(Tab.get {} s.host.dirty i).closing

/-- Note a page in a log's cache of the last 4,096 pages of the epoch. -/
def State.cacheMark (s : State) (i : Nat) (device : Bool) (index : Nat) : State :=
  let d := Tab.get {} s.host.dirty i
  { s with host := { s.host with dirty := Tab.set {} s.host.dirty i { d with marked := (device, index) :: d.marked.take 4095 } } }

/-- The mark a posted write still owes: the first log of its instance whose range it falls in and whose cache lacks the
page (R359). -/
def State.owedMark (s : State) (w : PostedWrite) : Option (Nat × Nat) :=
  match w.source with
  | .provider => none
  | .inst n =>
    (List.range 16).findSome? (fun i =>
      let r := s.obj 0x9030 0 i
      let page := (w.address.toNat - dirtyIova r) / 4096
      if s.logMarks i ∧ dirtyInstance r = n.toNat ∧ dirtyIova r ≤ w.address.toNat ∧ page < dirtyPages r ∧
         (Tab.get {} s.host.dirty i).marked.contains (false, page) = false then some (i, page) else none)

/-- Mark the device page of a module address in every log of an instance that owns its region (R359). -/
def State.markDevice (s : State) (address : Nat) : State :=
  (List.range 16).foldl (fun s i =>
    let r := s.obj 0x9030 0 i
    if s.logMarks i then
      match devicePageIndex address (dirtyInstance r) (regionsOf s.vers.active) 0 with
      | none => s
      | some k =>
        let d := Tab.get {} s.host.dirty i
        if d.marked.contains (true, k) then s
        else (s.cacheMark i true k).post
               (markWrite (markAddress (dirtyDeviceBase r) (deviceMapBytes s.vers.active (dirtyInstance r)) d.epoch k))
    else s) s

/-! ### Flush reads (R355, R356, R360) -/

/-- Whether the port still holds a write of a function (R355 step 5). -/
def State.holdsWrite (s : State) (f : Source) : Bool := s.host.writes.any (fun w => w.source == f)

/-- Whether an instance waits for a flush read that has not been made: it is being reset; or quiesces and holds no batch; or
an import drains it (R352, R355, R362). -/
def Inst.wantsFlush (i : Inst) : Bool :=
  !i.flushDone && !i.flushIssued &&
  (i.life == .resetting || i.life == .resetStalled || (i.life == .quiescing && i.ring.slots == 0) || i.importing.isSome)

/-- Issue an instance's flush read once the host port holds no write of it; it is skipped, and counts as done, when no host
write has been issued since the last (R356). -/
def State.flushInst (s : State) (n : InstanceId) : State :=
  let i := s.inst n
  if i.wantsFlush = false ∨ s.holdsWrite (.inst n) then s
  else if i.wroteSinceFlush = false then s.setInst n { i with flushDone := true }
  else (s.issueRead (.inst n) i.lastWritePage.toNat 0 (.flush (.inst n))).setInst n { i with flushIssued := true, wroteSinceFlush := false }

/-- A log whose flush has come back: its harvested epoch is complete, and a log being closed is closed (R360). -/
def DirtyLog.flushed (d : DirtyLog) : DirtyLog :=
  let completed := if d.harvesting then BitVec.ofNat 32 (d.epoch - 1) else d.completed
  if d.flushing then { d with harvesting := false, closing := false, flushing := false, completed } else d

/-- The logs whose marks a flush has shown to be written (R360). -/
def State.completeHarvests (s : State) : State :=
  { s with host := { s.host with dirty := Tab.mapAll {} (fun _ d => d.flushed) s.host.dirty } }

/-- Issue the flush read of harvested and closing logs once the host port holds no write of the physical function (R360). -/
def State.flushLogs (s : State) : State :=
  let waiting := s.host.dirty.any (fun p => (p.2.harvesting || p.2.closing) && !p.2.flushing)
  if waiting = false ∨ s.holdsWrite .provider ∨ (s.findRead (.flush .provider)).isSome then s
  else
    let begin' := fun (_ : Nat) (d : DirtyLog) => if d.harvesting || d.closing then { d with flushing := true } else d
    let s1 := { s with host := { s.host with dirty := Tab.mapAll {} begin' s.host.dirty } }
    if s1.host.pfWrote = false then s1.completeHarvests
    else
      let s2 := { s1 with host := { s1.host with pfWrote := false } }
      s2.issueRead .provider s2.host.pfPage.toNat 0 (.flush .provider)

/-- Make the flush read a function's writes have made possible. (DEDUCED, assumption 102) -/
def State.tryFlush (s : State) (f : Source) : State :=
  match f with
  | .provider => s.flushLogs
  | .inst n => s.flushInst n

/-! ### Sending (R347, R354) -/

/-- Count a dropped write of an instance (R354). -/
def State.countStale (s : State) (f : Source) : State :=
  match f with
  | .provider => s
  | .inst n => s.setInst n { s.inst n with stale := (s.inst n).stale + 1 }

/-- Whether a write is of an older generation than its instance's (R354). -/
def State.isStale (s : State) (w : PostedWrite) : Bool :=
  match w.source with
  | .provider => false
  | .inst n => decide (w.generation ≠ (s.inst n).generation)

/-- A function's write has gone onto the link: its page is where a flush read goes (R356). -/
def State.noteWrite (s : State) (f : Source) (address : W64) : State :=
  let page : W64 := BitVec.ofNat 64 (address.toNat / 4096 * 4096)
  match f with
  | .provider => { s with host := { s.host with pfWrote := true, pfPage := page } }
  | .inst n => s.setInst n { s.inst n with wroteSinceFlush := true, lastWritePage := page }

/-- The host port puts its oldest posted write on the link: a stale one is dropped and counted; one that owes a dirty mark
is preceded by it; writes of a function whose IDE stream is not secure stay (R347, R354, R359, R365). A flush read that waited
for the write follows it. -/
def State.sendWrite (s : State) : State :=
  match s.host.writes with
  | [] => s
  | w :: rest =>
    if s.linkUp = false ∨ s.ideBlocked then s
    else if s.isStale w then ({ s with host := { s.host with writes := rest } }.countStale w.source).tryFlush w.source
    else
      match s.owedMark w with
      | some (i, page) =>
        let r := s.obj 0x9030 0 i
        let s1 := s.cacheMark i false page
        let m := markWrite (markAddress (dirtyHostBase r) (dirtyPages r) (Tab.get {} s.host.dirty i).epoch page)
        { s1 with host := { s1.host with lastSent := some m } }.noteWrite .provider m.address
      | none =>
        let s1 := ({ s with host := { s.host with writes := rest, lastSent := some w } }).translate w.source w.address.toNat
        (if w.purpose = .msix then s1 else s1.noteWrite w.source w.address).tryFlush w.source

end Sys2Proof.Machine
end

