-- ==== Sys2Proof/Machine/FabricSend.lean ====
section
/-!
DEFINITION. The sending side of the fabric transport: peers, headers, streams, spraying and the issue of operations
(R318 to R328, R334, R337).
-/

namespace Sys2Proof.Machine

/-! ### Global addresses and peers (R318, R319) -/

def gaModule (a : Nat) : Nat := bits a 63 48
def gaRegion (a : Nat) : Nat := bits a 47 36
def gaOffset (a : Nat) : Nat := bits a 35 0

def peerModule (r : Nat) : Nat := bits r 127 112
def peerSpray (r : Nat) : Nat := bits r 111 92
def peerMac (r : Nat) : Nat := bits r 91 44

/-- This module's identity on the fabric. -/
def State.moduleId (s : State) : Nat := s.act 0x8000 0 0

/-- The peers a version declares, with their index. -/
def peersOf (t : Tab Nat) : List (Nat × Nat) := (List.range (getRec t 0x8011 0 0)).map (fun i => (i, getRec t 0x8010 0 i))

/-- The Peers record of a module. -/
def State.peerOf (s : State) (module' : Nat) : Option (BitVec 12) :=
  ((peersOf s.vers.active).find? (fun p => peerModule p.2 == module')).map (fun p => BitVec.ofNat 12 p.1)

def Peer.stream (p : Peer) (cls : BitVec 2) : Stream := Tab.get {} p.streams cls.toNat
def Peer.setStream (p : Peer) (cls : BitVec 2) (v : Stream) : Peer := { p with streams := Tab.set {} p.streams cls.toNat v }

/-- The window of a class in packets (0x8051). -/
def State.classWindow (s : State) (cls : BitVec 2) : Nat := s.act 0x8051 (cls.toNat + 1) 0

/-- Advance a counter of 0x8060 FabricStats. -/
def State.fabricStat (s : State) (place : Nat) : State :=
  { s with fabric := { s.fabric with stats := Tab.upd 0 s.fabric.stats place (· + 1) } }

/-! ### Permissions at the sender (R333, R334) -/

def grantFirst (r : Nat) : Nat := bits r 127 112
def grantLast (r : Nat) : Nat := bits r 111 96
def grantRegion (r : Nat) : Nat := bits r 95 84
def grantKind (r : Nat) : Nat := bits r 83 82
def grantInstance (r : Nat) : Nat := bits r 81 72
def grantOwner (r : Nat) : Bool := bit r 71

/-- Whether an owner's grant records allow an operation on a global address: a READ needs a record, every other operation
one with Owner = 1 (R334). -/
def State.granted (s : State) (f : Source) (address : Nat) (read : Bool) : Bool :=
  decide (gaRegion address ≠ 0xFFF) &&
  (List.range (s.obj 0x8021 0 0)).any (fun i =>
    let r := s.obj 0x8020 0 i
    decide (grantFirst r ≤ gaModule address ∧ gaModule address ≤ grantLast r ∧ grantRegion r = gaRegion address) &&
    (match f with
     | .provider => grantKind r == 0
     | .inst n => grantKind r == 1 && grantInstance r == n.toNat) &&
    (read || grantOwner r))

/-! ### Headers (R321, R322) -/

/-- The fields of an Enalup header. -/
structure Header where
  version : Nat := 1
  kind : Nat
  cls : BitVec 2
  opcode : Nat := 0
  source : Nat
  dest : Nat
  sourceInc : Nat
  destInc : Nat
  psn : W32 := 0
  ackPsn : W32 := 0
  request : W16 := 0
  address : W64 := 0
  operand1 : W64 := 0
  operand2 : W64 := 0
  lines : Nat := 0
  port : Nat := 0
  status : BitVec 8 := 0
  poison : Bool := false
  retry : Bool := false
  ackValid : Bool := false
  reserved : Nat := 0
deriving DecidableEq, Repr

/-- The header as the number its 48 bytes spell, most significant first. -/
def Header.encode (h : Header) : BitVec 384 :=
  BitVec.ofNat 384 (h.version % 16 * 2 ^ 380 + h.kind % 16 * 2 ^ 376 + h.cls.toNat * 2 ^ 374 + h.opcode % 64 * 2 ^ 368 +
    h.source % 65536 * 2 ^ 352 + h.dest % 65536 * 2 ^ 336 + h.sourceInc % 65536 * 2 ^ 320 + h.destInc % 65536 * 2 ^ 304 +
    h.psn.toNat * 2 ^ 272 + h.ackPsn.toNat * 2 ^ 240 + h.request.toNat * 2 ^ 224 + h.address.toNat * 2 ^ 160 +
    h.operand1.toNat * 2 ^ 96 + h.operand2.toNat * 2 ^ 32 + h.lines % 128 * 2 ^ 25 + h.port % 32 * 2 ^ 20 +
    h.status.toNat * 2 ^ 12 + b2n h.poison * 2 ^ 11 + b2n h.retry * 2 ^ 10 + b2n h.ackValid * 2 ^ 9 + h.reserved % 512)

/-- The fields of a header. -/
def Header.decode (x : BitVec 384) : Header :=
  let n := x.toNat
  { version := bits n 383 380, kind := bits n 379 376, cls := BitVec.ofNat 2 (bits n 375 374), opcode := bits n 373 368,
    source := bits n 367 352, dest := bits n 351 336, sourceInc := bits n 335 320, destInc := bits n 319 304,
    psn := BitVec.ofNat 32 (bits n 303 272), ackPsn := BitVec.ofNat 32 (bits n 271 240), request := BitVec.ofNat 16 (bits n 239 224),
    address := BitVec.ofNat 64 (bits n 223 160), operand1 := BitVec.ofNat 64 (bits n 159 96),
    operand2 := BitVec.ofNat 64 (bits n 95 32), lines := bits n 31 25, port := bits n 24 20,
    status := BitVec.ofNat 8 (bits n 19 12), poison := bit n 11, retry := bit n 10, ackValid := bit n 9, reserved := bits n 8 0 }

/-- The header this module puts on a packet to a peer, with the cumulative acknowledgement of the reverse stream. -/
def State.headerTo (s : State) (p : BitVec 12) (kind : Nat) (cls : BitVec 2) : Header :=
  let x := s.peer p
  let st := x.stream cls
  { kind, cls, source := s.moduleId, dest := peerModule (s.act 0x8010 0 p.toNat), sourceInc := s.fabric.incarnation.toNat,
    destInc := x.remoteIncarnation.toNat, ackPsn := st.expect - 1, ackValid := st.expect != 0 }

/-! ### Ports (R278, R321, R326) -/

/-- The queue of a class on a fabric port: 3 RAN, 2 ADMIN, 1 MIRROR, 0 INFERENCE (R278). -/
def classQueue (cls : BitVec 2) : Nat := match cls.toNat with | 0 => 3 | 1 => 0 | 2 => 2 | _ => 1

def fabricPort (n : Nat) : Fin 84 := ⟨64 + n % 20, by omega⟩

/-- The counted length of a frame: its bytes, padded to the minimum frame, the FCS, what MACsec adds, and the port's
Overhead (R264, R276, R285). -/
def State.countedLength (s : State) (p : Fin 84) (bytes : List Byte) : Nat :=
  let overhead := if p.val < 64 then bits (s.act 0x6001 0 p.val) 47 42 else bits (s.act 0x6002 0 (p.val - 64)) 78 73
  let sec := if bit (s.act 0x6050 0 p.val) 63 then 32 else 0
  Nat.max (bytes.length + 4) 64 + sec + overhead

/-- Counted bytes queued on a port in a queue. -/
def State.queuedBytes (s : State) (p : Fin 84) (q : Nat) : Nat :=
  (Tab.get [] (s.port p).queues q).foldl (fun a f => a + s.countedLength p f.bytes) 0

/-- The UP ports of a peer's spray set. -/
def State.sprayPorts (s : State) (p : BitVec 12) : List Nat :=
  (List.range 20).filter (fun n => bit (peerSpray (s.act 0x8010 0 p.toNat)) n && (s.port (fabricPort n)).state == .up)

/-- The port with the fewest queued bytes of the class, the lowest-numbered on a tie; one port is avoided where another is
UP (R326). -/
def State.choosePort (s : State) (p : BitVec 12) (cls : BitVec 2) (avoid : Option Nat) : Option Nat :=
  let ports := s.sprayPorts p
  let cand := match avoid with
    | none => ports
    | some a => if (ports.filter (fun n => n ≠ a)).isEmpty then ports else ports.filter (fun n => n ≠ a)
  cand.foldl (fun best n =>
    match best with
    | none => some n
    | some b => if s.queuedBytes (fabricPort n) (classQueue cls) < s.queuedBytes (fabricPort b) (classQueue cls) then some n
                else best) none

/-- The frame of a packet on a port (R321). -/
def State.packetFrame (s : State) (p : BitVec 12) (n : Nat) (h : Header) (payload : List Byte) : List Byte :=
  beBytes 6 (peerMac (s.act 0x8010 0 p.toNat) + n) ++ beBytes 6 (bits (s.act 0x6002 0 n) 127 80) ++ beBytes 2 0x88B5 ++
  beBytes 48 ({ h with port := n } : Header).encode.toNat ++ payload

/-- Put a frame at the end of a port's queue. -/
def State.enqueue (s : State) (p : Fin 84) (q : Nat) (bytes : List Byte) (origin : FrameOrigin) : State :=
  let x := s.port p
  s.setPort p { x with queues := Tab.set [] x.queues q (Tab.get [] x.queues q ++ [{ bytes, origin, queuedAt := s.ns }]) }

/-- Queue a packet on a port; nothing is queued once the module is fenced or expelled (R422, R423). -/
def State.queuePacket (s : State) (p : BitVec 12) (n : Nat) (queueCls : BitVec 2) (h : Header) (payload : List Byte) : State :=
  if s.noWork then s
  else
    let s1 := s.enqueue (fabricPort n) (classQueue queueCls) (s.packetFrame p n h payload) (.enalup queueCls)
    (s1.setPeer p { s1.peer p with lastSent := s1.time.ticks }).fabricStat 0

/-- Send a packet that takes no PSN (REPLY, ACK in its stream's class; KEEPALIVE and RESET in ADMIN) (R328). -/
def State.sendUnnumbered (s : State) (p : BitVec 12) (queueCls : BitVec 2) (h : Header) (payload : List Byte) : State :=
  match s.choosePort p queueCls none with
  | none => s
  | some n => s.queuePacket p n queueCls h payload

/-- Send a REQUEST packet with the stream's next PSN; it is kept until acknowledged (R324, R325). The result is its PSN, or
none where the window is full or no port is UP. -/
def State.sendRequest (s : State) (p : BitVec 12) (h : Header) (payload : List Byte) : State × Option W32 :=
  let st := (s.peer p).stream h.cls
  if s.classWindow h.cls ≤ st.unacked.length ∨ s.noWork then (s, none)
  else
    match s.choosePort p h.cls none with
    | none => (s, none)
    | some n =>
      let h' := { h with psn := st.nextPsn }
      let s1 := s.queuePacket p n h.cls h' payload
      let pk : Packet := { psn := st.nextPsn, header := h'.encode, payload, port := BitVec.ofNat 5 n, sentAt := s.time.ticks }
      let x := s1.peer p
      (s1.setPeer p (x.setStream h.cls { st with nextPsn := st.nextPsn + 1, unacked := st.unacked ++ [pk] }), some st.nextPsn)

/-! ### Operations (R323, R330, R337) -/

def opRead : Nat := 1
def opWrite : Nat := 2
def opFetchAdd : Nat := 3
def opSwap : Nat := 4
def opCas : Nat := 5
def opNotify : Nat := 6

/-- Whether an opcode takes a reply, and so a RequestId. -/
def opReplies (op : Nat) : Bool := op == opRead || op == opFetchAdd || op == opSwap || op == opCas

/-- The request header of an operation. -/
def State.opHeader (s : State) (p : BitVec 12) (o : FabricOp) : Header :=
  { s.headerTo p 0 o.cls with opcode := o.opcode.toNat, request := o.request, address := o.address, operand1 := o.operand1,
                              operand2 := o.operand2, lines := o.payload.length / 64 + (if o.opcode = 1 then o.lines.toNat else 0),
                              poison := o.poison }

/-- The context that an operation belongs to. -/
def FabricUse.context : FabricUse → Option ContextId
  | .tender _ c | .port _ c _ _ | .send _ c _ _ => some c
  | .mirror _ => none

/-- The instance an operation is caused by, with the generation it carries (R354). (DEDUCED, assumption 172) -/
def State.useGeneration (s : State) (u : FabricUse) : Option (InstanceId × W16) :=
  (u.context.bind s.ctxInst).map (fun n => (n, (s.inst n).generation))

/-- Whether an operation is of an older generation than its instance's (R354). -/
def State.staleOp (s : State) (o : FabricOp) : Bool := o.inst.any (fun q => decide (q.2 ≠ (s.inst q.1).generation))

/-- The stale operations of a class toward a peer that have not been sent are dropped and counted in StaleDropped (R354). -/
def State.dropStaleOps (s : State) (p : BitVec 12) (cls : BitVec 2) : State :=
  let x := s.peer p
  let stale := x.ops.filter (fun o => !o.sent && o.cls == cls && s.staleOp o)
  if stale.isEmpty then s
  else (stale.filterMap (fun o => o.inst)).foldl (fun s q => s.countStale (.inst q.1))
    (s.setPeer p { x with ops := x.ops.filter (fun o => !stale.contains o) })

/-- Send the first operation toward a peer and class that has not been sent, if its window allows, and so on; `fuel` bounds
the number of packets. Operations of a stream are sent in issue order; the transport unit is the last point at which a request's generation
is compared (R354). -/
def State.pump (s : State) (p : BitVec 12) (cls : BitVec 2) : Nat → State
  | 0 => s
  | fuel + 1 =>
    let s0 := s.dropStaleOps p cls
    match (s0.peer p).ops.find? (fun o => !o.sent && o.cls == cls) with
    | none => s0
    | some o =>
      match s0.sendRequest p (s0.opHeader p o) o.payload with
      | (_, none) => s0
      | (s1, some psn) =>
        let x := s1.peer p
        let s2 := s1.setPeer p { x with ops := x.ops.map (fun q =>
          if q.id = o.id then { q with sent := true, psn } else q) }
        s2.pump p cls fuel

/-- Issue an operation toward a peer: READs and atomics are numbered in issue order, at most 128 of them incomplete
(R337). The flag is false where the peer holds its full number, and the operation is not issued. (DEDUCED, assumption 92) -/
def State.issueOp (s : State) (p : BitVec 12) (o : FabricOp) : State × Bool :=
  let x := s.peer p
  let numbered := opReplies o.opcode.toNat
  if numbered ∧ 128 ≤ (x.ops.filter (fun q => opReplies q.opcode.toNat)).length then (s, false)
  else
    let o' := { o with id := s.fabric.nextOp, request := if numbered then x.nextRequest else 0, issuedAt := s.time.ticks,
                       sent := false, acked := false, inst := s.useGeneration o.use }
    let s1 := s.setPeer p { x with ops := x.ops ++ [o'], nextRequest := if numbered then x.nextRequest + 1 else x.nextRequest }
    let s2 := { s1 with fabric := { s1.fabric with nextOp := s1.fabric.nextOp + 1 } }
    (s2.pump p o.cls 1, true)

/-- The die that holds a peer's streams: L0 for an even record, L1 for an odd one (R320). -/
def homeDie (p : BitVec 12) : Nat := p.toNat % 2

end Sys2Proof.Machine
end

