-- ==== Sys2Proof/Machine/Memory.lean ====
section
/-!
DEFINITION. The memory tiers as the other units use them: the interleave, decoding of segments, line reads, held and applied
writes, mirroring of writes, region checks (R290 to R313, R341).
-/

namespace Sys2Proof.Machine

/-! ### The interleave (R290, R292) -/

def dieBase (die : Nat) : Nat := if die = 0 then 0 else 0x004000000000
/-- 7.75 GiB: what one working channel holds. -/
def channelBytes : Nat := 31 * 1048576 * 256

/-- The working channels of a die in ascending order: those that did not fail training (R292, R317). -/
def State.working (s : State) (die : Nat) : List Nat :=
  ((List.range 24).map (24 * die + ·)).filter (fun c => (Tab.get {} s.mem.channels c).state ≠ .failedTraining)

/-- The usable capacity of a die's near range (R292). -/
def State.nearCapacity (s : State) (die : Nat) : Nat := channelBytes * (s.working die).length

/-- The die of a populated near address. -/
def State.nearDie (s : State) (x : Nat) : Option Nat :=
  if x < s.nearCapacity 0 then some 0
  else if dieBase 1 ≤ x ∧ x < dieBase 1 + s.nearCapacity 1 then some 1
  else none

/-- The channel and channel segment of a near address (R292). (DEDUCED, assumption 88) -/
def State.interleave (s : State) (die x : Nat) : Fin 48 × Nat :=
  let w := s.working die
  let seg := (x - dieBase die) / 256
  let q := seg / w.length
  (Fin.ofNat 48 (w.getD ((seg + q) % w.length) 0), q)

/-- The address of a channel's segment: the inverse of the interleave; none where the channel does not work or the segment
lies beyond it. -/
def State.segmentAddress (s : State) (c : Fin 48) (t : Nat) : Option Nat :=
  let die := c.val / 24
  let w := s.working die
  if w.contains c.val ∧ t < 31 * 1048576 then
    let n := w.length
    some (dieBase die + 256 * (t * n + (w.idxOf c.val + n - t % n) % n))
  else none

/-- The far port and whether a far address is mapped (R290, R312). -/
def State.farPortOf (s : State) (x : Nat) : Option (Fin 2) :=
  let b0 := 0x010000000000
  let b1 := 0x050000000000
  let cap := fun (n : Nat) => 2 ^ 28 * (Tab.get {} s.mem.farPorts n).mapped.toNat
  if s.mem.interleaved then
    if b0 ≤ x ∧ x < b0 + cap 0 + cap 1 then some (if (x - b0) / 256 % 2 = 0 then 0 else 1) else none
  else if b0 ≤ x ∧ x < b0 + cap 0 then some 0
  else if b1 ≤ x ∧ x < b1 + cap 1 then some 1
  else none

/-! ### Errors and their events (R315) -/

/-- Advance a channel's MemoryErrors counter: 0 InnerCorrected, 1 OuterCorrected, 2 Uncorrectable, 3 MarkersRead, 4 Replays,
5 PatrolCorrected, 6 PatrolUncorrectable, 7 PartialWritesRefused. -/
def State.memError (s : State) (c : Fin 48) (place : Nat) : State :=
  s.setChannel c { s.channel c with errors := Tab.upd 0 (s.channel c).errors place (· + 1) }

/-- An event of the near tier: channel, channel segment, symbols, requester, class, device temperature (R315). -/
def State.memEvent (s : State) (c : Fin 48) (t kind : Nat) (symbols : List Nat) (u : UnitId) (cls : BitVec 2) : State :=
  s.raise { area := 0x70, kind, unit := channelUnit c, detail := [(8, c.val), (32, t),
    (32, symbols.take 4 |>.foldl (fun a m => a * 256 + m) 0), (16, u.toNat), (8, cls.toNat), (8, (s.channel c).temperature.toNat)] }

/-! ### Decoding a segment (R294, R295) -/

/-- How a segment decodes. -/
inductive SegOutcome where
  | data | miscorrected (bytes : Nat) | lost | poisoned | uncorrectable
deriving DecidableEq, Repr

/-- The poison flag and status a line of a segment comes back with (R295). -/
def SegOutcome.status : SegOutcome → BitVec 8
  | .data | .miscorrected _ => stDone
  | .lost | .uncorrectable => stDataLost
  | .poisoned => stPoisoned

/-- What the writes merged into a segment are acknowledged with: DATA_LOST where it holds no valid data (R301). -/
def SegOutcome.mergeStatus : SegOutcome → BitVec 8
  | .data | .miscorrected _ => stDone
  | _ => stDataLost

/-- Decode the segment at a module address: one erroneous symbol is corrected, two or three are always detected, and four or
more may be miscorrected, which is open (R294); the counters and events of R315 and the LOST marker of R295.
(DESIGN CHOICE, assumption 85) -/
def State.decodeSegment (s : State) (c : Fin 48) (t address : Nat) (u : UnitId) (cls : BitVec 2) : State × SegOutcome :=
  let lose := fun (s : State) (sy : List Nat) =>
    (({ s with mem := { s.mem with marks := Tab.set .good s.mem.marks (address / 256) .lost } }.memError c 2).memEvent c t 0x06 sy u cls,
      SegOutcome.uncorrectable)
  match Tab.get .good s.mem.marks (address / 256) with
  | .good => (s, .data)
  | .lost => ((s.memError c 3).memEvent c t 0x05 [] u cls, .lost)
  | .poisoned => ((s.memError c 3).memEvent c t 0x05 [] u cls, .poisoned)
  | .errors sy =>
    let k := sy.eraseDups.length
    if k = 0 then (s, .data)
    else if k = 1 then ((s.memError c 1).memEvent c t 0x01 sy u cls, .data)
    else if k ≤ 3 then lose s sy
    else
      let d := s.draw
      if d.1 % 2 = 0 then lose d.2 sy
      else
        let b := d.2.draw
        (b.2, .miscorrected b.1)

/-! ### Line reads (R291, R295, R297, R298, R300, R313) -/

/-- A delivered line: its bytes, the poison flag, and the status to the requester. -/
structure Line where
  bytes : List Byte
  poison : Bool := false
  status : BitVec 8 := 0
deriving DecidableEq, Repr

/-- A line of all ones with the poison flag. -/
def poisonLine (status : BitVec 8) : Line := { bytes := List.replicate 64 0xFF, poison := true, status }

/-- The writes held for a segment of a channel (R299). -/
def Channel.held (x : Channel) (t : Nat) : Option HeldWrite := x.queue.find? (fun h => h.segment == t)

/-- Bytes of memory with the held writes of their segment laid over them (R300). -/
def overlay (h : Option HeldWrite) (bytes : List Byte) (offset : Nat) : List Byte :=
  match h with
  | none => bytes
  | some w => (bytes.zipIdx offset).map (fun p => match Tab.get none w.bytes p.2 with | some b => b | none => p.1)

/-- Whether a segment is in its channel's segment buffer: decoded within 64 controller cycles, 36.57 ns (R298). -/
def State.buffered (s : State) (c : Fin 48) (t : Nat) : Bool :=
  match (s.channel c).buffer with
  | none => false
  | some (b, tick) => b == t && decide (s.time.ticks ≤ tick + 28)

/-- Read one line of a near segment through its controller (R295, R297, R298, R300). -/
def State.readNearLine (s : State) (c : Fin 48) (t address : Nat) (u : UnitId) (cls : BitVec 2) : State × Line :=
  let x := s.channel c
  let deliver := fun (s : State) => overlay ((s.channel c).held t) (Tab.readBytes s.mem.near address 64) (address % 256)
  if x.state = .failed then (s, poisonLine stDataLost)
  else if s.buffered c t ∧ Tab.get .good s.mem.marks (address / 256) = .good then (s, { bytes := deliver s })
  else
    let q := s.decodeSegment c t address u cls
    match q.2 with
    | .data =>
      let s1 := q.1.setChannel c { q.1.channel c with buffer := some (t, q.1.time.ticks) }
      (s1, { bytes := deliver s1 })
    | .miscorrected v => (q.1, { bytes := overlay ((q.1.channel c).held t) (leBytes 64 v) (address % 256) })
    | o => (q.1, poisonLine o.status)

/-- An access to an unmapped or unpopulated address (R291). -/
def State.unmapped (s : State) (address : Nat) (u : UnitId) : State :=
  s.raise { area := 0x70, kind := 0x7E, unit := u, status := stDataLost, detail := [(64, address)] }

/-- Read the 64-byte line at an aligned module address, from either tier (R291, R295, R313). -/
def State.readLine (s : State) (address : Nat) (u : UnitId) (cls : BitVec 2) : State × Line :=
  match s.nearDie address with
  | some die => let ct := s.interleave die address; s.readNearLine ct.1 ct.2 address u cls
  | none =>
    match s.farPortOf address with
    | none => (s.unmapped address u, poisonLine stDataLost)
    | some p =>
      if (Tab.get {} s.mem.farPorts p.val).state ≠ .up ∨ s.integ.fenced then (s, poisonLine stDataLost)
      else if Tab.get false s.mem.farPoison (address / 64) then
        (s.raise { area := 0x70, kind := 0x05, unit := unitId 0x0D p.val, status := stDataLost }, poisonLine stDataLost)
      else (s, { bytes := Tab.readBytes s.mem.far address 64 })

/-- Read a number of consecutive lines; `n` counts lines. (DEDUCED, assumption 87) -/
def State.readLines (s : State) (address : Nat) (u : UnitId) (cls : BitVec 2) : Nat → State × List Line
  | 0 => (s, [])
  | n + 1 =>
    let a := s.readLine address u cls
    let b := a.1.readLines (address + 64) u cls n
    (b.1, a.2 :: b.2)

/-- Read a span of bytes: the bytes, and the statuses of the lines it touches other than DONE. (DESIGN CHOICE, assumption 8) -/
def State.readSpan (s : State) (address length : Nat) (u : UnitId) (cls : BitVec 2) : State × List Byte × List (BitVec 8) :=
  if length = 0 then (s, [], [])
  else
    let first := address / 64 * 64
    let r := s.readLines first u cls (ceilDiv (address % 64 + length) 64)
    (r.1, ((r.2.flatMap (·.bytes)).drop (address % 64)).take length, (r.2.map (·.status)).filter (fun st => st ≠ stDone))

/-! ### Mirroring of applied writes (R341, R342) -/

def mirEnable (r : Nat) : Bool := bit r 63
def mirRegion (r : Nat) : Nat := bits r 62 51
def mirPartner (r : Nat) : Nat := bits r 50 35
def mirPartnerRegion (r : Nat) : Nat := bits r 34 23

/-- The active mirror record that covers a module address. -/
def State.mirrorOf (s : State) (address : Nat) : Option Nat :=
  (List.range (s.act 0x8041 0 0)).find? (fun i =>
    let r := s.act 0x8040 0 i
    mirEnable r && Tab.get MirrorState.active s.fabric.mirrors i == .active && regHolds (regionOf s.vers.active (mirRegion r)) address 1)

/-- The oldest acknowledgement that waits for the mirror of a segment is given to its channel (R341). -/
def State.releaseMirror (s : State) (segment : Nat) : State :=
  match s.mem.mirrorAcks.find? (fun a => a.1 == segment) with
  | none => s
  | some a =>
    let s1 := { s with mem := { s.mem with mirrorAcks := s.mem.mirrorAcks.erase a } }
    match s.nearDie (256 * segment) with
    | none => s1
    | some die =>
      let c := (s.interleave die (256 * segment)).1
      s1.setChannel c { s1.channel c with lastAck := some a.2 }

/-- A mirror record becomes BROKEN: an event is raised, its mirror writes are given up, and the writes that waited for them are
acknowledged (R342). -/
def State.breakMirror (s : State) (record : Nat) : State :=
  if Tab.get MirrorState.active s.fabric.mirrors record ≠ .active then s
  else
    let gone := s.fabric.mirrorWaiting.filter (fun w => w.record == record)
    let f := { s.fabric with mirrors := Tab.set .active s.fabric.mirrors record .broken,
                             mirrorWaiting := s.fabric.mirrorWaiting.filter (fun w => w.record ≠ record) }
    gone.foldl (fun s w => s.releaseMirror (w.address / 256))
      ({ s with fabric := f }.raise { area := 0x80, kind := 0x10, detail := [(16, record)] })

/-- Send the mirror writes that wait for no earlier write to their segment (R341). `fuel` bounds their number. (DEDUCED, assumption 99) -/
def State.pumpMirrors (s : State) : Nat → State
  | 0 => s
  | fuel + 1 =>
    let ws := s.fabric.mirrorWaiting
    match (ws.zipIdx).find? (fun w => !w.1.sent && !((ws.take w.2).any (fun v => v.address / 256 == w.1.address / 256))) with
    | none => s
    | some (w, k) =>
      let r := s.act 0x8040 0 w.record
      let off := w.address - regBase (regionOf s.vers.active (mirRegion r))
      match s.peerOf (mirPartner r) with
      | none => s
      | some p =>
        let target := mirPartner r * 2 ^ 48 + mirPartnerRegion r * 2 ^ 36 + off
        let mask : W64 := if w.poison then BitVec.ofNat 64 (2 ^ (w.bytes.length / 64) - 1) else 0
        let o : FabricOp :=
          { request := 0, opcode := 2, cls := 3, use := FabricUse.mirror w.record, issuedAt := 0,
            address := BitVec.ofNat 64 target, payload := w.bytes, operand1 := mask, poison := w.poison }
        if s.granted .provider target false = false then
          ((s.raise { area := 0x80, kind := 0x28, status := stSecurity, detail := [(64, target)] }).breakMirror w.record).pumpMirrors fuel
        else
          let q := s.issueOp p o
          let s1 := { q.1 with fabric := { q.1.fabric with mirrorWaiting := ws.set k { w with sent := true } } }
          s1.pumpMirrors fuel

/-- The bytes either tier holds, as they stand. -/
def State.storedBytes (s : State) (address n : Nat) : List Byte :=
  if (s.nearDie address).isSome then Tab.readBytes s.mem.near address n else Tab.readBytes s.mem.far address n

/-- Note an applied write of a mirrored region: the lines it touched, as they now stand, go to the partner (R341). -/
def State.mirrorWrite (s : State) (address length : Nat) (poison : Bool) : State :=
  match s.mirrorOf address with
  | none => s
  | some i =>
    let first := address / 64 * 64
    let n := ceilDiv (address % 64 + length) 64 * 64
    let w : MirrorWrite := { record := i, address := first, bytes := s.storedBytes first n, poison }
    { s with fabric := { s.fabric with mirrorWaiting := s.fabric.mirrorWaiting ++ [w] } }.pumpMirrors 4

/-! ### Applied writes (R299, R301) -/

/-- The state with bytes of near memory written and their segment's marker set. -/
def State.putNear (s : State) (address : Nat) (bytes : List Byte) (mark : SegMark) : State :=
  { s with mem := { s.mem with near := Tab.writeBytes s.mem.near address bytes,
                               marks := Tab.set .good s.mem.marks (address / 256) mark } }

/-- The acknowledgement of `count` writes to a segment: given at once, or once the partner has acknowledged the mirror
write of a mirrored region (R299, R341). -/
def State.ackWrites (s : State) (c : Fin 48) (t count : Nat) (status : BitVec 8) (mirrored : Option Nat) : State :=
  let a : WriteAck := { segment := t, count, status }
  match mirrored with
  | some address => { s with mem := { s.mem with mirrorAcks := s.mem.mirrorAcks ++ [(address / 256, a)] } }
  | none => s.setChannel c { s.channel c with lastAck := some a }

/-- Write a segment's held bytes, complete or merged, and acknowledge its writes with DONE: poison makes the whole segment
POISONED (R299). -/
def State.commitSegment (s : State) (c : Fin 48) (t address : Nat) (h : HeldWrite) : State :=
  let bytes := overlay (some h) (Tab.readBytes s.mem.near (address / 256 * 256) 256) 0
  let s1 := s.setChannel c { s.channel c with queue := (s.channel c).queue.filter (fun q => q.segment ≠ t) }
  let s2 := s1.putNear (address / 256 * 256) bytes (if h.poison then .poisoned else .good)
  let s3 := s2.mirrorWrite (address / 256 * 256) 256 h.poison
  let m := s3.mirrorOf (address / 256 * 256)
  s3.ackWrites c t h.waiting stDone (m.map (fun _ => address / 256 * 256))

/-- Drop a segment's held writes and acknowledge them with DATA_LOST (R301). -/
def State.refuseSegment (s : State) (c : Fin 48) (t : Nat) (h : HeldWrite) : State :=
  let s1 := (s.setChannel c { s.channel c with queue := (s.channel c).queue.filter (fun q => q.segment ≠ t) }).memError c 7
  s1.ackWrites c t h.waiting stDataLost none

/-- The merge read of a partial segment is decoded: the queued bytes are merged, or refused where the segment holds no valid
data (R299, R301). -/
def State.mergeSegment (s : State) (c : Fin 48) (t address : Nat) (h : HeldWrite) (u : UnitId) : State :=
  let q := s.decodeSegment c t address u h.cls
  match q.2 with
  | .data => q.1.commitSegment c t address h
  | .miscorrected v =>
    let base := address / 256 * 256
    (q.1.putNear base (leBytes 256 v) .good).commitSegment c t address h
  | _ => q.1.refuseSegment c t h

/-- Whether a held write covers all 256 bytes of its segment. -/
def HeldWrite.complete (h : HeldWrite) : Bool := h.bytes.length == 256

/-- Add a write's bytes to the writes held for its segment, whose merge read is of the class of the last of them (R32); the hold runs
from the first of them. -/
def holdWrite (h : Option HeldWrite) (t offset : Nat) (data : List Byte) (poison : Bool) (cls : BitVec 2) (now : Nat) : HeldWrite :=
  let o := h.getD { segment := t, bytes := [], poison := false, waiting := 0, since := now }
  { o with cls, bytes := (data.zipIdx offset).foldl (fun b p => Tab.set none b p.2 (some p.1)) o.bytes,
           poison := o.poison || poison, waiting := o.waiting + 1 }

/-- A write is accepted into its controller's queue: dropped and counted when stale, refused on a FAILED channel or an
unpopulated address, written at once when it completes its segment, else held (R299, R301, R354, R359). -/
def State.acceptWrite (s : State) (c : Fin 48) (t : Nat) (w : MemWrite) : State :=
  let stale := match w.inst with | some (n, g) => decide (g ≠ (s.inst n).generation) | none => false
  match s.segmentAddress c t with
  | none => (s.unmapped (t * 256) w.requester).ackWrites c t 1 stDataLost none
  | some address =>
    if stale then
      (match w.inst with | some (n, _) => s.countStale (.inst n) | none => s).ackWrites c t 1 stDone none
    else
      let s1 := s.markDevice address
      if (s1.channel c).state = .failed then s1.ackWrites c t 1 stDataLost none
      else
        let h := holdWrite ((s1.channel c).held t) t w.offset.toNat (w.data.take (256 - w.offset.toNat)) w.poison w.cls s1.time.ticks
        if h.complete then s1.commitSegment c t address h
        else
          let x := s1.channel c
          s1.setChannel c { x with queue := x.queue.filter (fun q => q.segment ≠ t) ++ [h] }

/-! ### Whole writes of other units -/

/-- Write bytes within one near segment with the whole course of R299 and R301 taken at once; the status it is acknowledged
with. Writes already held for the segment go with it, since they took effect before it (R300). -/
def State.writeInSegment (s : State) (address : Nat) (bytes : List Byte) (poison : Bool) (u : UnitId) (cls : BitVec 2) :
    State × BitVec 8 :=
  match s.nearDie address with
  | none => (s.unmapped address u, stDataLost)
  | some die =>
    let ct := s.interleave die address
    let s1 := s.markDevice address
    if (s1.channel ct.1).state = .failed then (s1, stDataLost)
    else
      let h := holdWrite ((s1.channel ct.1).held ct.2) ct.2 (address % 256) bytes poison cls s1.time.ticks
      if h.complete then (s1.commitSegment ct.1 ct.2 address h, stDone)
      else
        (s1.mergeSegment ct.1 ct.2 address h u, (s1.decodeSegment ct.1 ct.2 address u cls).2.mergeStatus)

/-- Write bytes to far memory (R313). -/
def State.writeFar (s : State) (address : Nat) (bytes : List Byte) (poison : Bool) (u : UnitId) : State × BitVec 8 :=
  match s.farPortOf address with
  | none => (s.unmapped address u, stDataLost)
  | some p =>
    if (Tab.get {} s.mem.farPorts p.val).state ≠ .up ∨ s.integ.fenced then (s, stDataLost)
    else
      let s1 := s.markDevice address
      let lines := (List.range (ceilDiv (address % 64 + bytes.length) 64)).map (address / 64 + ·)
      let whole := fun (l : Nat) => decide (address ≤ 64 * l ∧ 64 * l + 64 ≤ address + bytes.length)
      let m1 := { s1.mem with far := Tab.writeBytes s1.mem.far address bytes,
                              farPoison := lines.foldl (fun t l => Tab.set false t l (poison || (Tab.get false t l && !whole l))) s1.mem.farPoison }
      ({ s1 with mem := m1 }.mirrorWrite address bytes.length poison, stDone)

/-- Write a span of bytes at a module address, segment by segment; `fuel` bounds the segments. The statuses other than
DONE are returned. (DEDUCED, assumption 38) -/
def State.writeSpan (s : State) (address : Nat) (bytes : List Byte) (poison : Bool) (u : UnitId) (cls : BitVec 2) :
    Nat → State × List (BitVec 8)
  | 0 => (s, [])
  | fuel + 1 =>
    if bytes.isEmpty then (s, [])
    else
      let n := 256 - address % 256
      let a := if (s.nearDie address).isSome then s.writeInSegment address (bytes.take n) poison u cls
               else s.writeFar address (bytes.take n) poison u
      let b := a.1.writeSpan (address + n) (bytes.drop n) poison u cls fuel
      (b.1, (if a.2 = stDone then [] else [a.2]) ++ b.2)

/-- Write a span of bytes of any length, as a unit's transfer of a class (R32). -/
def State.writeBytes (s : State) (address : Nat) (bytes : List Byte) (poison : Bool) (u : UnitId) (cls : BitVec 2) :
    State × List (BitVec 8) :=
  s.writeSpan address bytes poison u cls (bytes.length / 256 + 2)

/-! ### Region checks (R306, R309) -/

/-- Half of the RAN-reserved region, in bytes (R309). -/
def State.ranHalf (s : State) : Nat := s.act 0x7020 0 0 * 2 ^ 19

/-- The module address of an offset of the RAN-reserved region (R309). -/
def State.ranAddress (s : State) (offset : Nat) : Nat :=
  if offset < s.ranHalf then s.nearCapacity 0 - s.ranHalf + offset
  else dieBase 1 + s.nearCapacity 1 - s.ranHalf + (offset - s.ranHalf)

/-- The spans (base, length) a context may read or write (R306). -/
def State.allowedSpans (s : State) (c : ContextId) (write : Bool) : List (Nat × Nat) :=
  let mine := s.regionsServed.filter (fun p => (Tab.get {} s.mem.regions p.1).phase != .clearing &&
    (match s.ctxSource c with
     | .inst n => (regOwnerKind p.2 == 1 && regInstance p.2 == n.toNat && !(write && regReadOnly p.2)) || (regShared p.2 && !write)
     | .provider => regOwnerKind p.2 == 0))
  mine.map (fun p => (regBase p.2, regBytes p.2)) ++
    (if s.ctxClass c = 0 then [(s.ranAddress 0, s.ranHalf), (s.ranAddress s.ranHalf, s.ranHalf)] else [])

/-- Whether allowed spans cover an address range; each turn of `fuel` crosses one span. -/
def covered (spans : List (Nat × Nat)) (address length : Nat) : Nat → Bool
  | 0 => false
  | fuel + 1 =>
    match spans.find? (fun p => decide (p.1 ≤ address ∧ address < p.1 + p.2)) with
    | none => false
    | some p => if address + length ≤ p.1 + p.2 then true else covered spans (p.1 + p.2) (address + length - (p.1 + p.2)) fuel

/-- The check of a module-address access made for a context (R306). -/
def State.regionAllows (s : State) (c : ContextId) (address length : Nat) (write : Bool) : Bool :=
  decide (length = 0) || covered (s.allowedSpans c write) address length ((s.allowedSpans c write).length + 1)

end Sys2Proof.Machine
end

