-- ==== Sys2Proof/Machine/Float.lean ====
section
/-!
DEFINITION. The number formats of R99 and the arithmetic of R12, R101, R103, R160 and R164: every operation is formed
exactly as a dyadic number and rounded once, to nearest with ties to even.
-/

namespace Sys2Proof.Machine

/-- A floating format: exponent bits, fraction bits, whether it has infinities, whether its all-ones exponent is reserved
for special values (BF16, FP16, E5M2, FP32), and whether only the all-ones code is NaN (E4M3). -/
structure FloatFmt where
  ebits : Nat
  fbits : Nat
  hasInf : Bool
  ieeeTop : Bool
  nanAllOnes : Bool
deriving DecidableEq, Repr

/-- BF16, FP16, E4M3, E5M2, E2M3, E3M2, E2M1 and FP32 (R99). -/
def fmtBF16 : FloatFmt := ⟨8, 7, true, true, false⟩
def fmtFP16 : FloatFmt := ⟨5, 10, true, true, false⟩
def fmtE4M3 : FloatFmt := ⟨4, 3, false, false, true⟩
def fmtE5M2 : FloatFmt := ⟨5, 2, true, true, false⟩
def fmtE2M3 : FloatFmt := ⟨2, 3, false, false, false⟩
def fmtE3M2 : FloatFmt := ⟨3, 2, false, false, false⟩
def fmtE2M1 : FloatFmt := ⟨2, 1, false, false, false⟩
def fmtFP32 : FloatFmt := ⟨8, 23, true, true, false⟩

/-- The exponent of the unit in the last place of subnormals: the value of a subnormal is its fraction times 2^this. -/
def FloatFmt.emin (f : FloatFmt) : Int := 2 - (2 ^ (f.ebits - 1) : Nat) - f.fbits
/-- The exponent of the leading bit of the largest finite value. -/
def FloatFmt.emaxTop (f : FloatFmt) : Int :=
  if f.ieeeTop then (2 ^ (f.ebits - 1) : Nat) - 1 else (2 ^ (f.ebits - 1) : Nat)
/-- The code of the largest finite magnitude. -/
def FloatFmt.maxCode (f : FloatFmt) : Nat :=
  if f.ieeeTop then (2 ^ f.ebits - 1) * 2 ^ f.fbits - 1
  else if f.nanAllOnes then 2 ^ (f.ebits + f.fbits) - 2
  else 2 ^ (f.ebits + f.fbits) - 1
/-- Width in bits. -/
def FloatFmt.width (f : FloatFmt) : Nat := 1 + f.ebits + f.fbits

/-- An unpacked value: NaN, a signed infinity, or (−1)^neg × m × 2^e. -/
inductive FVal where
  | nan
  | inf (neg : Bool)
  | fin (neg : Bool) (m : Nat) (e : Int)
deriving DecidableEq, Repr

/-- The value a code stands for (R99). -/
def unpack (f : FloatFmt) (c : Nat) : FVal :=
  let neg := bit c (f.ebits + f.fbits)
  let ex := bits c (f.ebits + f.fbits - 1) f.fbits
  let fr := c % 2 ^ f.fbits
  if f.ieeeTop && ex == 2 ^ f.ebits - 1 then
    (if fr == 0 && f.hasInf then .inf neg else .nan)
  else if f.nanAllOnes && c % 2 ^ (f.ebits + f.fbits) == 2 ^ (f.ebits + f.fbits) - 1 then .nan
  else if ex == 0 then .fin neg fr f.emin
  else .fin neg (fr + 2 ^ f.fbits) (f.emin + (ex - 1 : Nat))

/-- Round m × 2^e to a multiple of 2^e' with e' = max(leading exponent + 1 − p, emin), to nearest with ties to even:
the quotient and e'. -/
def roundMag (p : Nat) (emin : Int) (m : Nat) (e : Int) : Nat × Int :=
  if m = 0 then (0, emin) else
  let e' : Int := max (e + (Nat.log2 m + 1 : Nat) - p) emin
  if e' ≤ e then (m * 2 ^ (e - e').toNat, e')
  else
    let sh := (e' - e).toNat
    let q := m >>> sh
    let r := m % 2 ^ sh
    let half := 2 ^ (sh - 1)
    let q' := if r > half ∨ (r = half ∧ q % 2 = 1) then q + 1 else q
    (q', e')

/-- What becomes of a magnitude beyond the largest finite value (R164). -/
inductive OnOverflow where
  | infinity   -- infinity, or NaN where the format has none
  | limit      -- the largest finite value
deriving DecidableEq, Repr

/-- The magnitude code of a rounded finite value, and whether it overflowed. -/
def packMag (f : FloatFmt) (q : Nat) (e : Int) : Nat × Bool :=
  let (q, e) := if q = 2 ^ (f.fbits + 1) then (2 ^ f.fbits, e + 1) else (q, e)
  let c := if q < 2 ^ f.fbits then q else (e - f.emin + 1).toNat * 2 ^ f.fbits + (q - 2 ^ f.fbits)
  (c, decide (f.maxCode < c))

/-- The NaN code each target takes (R103, R164). -/
def FloatFmt.nanCode (f : FloatFmt) : Nat :=
  if f = fmtFP32 then 0x7FC00000 else if f = fmtBF16 then 0x7FC0 else if f = fmtFP16 then 0x7E00
  else if f = fmtE4M3 then 0x7F else if f = fmtE5M2 then 0x7E else 0

/-- The sign bit of a code. -/
def signBit (f : FloatFmt) (neg : Bool) : Nat := b2n neg * 2 ^ (f.ebits + f.fbits)

/-- Convert a value to a format (R12, R164): the code, and whether the conversion overflowed. An infinite input gives the
target's infinity where it has one; for E4M3 it follows the overflow column and counts as an overflow. -/
def packVal (f : FloatFmt) (ov : OnOverflow) : FVal → Nat × Bool
  | .nan => (f.nanCode, false)
  | .inf neg =>
    if f.hasInf then (signBit f neg + (2 ^ f.ebits - 1) * 2 ^ f.fbits, false)
    else match ov with
      | .infinity => (signBit f neg + (if f.nanAllOnes then 2 ^ (f.ebits + f.fbits) - 1 else f.maxCode), true)
      | .limit => (signBit f neg + f.maxCode, true)
  | .fin neg m e =>
    let (q, e') := roundMag (f.fbits + 1) f.emin m e
    let (c, big) := packMag f q e'
    if big then
      match ov with
      | .limit => (signBit f neg + f.maxCode, true)
      | .infinity =>
        if f.hasInf then (signBit f neg + (2 ^ f.ebits - 1) * 2 ^ f.fbits, true)
        else (signBit f neg + (if f.nanAllOnes then 2 ^ (f.ebits + f.fbits) - 1 else f.maxCode), true)
    else (signBit f neg + c, false)

/-- FP32 codes. -/
def un32 (x : W32) : FVal := unpack fmtFP32 x.toNat
def pk32 (v : FVal) : W32 := BitVec.ofNat 32 (packVal fmtFP32 .infinity v).1

/-- The canonical NaN (R103). (DEDUCED, assumption 51) -/
def nan32 : W32 := 0x7FC00000#32
/-- The infinities of FP32. -/
def inf32 (neg : Bool) : W32 := if neg then 0xFF800000#32 else 0x7F800000#32
/-- One. -/
def one32 : W32 := 0x3F800000#32

/-- Exact signed sum of two dyadics given with their signs; the sign of an exact zero is supplied. -/
def addFin (n1 : Bool) (m1 : Nat) (e1 : Int) (n2 : Bool) (m2 : Nat) (e2 : Int) (zneg : Bool) : FVal :=
  let e := min e1 e2
  let a : Int := (if n1 then -1 else 1) * (m1 * 2 ^ (e1 - e).toNat : Nat)
  let b : Int := (if n2 then -1 else 1) * (m2 * 2 ^ (e2 - e).toNat : Nat)
  let c := a + b
  if c = 0 then .fin zneg 0 e else .fin (decide (c < 0)) c.natAbs e

/-- Exact sum (R160): infinities of opposite sign give NaN; an exact zero is +0 unless both terms are negative. -/
def addVal : FVal → FVal → FVal
  | .nan, _ => .nan
  | _, .nan => .nan
  | .inf a, .inf b => if a = b then .inf a else .nan
  | .inf a, .fin .. => .inf a
  | .fin .., .inf b => .inf b
  | .fin n1 m1 e1, .fin n2 m2 e2 =>
    addFin n1 m1 e1 n2 m2 e2 ((n1 && n2) && decide (m1 = 0 ∧ m2 = 0))

/-- Exact product: infinity times zero gives NaN. -/
def mulVal : FVal → FVal → FVal
  | .nan, _ => .nan
  | _, .nan => .nan
  | .inf a, .inf b => .inf (a != b)
  | .inf a, .fin n m _ => if m = 0 then .nan else .inf (a != n)
  | .fin n m _, .inf b => if m = 0 then .nan else .inf (n != b)
  | .fin n1 m1 e1, .fin n2 m2 e2 => .fin (n1 != n2) (m1 * m2) (e1 + e2)

/-- Negation of a value. -/
def negVal : FVal → FVal
  | .nan => .nan
  | .inf a => .inf (!a)
  | .fin n m e => .fin (!n) m e

/-- The quotient, formed with a sticky bit far below the last place of any format here, so that one rounding is exact. -/
def divVal : FVal → FVal → FVal
  | .nan, _ => .nan
  | _, .nan => .nan
  | .inf _, .inf _ => .nan
  | .inf a, .fin n _ _ => .inf (a != n)
  | .fin n _ _, .inf b => .fin (n != b) 0 0
  | .fin n1 m1 e1, .fin n2 m2 e2 =>
    if m2 = 0 then (if m1 = 0 then .nan else .inf (n1 != n2))
    else
      let k := 64 + Nat.log2 m2
      let q := (m1 * 2 ^ k) / m2
      let st := if (m1 * 2 ^ k) % m2 = 0 then 0 else 1
      .fin (n1 != n2) (2 * q + st) (e1 - e2 - k - 1)

/-- FP32 addition, subtraction, multiplication, fused multiply-add and division, each rounded once (R160). -/
def fadd (a b : W32) : W32 := pk32 (addVal (un32 a) (un32 b))
def fsub (a b : W32) : W32 := pk32 (addVal (un32 a) (negVal (un32 b)))
def fmul (a b : W32) : W32 := pk32 (mulVal (un32 a) (un32 b))
def ffma (a b c : W32) : W32 := pk32 (addVal (mulVal (un32 a) (un32 b)) (un32 c))
def fdiv (a b : W32) : W32 := pk32 (divVal (un32 a) (un32 b))

/-- Whether a code is NaN. -/
def isNan32 (a : W32) : Bool := match un32 a with | .nan => true | _ => false

/-- Exact comparison of two values that are not NaN; zeros compare equal. -/
def cmpVal : FVal → FVal → Ordering
  | .inf a, .inf b => if a = b then .eq else if a then .lt else .gt
  | .inf a, _ => if a then .lt else .gt
  | _, .inf b => if b then .gt else .lt
  | .fin n1 m1 e1, .fin n2 m2 e2 =>
    let e := min e1 e2
    let a : Int := (if n1 then -1 else 1) * (m1 * 2 ^ (e1 - e).toNat : Nat)
    let b : Int := (if n2 then -1 else 1) * (m2 * 2 ^ (e2 - e).toNat : Nat)
    compare a b
  | _, _ => .eq

/-- Whether a value is a negative zero. -/
def isZero32 (a : W32) : Bool := a.toNat % 2 ^ 31 = 0

/-- MAX and MIN of R160: NaN if either is NaN; of two zeros MAX returns +0 and MIN returns −0 when they differ. -/
def fmax (a b : W32) : W32 :=
  if isNan32 a || isNan32 b then nan32
  else if isZero32 a && isZero32 b then (if a = 0#32 || b = 0#32 then 0#32 else a)
  else if cmpVal (un32 a) (un32 b) = .lt then b else a
def fmin (a b : W32) : W32 :=
  if isNan32 a || isNan32 b then nan32
  else if isZero32 a && isZero32 b then (if a = 0#32 && b = 0#32 then 0#32 else 0x80000000#32)
  else if cmpVal (un32 a) (un32 b) = .gt then b else a

/-- Absolute value and negation; a NaN result is canonical (R160). -/
def fabs32 (a : W32) : W32 := if isNan32 a then nan32 else a &&& 0x7FFFFFFF#32
def fneg (a : W32) : W32 := if isNan32 a then nan32 else a ^^^ 0x80000000#32

/-- The integer conversions: a 32-bit two's-complement integer to FP32 (R159, R171). -/
def ofInt32 (x : W32) : W32 :=
  let i := toSigned 32 x.toNat
  pk32 (.fin (decide (i < 0)) i.natAbs 0)
/-- A natural number as FP32. -/
def ofNat32 (n : Nat) : W32 := pk32 (.fin false n 0)

/-- floor(v + 1/2), the round half up of R12, of a finite value. -/
def roundHalfUp (neg : Bool) (m : Nat) (e : Int) : Int :=
  let s : Int := (if neg then -1 else 1) * (m : Int)
  if 0 ≤ e then s * (2 ^ e.toNat : Nat)
  else (2 * s + (2 ^ (-e).toNat : Nat)) / (2 ^ ((-e).toNat + 1) : Nat)

/-- Integer quantisation of R165 and R471: floor(y + 0.5) limited to [lo, hi]; NaN gives 0. The value and whether it
was limited or NaN. -/
def quantInt (lo hi : Int) (y : W32) : Int × Bool :=
  match un32 y with
  | .nan => (0, true)
  | .inf neg => (if neg then lo else hi, true)
  | .fin neg m e =>
    let q := roundHalfUp neg m e
    if q < lo then (lo, true) else if hi < q then (hi, true) else (q, false)

/-- Round an FP32 value to a format and keep it as FP32 (R163, R171 RND): the value, and whether it overflowed. -/
def roundTo (f : FloatFmt) (ov : OnOverflow) (x : W32) : W32 × Bool :=
  let (c, o) := packVal f ov (un32 x)
  (pk32 (unpack f c), o)

/-! ### Special functions (R160): within one unit in the last place of the exact value -/

/-- ln 2 × 2^128, rounded down. -/
def ln2q : Nat := 235865763225513294137944142764154484399

/-- exp of a fixed-point number z/2^128 with 0 ≤ z < 2^128 ln 2, as a fixed-point number with 128 fraction bits. -/
def expFrac (z : Nat) : Nat :=
  (List.range 40).foldl (fun (acc : Nat × Nat) i => (acc.1 + acc.2, acc.2 * z / 2 ^ 128 / (i + 1)))
    (0, 2 ^ 128) |>.1

/-- exp of a finite value as a pair (m, e) with exp = m × 2^e, m with about 129 bits. -/
def expPair (neg : Bool) (m : Nat) (e : Int) : Nat × Int :=
  let z : Int := (if neg then -1 else 1) * (if 0 ≤ e + 128 then (m * 2 ^ (e + 128).toNat : Nat) else (m >>> (-(e + 128)).toNat : Nat))
  let k := z / (ln2q : Int)
  let r := (z % (ln2q : Int)).toNat
  (expFrac r, k - 128)

/-- 2 × atanh(t/2^128) as a fixed-point number with 128 fraction bits. -/
def atanh2 (t : Nat) : Nat :=
  let t2 := t * t / 2 ^ 128
  (List.range 60).foldl (fun (acc : Nat × Nat) i => (acc.1 + acc.2 / (2 * i + 1), acc.2 * t2 / 2 ^ 128)) (0, t) |>.1 |> (2 * ·)

/-- A positive rational num/den × 2^e as the FP32 code at or below it, and whether it is that code exactly. -/
def floorCode (num den : Nat) (e : Int) : Nat × Bool :=
  let k := 200 + Nat.log2 den
  let q := num * 2 ^ k / den
  let ex := decide (num * 2 ^ k % den = 0)
  if q = 0 then (0, ex) else
  let eq : Int := e - k
  let e' : Int := max (eq + (Nat.log2 q + 1 : Nat) - 24) fmtFP32.emin
  if e' ≤ eq then (Nat.min (packMag fmtFP32 (q * 2 ^ (eq - e').toNat) e').1 0x7F800000, ex)
  else
    let sh := (e' - eq).toNat
    (Nat.min (packMag fmtFP32 (q >>> sh) e').1 0x7F800000, ex && decide (q % 2 ^ sh = 0))

/-- One of the FP32 codes within one unit in the last place of num/den × 2^e, chosen by the free pick. -/
def pickUlp (fn : Nat) (x : W32) (neg : Bool) (num den : Nat) (e : Int) : W32 :=
  let (c, ex) := floorCode num den e
  let p := Config.sfuPick fn x
  let c' := if ex then (if p % 3 = 0 then c else if p % 3 = 1 then Nat.min (c + 1) 0x7F800000 else c - 1)
    else (if p % 2 = 0 then c else Nat.min (c + 1) 0x7F800000)
  BitVec.ofNat 32 (c' + b2n neg * 2 ^ 31)

/-- Integer square root by bits, from the top bit b downward. -/
def isqrtAux (n : Nat) : Nat → Nat → Nat
  | 0, r => r
  | b + 1, r => let r' := r + 2 ^ b; isqrtAux n b (if r' * r' ≤ n then r' else r)
def isqrt (n : Nat) : Nat := isqrtAux n (Nat.log2 n / 2 + 1) 0

/-- exp (SFU function 0). -/
def fexp (x : W32) : W32 :=
  match un32 x with
  | .nan => nan32
  | .inf neg => if neg then 0#32 else inf32 false
  | .fin neg m e =>
    if m = 0 then pickUlp 0 x false 1 1 0
    else if 8 ≤ e + (Nat.log2 m : Int) then (if neg then pickUlp 0 x false 1 1 (-300) else inf32 false)
    else let (p, k) := expPair neg m e; pickUlp 0 x false (2 * p + 1) 2 k

/-- Natural logarithm (SFU function 1): of a negative value the manual states no result; the value is free. -/
def flog (x : W32) : W32 :=
  match un32 x with
  | .nan => nan32
  | .inf neg => if neg then Config.sfuReserved 1 x else inf32 false
  | .fin neg m e =>
    if m = 0 || neg then Config.sfuReserved 1 x
    else
      let l := Nat.log2 m
      let a := m * 2 ^ 128 / 2 ^ l
      let t := (a - 2 ^ 128) * 2 ^ 128 / (a + 2 ^ 128)
      let v : Int := (atanh2 t : Nat) + (e + (l : Int)) * (ln2q : Int)
      if v = 0 then pickUlp 1 x false 0 1 0
      else pickUlp 1 x (decide (v < 0)) (2 * v.natAbs + 1) 2 (-128)

/-- Reciprocal (SFU function 2). -/
def frecip (x : W32) : W32 :=
  match un32 x with
  | .nan => nan32
  | .inf neg => BitVec.ofNat 32 (b2n neg * 2 ^ 31)
  | .fin neg m e => if m = 0 then Config.sfuReserved 2 x else pickUlp 2 x neg 1 m (-e)

/-- Reciprocal square root (SFU function 3). -/
def frsqrt (x : W32) : W32 :=
  match un32 x with
  | .nan => nan32
  | .inf neg => if neg then Config.sfuReserved 3 x else 0#32
  | .fin neg m e =>
    if m = 0 || neg then Config.sfuReserved 3 x
    else
      let (m, e) := if e % 2 = 0 then (m, e) else (2 * m, e - 1)
      let s := isqrt (m * 2 ^ 200)
      let ex := decide (s * s = m * 2 ^ 200)
      if ex then pickUlp 3 x false (2 ^ 100) s (-(e / 2))
      else pickUlp 3 x false (2 ^ 101) (2 * s + 1) (-(e / 2))

/-- Hyperbolic tangent (SFU function 4). -/
def ftanh (x : W32) : W32 :=
  match un32 x with
  | .nan => nan32
  | .inf neg => pickUlp 4 x neg 1 1 0
  | .fin neg m e =>
    if m = 0 then x
    else if e + (Nat.log2 m : Int) < -13 then
      -- x − x³/3 in units of 2^(3e)
      let d := (2 * e).natAbs
      pickUlp 4 x neg (3 * m * 2 ^ d - m * m * m) (3 * 2 ^ d) e
    else if 6 ≤ e + (Nat.log2 m : Int) then pickUlp 4 x neg (2 ^ 120 - 1) (2 ^ 120) 0
    else
      let (p, k) := expPair false m (e + 1)
      let a := if 0 ≤ k then p * 2 ^ k.toNat * 2 ^ 128 else p * 2 ^ 128 / 2 ^ (-k).toNat
      pickUlp 4 x neg (2 * (a - 2 ^ 128) + 1) (2 * (a + 2 ^ 128)) 0

/-- Sigmoid (SFU function 5): 1 / (1 + exp(−x)). -/
def fsigmoid (x : W32) : W32 :=
  match un32 x with
  | .nan => nan32
  | .inf neg => if neg then 0#32 else pickUlp 5 x false 1 1 0
  | .fin neg m e =>
    if m = 0 then pickUlp 5 x false 1 2 0
    else if 8 ≤ e + (Nat.log2 m : Int) then
      (if neg then pickUlp 5 x false 1 1 (-300) else pickUlp 5 x false (2 ^ 120 - 1) (2 ^ 120) 0)
    else
      -- exp(−|x|) = p × 2^k with k ≤ −128 + 0
      let (p, k) := expPair true m e
      let d := (-k).toNat
      if neg then pickUlp 5 x false (2 * p + 1) (2 * (2 ^ d + p)) 0
      else pickUlp 5 x false (2 * 2 ^ d + 1) (2 * (2 ^ d + p)) 0

/-- The special-function unit of R171: codes 6 and 7 have no meaning in the manual; their value is free. -/
def sfu (fn : Nat) (x : W32) : W32 :=
  match fn with
  | 0 => fexp x
  | 1 => flog x
  | 2 => frecip x
  | 3 => frsqrt x
  | 4 => ftanh x
  | 5 => fsigmoid x
  | n => Config.sfuReserved n x

/-! ### The fixed reduction tree of R160 -/

/-- One level: lane i is combined with lane i + h. -/
def treeLevel (op : W32 → W32 → W32) (h : Nat) (xs : List W32) : List W32 :=
  List.zipWith op (xs.take h) (xs.drop h)

/-- Reduce the 128 lanes of a piece; absent lanes enter as the identity z. -/
def treeReduce (op : W32 → W32 → W32) (z : W32) (xs : List W32) : W32 :=
  let ys := (xs ++ List.replicate (128 - xs.length) z).take 128
  ([64, 32, 16, 8, 4, 2, 1].foldl (fun a h => treeLevel op h a) ys).headD z

/-- Split a row into pieces of 128 columns. -/
def piecesOf : Nat → List W32 → List (List W32)
  | 0, _ => []
  | n + 1, xs => xs.take 128 :: piecesOf n (xs.drop 128)

/-- Reduce a row of any width: piece by piece, the results combined in column order with a running value. -/
def rowReduce (op : W32 → W32 → W32) (z : W32) (xs : List W32) : W32 :=
  match piecesOf (ceilDiv xs.length 128) xs with
  | [] => z
  | p :: ps => ps.foldl (fun a q => op a (treeReduce op z q)) (treeReduce op z p)

/-- −∞, the identity of a maximum. -/
def negInf32 : W32 := 0xFF800000#32

end Sys2Proof.Machine
end

