-- ==== Sys2Proof/Machine/StepWord.lean ====
section
/-!
DEFINITION. The operand forms of the tile engines: fields of step descriptors (R137), mooring entries (R133), ArrayOp words
(R117) and chain headers (R157), and the geometry of passes (R106 to R116).
-/

namespace Sys2Proof.Machine

/-! ### Step descriptors (R137) -/

def dOp (d : Nat) : Nat := bits d 511 504
def dEngine (d : Nat) : EngineId := BitVec.ofNat 6 (bits d 503 498)
def dPaired (d : Nat) : Bool := bit d 497
def dTileOrder (d : Nat) : Bool := bit d 496
def dA (d : Nat) : Nat := bits d 495 488
def dB (d : Nat) : Nat := bits d 487 480
def dC (d : Nat) : Nat := bits d 479 472
def dOut (d : Nat) : Nat := bits d 471 464
def dChain (d : Nat) : Nat := bits d 463 456
def dIndex (d : Nat) : Nat := bits d 455 448
def dArrayOp (d : Nat) : Nat := bits d 447 416
def dM (d : Nat) : Nat := bits d 415 403
def dN (d : Nat) : Nat := bits d 402 393
def dK (d : Nat) : Nat := bits d 392 380
def dStepM (d : Nat) : Nat := bits d 379 364
def dStepN (d : Nat) : Nat := bits d 363 348
def dWaitSem (d : Nat) : Nat := bits d 347 343
def dWait (d : Nat) : Bool := bit d 342
def dWaitTarget (d : Nat) : Nat := bits d 341 326
def dSignalSem (d : Nat) : BitVec 5 := BitVec.ofNat 5 (bits d 325 321)
def dSignal (d : Nat) : Bool := bit d 320
def dSignalEngine (d : Nat) : EngineId := BitVec.ofNat 6 (bits d 319 314)
def dFromArgument (d : Nat) : Bool := bit d 313
def dSlot (d : Nat) : Nat := bits d 312 305
def dAddress (d : Nat) : Nat := bits d 255 192
def dLength (d : Nat) : Nat := bits d 191 160
def dStride (d : Nat) : Nat := bits d 159 128
def dRows (d : Nat) : Nat := bits d 127 112
def dPool (d : Nat) : Nat := bits d 111 96

def opNop : Nat := 0
def opProduct : Nat := 1
def opVector : Nat := 2
def opLoad : Nat := 3
def opStore : Nat := 4
def opGather : Nat := 5
def opMoor : Nat := 6
def opRelease : Nat := 7

/-- "No buffer" (R132). -/
def noHandle : Nat := 0xFF

/-! ### Mooring entries (R133) -/

def mContext (e : Nat) : Nat := bits e 255 246
def mState (e : Nat) : Nat := bits e 245 243
def mRetain (e : Nat) : Bool := bit e 242
def mDirty (e : Nat) : Bool := bit e 241
def mStreamed (e : Nat) : Bool := bit e 240
def mSlots (e : Nat) : Nat := bits e 239 238 + 2
def mFormat (e : Nat) : Nat := bits e 237 234
def mBacking (e : Nat) : Nat := bits e 233 232
def mOffset (e : Nat) : Nat := bits e 231 219
def mSize (e : Nat) : Nat := bits e 218 205
def mPitch (e : Nat) : Nat := bits e 204 192
def mRows (e : Nat) : Nat := bits e 191 176
def mAux (e : Nat) : Nat := bits e 175 168
def mWriteSeq (e : Nat) : Nat := bits e 167 152
def mProducer (e : Nat) : Nat := bits e 151 136
def mBackingAddress (e : Nat) : Nat := bits e 127 64
def mBackingPitch (e : Nat) : Nat := bits e 63 32

def mFree : Nat := 0
def mEmpty : Nat := 1
def mValid : Nat := 2
def mPoisoned : Nat := 3

/-- BackingPitch, or Pitch × 64 when it is 0 (R476, R478). -/
def mBP (e : Nat) : Nat := if mBackingPitch e = 0 then mPitch e * 64 else mBackingPitch e

/-- Element bits of a mooring Format (R99, R133); BYTES has 8. -/
def elemBits (f : Nat) : Nat :=
  match f with
  | 0 | 1 => 16
  | 2 | 3 | 4 => 8
  | 5 | 6 => 6
  | 7 | 8 => 4
  | 9 | 10 => 32
  | _ => 8

/-- Whether a format carries E8M0 scales (R99). -/
def isMx (f : Nat) : Bool := f == 5 || f == 6 || f == 7

/-- Whether a format is an integer operand format. -/
def isInt (f : Nat) : Bool := f == 4 || f == 8

/-- The floating format of a code, if it is one. -/
def floatOf (f : Nat) : Option FloatFmt :=
  match f with
  | 0 => some fmtBF16
  | 1 => some fmtFP16
  | 2 => some fmtE4M3
  | 3 => some fmtE5M2
  | 5 => some fmtE2M3
  | 6 => some fmtE3M2
  | 7 => some fmtE2M1
  | 9 => some fmtFP32
  | _ => none

/-- The value an element code of a format stands for; integers are signed unless marked unsigned (R99, R100). -/
def elemVal (f : Nat) (unsigned : Bool) (c : Nat) : FVal :=
  match floatOf f with
  | some g => unpack g c
  | none =>
    let w := elemBits f
    let i : Int := if unsigned then (c % 2 ^ w : Nat) else toSigned w c
    .fin (decide (i < 0)) i.natAbs 0

/-! ### ArrayOp words (R117) -/

def aFormatA (o : Nat) : Nat := bits o 31 28
def aFormatB (o : Nat) : Nat := bits o 27 24
def aMode (o : Nat) : Nat := bits o 23 22
def aSparsity (o : Nat) : Nat := bits o 21 20
def aSparseStore (o : Nat) : Bool := bit o 19
def aTransA (o : Nat) : Bool := bit o 18
def aTransB (o : Nat) : Bool := bit o 17
def aUnsA (o : Nat) : Bool := bit o 16
def aUnsB (o : Nat) : Bool := bit o 15
def aAccumulate (o : Nat) : Bool := bit o 14
def aTwin (o : Nat) : Bool := bit o 13
def aSelect (o : Nat) : Nat := bits o 12 11

/-- Multiply-accumulates a cell performs per cycle (R99). -/
def rateOf (f : Nat) : Nat := if f ≤ 1 then 1 else if f ≤ 6 then 2 else 4

/-- The set of R100 a format belongs to. -/
def formatSet (f : Nat) : Nat :=
  match f with | 0 | 1 => 0 | 2 | 3 => 1 | 4 => 2 | 5 | 6 => 3 | 7 => 4 | 8 => 5 | _ => 6

/-- Whether an ArrayOp word with M, N and K passes R118. -/
def arrayOpGood (o m n k : Nat) : Bool :=
  let fa := aFormatA o
  let r := rateOf fa
  let s := aSparsity o
  decide (fa ≤ 8 ∧ aFormatB o ≤ 8 ∧ aMode o ≤ 2 ∧ s ≤ 2 ∧ aSelect o ≤ 2 ∧ bits o 10 0 = 0) &&
  decide (formatSet fa = formatSet (aFormatB o)) &&
  !(aUnsA o && !isInt fa) && !(aUnsB o && !isInt (aFormatB o)) &&
  (match aMode o with
   | 0 => decide (m ≤ 32 ∧ n ≤ 128 ∧ k ≤ 4096)
   | 1 => decide (m ≤ 8 ∧ n ≤ 512 ∧ k ≤ 4096)
   | _ => decide (m ≤ 4096 ∧ n ≤ 128 ∧ k ≤ 32 * r)) &&
  !(decide (s ≠ 0) && aMode o == 2) && !(aSparseStore o && s == 0) && !(aTransB o && decide (s ≠ 0)) &&
  !(aMode o == 2 && (aTransA o || aTwin o)) && !(aTwin o && decide (aSelect o ≠ 0)) &&
  !((isMx fa || isMx (aFormatB o)) && decide (k % 32 ≠ 0)) && !(s == 1 && decide (k % 4 ≠ 0)) && !(s == 2 && decide (k % 8 ≠ 0))

/-! ### Pass geometry (R106 to R112, R115) -/

/-- The k-steps S of a pass, or its M rows in weight-stationary mode (R106, R111, R446). -/
def passS (o m k : Nat) : Nat :=
  let r := rateOf (aFormatA o)
  match aMode o with
  | 0 => ceilDiv k (r * (if aSparsity o = 0 then 1 else 2))
  | 1 => if aSparsity o = 0 then 2 * ceilDiv k r else 3 * ceilDiv k (2 * r)
  | _ => m

/-- The lead-in D (R106); a weight-stationary pass has none (R112). -/
def passD (o k : Nat) : Nat :=
  if aMode o = 2 then 0
  else (if aAccumulate o then 32 else 0) + (if (aTransA o || aTransB o) && decide (1 ≤ k) then 36 else 0)

/-- The cycle count C at an array latency L (R106, R111, R112). (DEDUCED, assumption 44) -/
def passC (o m k l : Nat) : Nat := if aMode o = 2 then 32 + m + l else passD o k + passS o m k + l

/-- The issue interval I (R107, R112). -/
def passI (o m k : Nat) : Nat := if aMode o = 2 then Nat.max m 32 else Nat.max (passD o k + passS o m k) 32

/-- Bytes per row of A per k-step, in units of 1/32 byte (R115). -/
def bytesA32 (o : Nat) : Nat :=
  let r := rateOf (aFormatA o)
  let s := if aSparsity o = 0 then 1 else 2
  r * s * (elemBits (aFormatA o) * 4 + (if isMx (aFormatA o) then 1 else 0))

/-- Bytes per column of B per k-step, values, scales and metadata, in units of 1/32 byte (R115). -/
def bytesB32 (o : Nat) : Nat :=
  let r := rateOf (aFormatB o)
  let s := if aSparsity o = 0 then 1 else 2
  r * elemBits (aFormatB o) * 4 + (if isMx (aFormatB o) then r * s else 0) +
    (match aSparsity o with | 0 => 0 | 1 => 2 * r * 4 | _ => 2 * r * 6)

/-- The demand of a pass, or of a twin pair, in units of 1/96 byte per cycle (R115). -/
def demand96 (o : Nat) (twin : Bool) : Nat :=
  let rows := if twin then 2 else 1
  match aMode o with
  | 0 => (rows * 32 * bytesA32 o + 128 * bytesB32 o) * 3
  | 1 => if aSparsity o = 0 then (rows * 4 * bytesA32 o + 256 * bytesB32 o) * 3
         else rows * 8 * bytesA32 o + 512 * bytesB32 o
  | _ => ((if isMx (aFormatA o) then 340 else 320) + (if aAccumulate o then 512 else 0)) * 96

/-- The demand limit of an engine, 1,024 B per cycle. -/
def demandLimit96 : Nat := 1024 * 96

/-- The floor while an accumulator input is read, during the lead-in (R115). -/
def leadDemand96 (o : Nat) (twin : Bool) : Nat :=
  if aAccumulate o && decide (aMode o ≠ 2) then Nat.max (demand96 o twin) ((if twin then 1024 else 512) * 96) else demand96 o twin

/-! ### Chain headers and stage words (R157, R161) -/

def hForm (h : Nat) : Nat := bits h 511 510
def hExact (h : Nat) : Bool := bit h 509
def hHeld (h : Nat) : Bool := bit h 508
def hCount (h : Nat) : Nat := bits h 507 499
def hCount2 (h : Nat) : Nat := bits h 498 495
def hOccupancy (h : Nat) : Bool := bit h 494
def hOccHeight (h : Nat) : Nat := if bit h 493 then 32 else 8
def hSend (h : Nat) : Bool := bit h 492
def hVec0 (h : Nat) : Nat := bits h 491 484
def hVec1 (h : Nat) : Nat := bits h 483 476
def hResidual (h : Nat) : Nat := bits h 475 468
def hHold (h : Nat) : Nat := bits h 467 460
def hOcc (h : Nat) : Nat := bits h 459 452
def hSendTable (h : Nat) : Nat := bits h 451 444
def hSecondB (h : Nat) : Nat := bits h 443 436
def hP (h : Nat) : Nat := bits h 435 428
def hArrayOp2 (h : Nat) : Nat := bits h 427 396
def hN2 (h : Nat) : Nat := bits h 395 386
def hConst (h k : Nat) : W32 := BitVec.ofNat 32 (bits h (32 * k + 31) (32 * k))

def sOp (w : Nat) : Nat := bits w 31 26
def sRound (w : Nat) : Nat := bits w 25 22
def sSat (w : Nat) : Bool := bit w 21
def sConstA (w : Nat) : Nat := bits w 20 18
def sConstB (w : Nat) : Nat := bits w 17 15
def sVec (w : Nat) : Nat := bits w 14 13
def sParam (w : Nat) : Nat := bits w 12 0

def stScale : Nat := 1
def stBias : Nat := 2
def stColscale : Nat := 3
def stResidual : Nat := 4
def stAct : Nat := 5
def stGatepair : Nat := 6
def stNorm : Nat := 7
def stSoftmax : Nat := 8
def stOnline : Nat := 9
def stMerge : Nat := 10
def stConvert : Nat := 11
def stQuant : Nat := 12

/-- Whether a stage needs the whole row: NORM, SOFTMAX, or QUANT with ROWMAX (R162, R165). -/
def wholeRow (w : Nat) : Bool := sOp w == stNorm || sOp w == stSoftmax || (sOp w == stQuant && bits (sParam w) 7 6 == 2)

/-- Issue cost c of a stage in cycles per piece (R162). -/
def stageCost (w : Nat) : Nat :=
  let f := bits (sParam w) 2 0
  if sOp w = stAct then (if f = 0 ∨ f = 5 then 1 else 4)
  else if sOp w = stGatepair then 2
  else if sOp w = stNorm then 2
  else if sOp w = stSoftmax ∨ sOp w = stOnline then 4
  else if sOp w = stQuant ∧ bits (sParam w) 7 6 = 3 then 2
  else 1

/-- Latency l of a stage (R162); `last` says whether a MERGE is at the last key block. -/
def stageLatency (last : Bool) (w : Nat) : Nat :=
  let f := bits (sParam w) 2 0
  if sOp w = stScale ∨ sOp w = stBias ∨ sOp w = stColscale then 4
  else if sOp w = stResidual then 6
  else if sOp w = stAct then (if f = 0 ∨ f = 5 then 2 else 10)
  else if sOp w = stGatepair then 12
  else if sOp w = stNorm then 20
  else if sOp w = stSoftmax ∨ sOp w = stOnline then 24
  else if sOp w = stMerge then (if last then 16 else 8)
  else if sOp w = stConvert then 2
  else match bits (sParam w) 7 6 with | 2 => 8 | 3 => 10 | _ => 4

/-- The largest c of a list of stages, or 1 (R167). -/
def chainCost (ws : List Nat) : Nat := (ws.map stageCost).foldl Nat.max 1

/-- Λ of a list of stages (R167). -/
def chainLatency (ws : List Nat) (occupancy last : Bool) : Nat :=
  (ws.map (stageLatency last)).foldl (· + ·) 0 + (if occupancy then 2 else 0)

end Sys2Proof.Machine
end

