-- ==== Sys2Proof/Machine/Buffers.lean ====
section
/-!
DEFINITION. Buffers in scratchpad: partitions and mooring entries, the lines of resident and streamed buffers, elements and
their packing, committed writes, and poison (R113, R128, R130, R132 to R138, R148, R478).
-/

namespace Sys2Proof.Machine

/-! ### Scratchpad banks (R125) -/

/-- The bank and row of an engine line (R125). -/
def bankOf (line : Nat) : Nat × Nat :=
  (Nat.xor (Nat.xor (bits line 3 0) (bits line 7 4)) (bits line 11 8), line / 16)

/-! ### Entries and handles (R130, R132, R136) -/

/-- A context's partition on an engine; zero, which declares no granule, where it has none. -/
def Engine.part (x : Engine) (c : ContextId) : Nat := (x.boundsOf c).getD 0

/-- The byte of scratchpad a partition starts at (R130). -/
def partBase (p : Nat) : Nat := 32768 * parFirst p

/-- Whether a handle names an entry of the partition's allotment (R132). -/
def handleOk (p h : Nat) : Bool := decide (h ≠ noHandle ∧ h < 16 * parCount p)

/-- The mooring entry a handle names, with its complement. -/
def Engine.mooring (x : Engine) (p h : Nat) : Mooring := Tab.get {} x.moorings (16 * parFirst p + h)

/-- The value half of the entry a handle names. -/
def Engine.entry (x : Engine) (p h : Nat) : Nat := (x.mooring p h).value.toNat

/-- Whether an entry's pair is good (R136). -/
def Mooring.good (m : Mooring) : Bool := m.comp == ~~~m.value

/-- Write an entry and its complement. -/
def Engine.setEntry (x : Engine) (p h v : Nat) : Engine :=
  let b : BitVec 256 := BitVec.ofNat 256 v
  { x with moorings := Tab.set {} x.moorings (16 * parFirst p + h) { value := b, comp := ~~~b } }

/-- The reset value of an entry (R133, R135). -/
def freeEntry : Nat := 0xFF <<< 168

/-! ### Tiles of streamed buffers (R478) -/

/-- Whether tiles along M vary fastest; a Form 2 chain runs band by band (R139, R181). -/
def tilesM (d : Nat) : Nat := ceilDiv (dStepM d) (dM d)
def tilesN (d : Nat) : Nat := ceilDiv (dStepN d) (dN d)

/-- Which operand of a step a buffer is: A, B, tile-shaped, or B of the second product. -/
inductive Role where
  | a | b | tile | second
deriving DecidableEq, Repr

/-- The tile index of a pass along a buffer's axis (R478). -/
def tileIndex (d : Nat) (r : Role) (p : Pass) : Nat :=
  match r with
  | .a => p.m
  | .b | .second => p.n
  | .tile => p.m * tilesN d + p.n

/-- The count j of the fetch that brings the tile: tiles in the order the step reads them, a tile read again after another
counting again (R478). -/
def fetchIndex (d : Nat) (r : Role) (p : Pass) : Nat :=
  let twin := aTwin (dArrayOp d)
  let g := if twin then p.m / 2 else p.m
  match r with
  | .a => if dTileOrder d = false then p.m else p.n * tilesM d + p.m
  | .b | .second => if dTileOrder d then p.n else g * tilesN d + p.n
  | .tile => p.ordinal

/-- The scratchpad byte at which a row of a buffer starts: row `row` of a resident buffer, row `within` of the slot of fetch
j of a streamed one (R113, R130, R478). -/
def rowAddr (p e j row within : Nat) : Nat :=
  if mStreamed e then
    partBase p + 64 * (mOffset e + (j % mSlots e) * (mSize e / mSlots e) + within * mPitch e)
  else partBase p + 64 * (mOffset e + row * mPitch e)

/-! ### Elements (R113) -/

/-- Element idx of eb bits in the row that starts at a byte: lower K index in the lower bits. -/
def Engine.elem (x : Engine) (addr idx eb : Nat) : Nat :=
  let b := idx * eb
  bits (ofLeBytes (Tab.readBytes x.scratch (addr + b / 8) 5)) (b % 8 + eb - 1) (b % 8)

/-- Clear the bad marks of the 64-bit words a write of n bytes covers whole or in part: a write stores both parity bits of a word
(R128). -/
def clearBad (t : Tab Bool) (addr n : Nat) : Tab Bool :=
  (List.range ((addr % 8 + n + 7) / 8)).foldl (fun t i => Tab.set false t (addr / 8 + i) false) t

/-- Mark the eight words of an engine line as failing their parity. -/
def markBad (t : Tab Bool) (line : Nat) : Tab Bool := (List.range 8).foldl (fun t i => Tab.set false t (8 * line + i) true) t

/-- Write bytes to scratchpad with their parity. -/
def Engine.writeBytes (x : Engine) (addr : Nat) (bytes : List Byte) : Engine :=
  { x with scratch := Tab.writeBytes x.scratch addr bytes, badWords := clearBad x.badWords addr bytes.length }

/-- Pack element codes of eb bits into a number, the first in the lowest bits. -/
def packElems (eb : Nat) : List Nat → Nat
  | [] => 0
  | c :: cs => c % 2 ^ eb + packElems eb cs * 2 ^ eb

/-- Write consecutive element codes from element index `start` of the row at a byte, leaving the bits around them. -/
def Engine.putElems (x : Engine) (addr start eb : Nat) (codes : List Nat) : Engine :=
  if codes.isEmpty then x
  else
    let lo := start * eb
    let n := codes.length * eb
    let first := lo / 8
    let len := (lo % 8 + n + 7) / 8
    let old := ofLeBytes (Tab.readBytes x.scratch (addr + first) len)
    x.writeBytes (addr + first) (leBytes len (setBits old (lo % 8 + n - 1) (lo % 8) (packElems eb codes)))

/-- Whether a read of a byte range detects a parity failure: some word of it is marked bad (R128). -/
def Engine.badIn (x : Engine) (addr n : Nat) : Bool :=
  x.badWords.any (fun q => q.2 && decide (8 * q.1 < addr + n ∧ addr < 8 * q.1 + 8))

/-- Whether a read of a buffer, or of one slot of it, may detect a parity failure. -/
def Engine.badLines (x : Engine) (p e first count : Nat) : Bool := x.badIn (partBase p + 64 * (mOffset e + first)) (64 * count)

/-! ### Committed writes and poison (R138, R139, R148) -/

/-- An entry after a committed write by a step: VALID or POISONED, Dirty as given, serial copied, WriteSeq advanced. -/
def writtenEntry (e serial : Nat) (poisoned dirty : Bool) : Nat :=
  let e1 := setBits (setBits e 245 243 (if poisoned then mPoisoned else mValid)) 241 241 (b2n dirty)
  setBits (setBits e1 151 136 serial) 167 152 (mWriteSeq e + 1)

/-- Record a committed write to the buffer of a handle, when there is one. -/
def Engine.commitWrite (x : Engine) (p h : Nat) (serial : W16) (poisoned dirty : Bool) : Engine :=
  if handleOk p h then x.setEntry p h (writtenEntry (x.entry p h) serial.toNat poisoned dirty) else x

/-- Mark a buffer POISONED. -/
def Engine.poison (x : Engine) (p h : Nat) : Engine :=
  if handleOk p h ∧ mState (x.entry p h) ≠ mFree then x.setEntry p h (setBits (x.entry p h) 245 243 mPoisoned) else x

/-- The handle, if any, of a context's entry that holds an engine line. -/
def Engine.bufferOf (x : Engine) (p line : Nat) : Option Nat :=
  (List.range (16 * parCount p)).find? (fun h =>
    let e := x.entry p h
    let first := 512 * parFirst p + mOffset e
    decide (h ≠ noHandle ∧ mState e ≠ mFree ∧ first ≤ line ∧ line < first + mSize e))

/-! ### Index lists and row selection (R173) -/

/-- Entry i of a list of U16 values in a buffer. -/
def Engine.u16At (x : Engine) (p e i : Nat) : Nat := x.elem (rowAddr p e 0 0 0) i 16

/-- The row of operand A that row i of a pass reads: through the index list where there is one; none for the row of zeros
that 0xFFFF supplies (R173). -/
def Engine.gatheredRow (x : Engine) (p d i : Nat) : Option Nat :=
  if dIndex d = noHandle then some i
  else
    let v := x.u16At p (x.entry p (dIndex d)) i
    if v = 0xFFFF then none else some v

/-- Whether the index entries of a pass's rows are all 0xFFFF or below the buffer's Rows (R173). -/
def Engine.indexGood (x : Engine) (p d first count : Nat) : Bool :=
  decide (dIndex d = noHandle) ||
  (List.range count).all (fun i =>
    let v := x.u16At p (x.entry p (dIndex d)) (first + i)
    decide (v = 0xFFFF ∨ v < mRows (x.entry p (dA d))))

end Sys2Proof.Machine
end

