-- ==== Sys2Proof/Machine/PassMath.lean ====
section
/-!
DEFINITION. What a pass computes: the operands it reads, the exact group sums, the accumulators, and the block columns a skip
map drops (R100 to R103, R109 to R114, R180, R191 to R194).
-/

namespace Sys2Proof.Machine

/-! ### The chain header of a step (R156) -/

/-- The chain header of a step, as the number its 64 bytes spell; none with the convert-only epilogue. -/
def Engine.header (x : Engine) (p d : Nat) : Option Nat :=
  if dChain d = noHandle then none
  else some (ofLeBytes (Tab.readBytes x.scratch (rowAddr p (x.entry p (dChain d)) 0 0 0) 64))

/-- Whether a step's chain is a Form 2 chain. -/
def Engine.form2 (x : Engine) (p d : Nat) : Bool := match x.header p d with | some h => hForm h == 2 | none => false

/-! ### The passes' own operands -/

/-- What a pass multiplies: ArrayOp word, rows and columns of its tile, K, the operand entries and where their rows lie. -/
structure Shape where
  op : Nat
  rows : Nat
  cols : Nat
  k : Nat
  entA : Nat
  entB : Nat
  jA : Nat
  jB : Nat
  rowA : Nat
  rowB : Nat
  keyB : Nat
deriving DecidableEq, Repr

/-- Rows of a tile that lie within the step; columns likewise. -/
def tileRows (d : Nat) (q : Pass) : Nat := min (dM d) (dStepM d - q.m * dM d)
def tileCols (d : Nat) (q : Pass) : Nat := min (dN d) (dStepN d - q.n * dN d)

/-- The shape of a pass (R106, R180). (DESIGN CHOICE, assumption 161) -/
def Engine.shape (x : Engine) (p d : Nat) (q : Pass) : Shape :=
  match q.kind with
  | .second =>
    let h := (x.header p d).getD 0
    let o := hArrayOp2 h
    { op := o, rows := tileRows d q, cols := hN2 h, k := dN d, entA := x.entry p (hP h), entB := x.entry p (hSecondB h),
      jA := 0, jB := fetchIndex d .second q, rowA := if aTwin (dArrayOp d) then q.m % 2 * dM d else 0, rowB := q.n * hN2 h, keyB := q.n * dN d }
  | _ =>
    { op := dArrayOp d, rows := tileRows d q, cols := tileCols d q, k := dK d, entA := x.entry p (dA d), entB := x.entry p (dB d),
      jA := fetchIndex d .a q, jB := fetchIndex d .b q, rowA := q.m * dM d, rowB := q.n * dN d, keyB := 0 }

/-- The row of A that row i of a pass reads, as (row of a resident buffer, row within a slot); none for a row of zeros. -/
def Engine.aRow (x : Engine) (p d : Nat) (q : Pass) (sh : Shape) (i : Nat) : Option (Nat × Nat) :=
  if q.kind = .second ∨ dIndex d = noHandle then some (sh.rowA + i, i)
  else (x.gatheredRow p d (sh.rowA + i)).map (fun r => (r, r))

/-- An element of A: row i, position k. -/
def Engine.elemA (x : Engine) (p d : Nat) (q : Pass) (sh : Shape) (i k : Nat) : FVal :=
  let f := aFormatA sh.op
  if aTransA sh.op then
    elemVal f (aUnsA sh.op) (x.elem (rowAddr p sh.entA sh.jA k k) (if mStreamed sh.entA then i else sh.rowA + i) (elemBits f))
  else
    match x.aRow p d q sh i with
    | none => .fin false 0 0
    | some r => elemVal f (aUnsA sh.op) (x.elem (rowAddr p sh.entA sh.jA r.1 r.2) k (elemBits f))

/-- The E8M0 scale byte of A for row i and the block of position k (R101, R113, R173). -/
def Engine.scaleA (x : Engine) (p d : Nat) (q : Pass) (sh : Shape) (i k : Nat) : Nat :=
  let e := x.entry p (mAux sh.entA)
  if aTransA sh.op then x.elem (rowAddr p e sh.jA (k / 32) (k / 32)) (if mStreamed e then i else sh.rowA + i) 8
  else
    match x.aRow p d q sh i with
    | none => 0
    | some r => x.elem (rowAddr p e sh.jA r.1 r.2) (k / 32) 8

/-- A dense element of B: column j, position k. -/
def Engine.elemB (x : Engine) (p : Nat) (sh : Shape) (j k : Nat) : FVal :=
  let f := aFormatB sh.op
  let e := sh.entB
  if aTransB sh.op then
    elemVal f (aUnsB sh.op) (x.elem (rowAddr p e sh.jB (sh.keyB + k) k)
      (if mStreamed e ∨ sh.keyB ≠ 0 then j else (sh.rowB + j)) (elemBits f))
  else elemVal f (aUnsB sh.op) (x.elem (rowAddr p e sh.jB (sh.rowB + j) j) k (elemBits f))

/-- The entry of B's scale plane: B's AuxHandle, or for sparse B that of its metadata plane (R133). -/
def Engine.scalePlaneB (x : Engine) (p : Nat) (sh : Shape) : Nat :=
  if aSparsity sh.op = 0 then x.entry p (mAux sh.entB) else x.entry p (mAux (x.entry p (mAux sh.entB)))

/-- The E8M0 scale byte of B for column j and the block of position k. -/
def Engine.scaleB (x : Engine) (p : Nat) (sh : Shape) (j k : Nat) : Nat :=
  let e := x.scalePlaneB p sh
  if aTransB sh.op then x.elem (rowAddr p e sh.jB ((sh.keyB + k) / 32) (k / 32)) (if mStreamed e ∨ sh.keyB ≠ 0 then j else sh.rowB + j) 8
  else x.elem (rowAddr p e sh.jB (sh.rowB + j) j) (k / 32) 8

/-- The kept values of column j in the sparse group g, as (position, value) (R109). -/
def Engine.sparseGroup (x : Engine) (p : Nat) (sh : Shape) (j g : Nat) : List (Nat × FVal) :=
  let f := aFormatB sh.op
  let four := aSparsity sh.op == 1
  let width := if four then 4 else 8
  let kept := (if four then 2 else 4) / (if aSparseStore sh.op then 2 else 1)
  let ib := if four then 2 else 3
  let meta' := x.entry p (mAux sh.entB)
  (List.range kept).map (fun q =>
    (g * width + x.elem (rowAddr p meta' sh.jB (sh.rowB + j) j) (g * kept + q) ib,
     elemVal f (aUnsB sh.op) (x.elem (rowAddr p sh.entB sh.jB (sh.rowB + j) j) (g * kept + q) (elemBits f))))

/-! ### Group sums (R101, R103) -/

/-- A product with the microscales of its block: 2^(XA + XB − 254), NaN where either is 0xFF. -/
def scaled (mxA mxB : Bool) (sa sb : Nat) (v : FVal) : FVal :=
  if (mxA && sa == 255) || (mxB && sb == 255) then .nan
  else
    match v with
    | .fin n m e => .fin n m (e + (if mxA then (sa : Int) - 127 else 0) + (if mxB then (sb : Int) - 127 else 0))
    | w => w

/-- The products of the group of 8 positions numbered g at cell (i, j); positions that are padded, pruned or skipped have
none. -/
def Engine.products (x : Engine) (p d : Nat) (q : Pass) (sh : Shape) (kept : Nat → Bool) (i j g : Nat) : List FVal :=
  let mxA := isMx (aFormatA sh.op)
  let mxB := isMx (aFormatB sh.op)
  let one := fun (k : Nat) (b : FVal) =>
    scaled mxA mxB (if mxA then x.scaleA p d q sh i k else 0) (if mxB then x.scaleB p sh j k else 0)
      (mulVal (x.elemA p d q sh i k) b)
  if kept (8 * g / 32) = false then []
  else if aSparsity sh.op = 0 then
    ((List.range 8).map (fun t => 8 * g + t)).filter (fun k => k < sh.k) |>.map (fun k => one k (x.elemB p sh j k))
  else
    let groups := if aSparsity sh.op = 1 then [2 * g, 2 * g + 1] else [g]
    let width := if aSparsity sh.op = 1 then 4 else 8
    (groups.filter (fun h => h * width < sh.k)).flatMap (fun h => x.sparseGroup p sh j h) |>.map (fun kv => one kv.1 kv.2)

/-- Whether a value is a negative zero. -/
def isNegZero : FVal → Bool
  | .fin n m _ => n && m == 0
  | _ => false

/-- The exact sum of a group's products (R101, R103). -/
def groupSum (ps : List FVal) : FVal :=
  if ps.all isNegZero then .fin true 0 0 else ps.foldl addVal (.fin false 0 0)

/-- One accumulation of a floating group: one rounding to FP32 (R101, R103). -/
def accFloat (acc : W32) (ps : List FVal) : W32 :=
  if ps.isEmpty then acc
  else if isNan32 acc then nan32
  else pk32 (addVal (un32 acc) (groupSum ps))

/-- An integer product as an integer. -/
def intOf : FVal → Int
  | .fin n m e => (if n then -1 else 1) * ((m : Int) * (2 ^ e.toNat : Nat))
  | _ => 0

/-- One accumulation of an integer group: exact, or saturating to 32 bits in a pass with Accumulate, with whether it did
(R102). -/
def accInt (sat : Bool) (acc : W32) (ps : List FVal) : W32 × Nat :=
  let v := acc.toInt + (ps.map intOf).foldl (· + ·) 0
  if sat then
    (if 2147483647 < v then (0x7FFFFFFF#32, 1) else if v < -2147483648 then (0x80000000#32, 1) else (BitVec.ofInt 32 v, 0))
  else (BitVec.ofInt 32 v, 0)

/-! ### Accumulators (R102, R106) -/

/-- The accumulator input of cell (i, j): HandleC's element when Accumulate is set, else zero (R102). -/
def Engine.initialAcc (x : Engine) (p d : Nat) (q : Pass) (i j : Nat) : W32 :=
  if aAccumulate (dArrayOp d) ∧ q.kind ≠ .second then
    let e := x.entry p (dC d)
    BitVec.ofNat 32 (x.elem (rowAddr p e (fetchIndex d .tile q) (q.m * dM d + i) i)
      (if mStreamed e then j else q.n * dN d + j) 32)
  else 0

/-- Whether a pass accumulates integers. -/
def Shape.integer (sh : Shape) : Bool := isInt (aFormatA sh.op)

/-- The accumulator of cell (i, j), with the number of saturations. -/
def Engine.cellAcc (x : Engine) (p d : Nat) (q : Pass) (sh : Shape) (kept : Nat → Bool) (i j : Nat) : W32 × Nat :=
  let sat := aAccumulate sh.op
  (List.range (ceilDiv sh.k 8)).foldl (fun a g =>
    let ps := x.products p d q sh kept i j g
    if sh.integer then (let r := accInt sat a.1 ps; (r.1, a.2 + r.2)) else (accFloat a.1 ps, a.2))
    (x.initialAcc p d q i j, 0)

/-! ### Skip maps (R191 to R193) -/

/-- The entry of a step's input map, when it skips zero blocks (R191). -/
def Engine.skipMap (x : Engine) (p d : Nat) : Option Nat :=
  match x.header p d with
  | none => none
  | some h => if hOccupancy h = false ∧ hOcc h ≠ noHandle then some (x.entry p (hOcc h)) else none

/-- Whether block column b has a nonzero block in the rows from `first` on (R192). -/
def Engine.columnKept (x : Engine) (p e height first rows b : Nat) : Bool :=
  (List.range (ceilDiv (first % height + rows) height)).any (fun t =>
    x.elem (rowAddr p e 0 (first / height + t) (first / height + t)) b 1 == 1)

/-- Which block columns a pass keeps; a twin issue skips only what is zero for both passes, and a second product, whose operand A is P,
skips none (R191, R192). -/
def Engine.keptColumns (x : Engine) (p d : Nat) (q : Pass) : Nat → Bool :=
  if q.kind = .second then fun _ => true else
  match x.skipMap p d, x.header p d with
  | some e, some h => fun b =>
    if q.twin then x.columnKept p e (hOccHeight h) (q.m / 2 * 2 * dM d) (min (2 * dM d) (dStepM d - q.m / 2 * 2 * dM d)) b
    else x.columnKept p e (hOccHeight h) (q.m * dM d) (tileRows d q) b
  | _, _ => fun _ => true

/-- K′, the number of kept positions (R192). -/
def keptK (k : Nat) (kept : Nat → Bool) : Nat :=
  ((List.range (ceilDiv k 32)).filter kept).foldl (fun a b => a + min 32 (k - 32 * b)) 0

/-- The number of block columns skipped. -/
def skippedColumns (k : Nat) (kept : Nat → Bool) : Nat := ((List.range (ceilDiv k 32)).filter (fun b => !kept b)).length

/-- The result of a pass: its accumulators row by row, and its saturations (R101 to R105, R194). -/
def Engine.accumulate (x : Engine) (p d : Nat) (q : Pass) : List (List W32) × Nat :=
  let sh := x.shape p d q
  let kept := x.keptColumns p d q
  let cells := (List.range sh.rows).map (fun i => (List.range sh.cols).map (fun j => x.cellAcc p d q sh kept i j))
  (cells.map (·.map (·.1)), (cells.flatMap (·.map (·.2))).foldl (· + ·) 0)

/-- An undetected array fault: the accumulator at a row and column altered by a mask. -/
def alter (rows : List (List W32)) : Option (BitVec 12 × BitVec 9 × W32) → List (List W32)
  | none => rows
  | some (i, j, mask) => rows.modify i.toNat (fun r => r.modify j.toNat (fun v => v ^^^ mask))

/-- The counts by which two results differ: how many accumulators, and the first in row then column order with both values
(R410). -/
def differences (a b : List (List W32)) : List (Nat × Nat × W32 × W32) :=
  ((a.zip b).zipIdx).flatMap (fun r => ((r.1.1.zip r.1.2).zipIdx).filterMap (fun c =>
    if c.1.1 = c.1.2 then none else some (r.2, c.2, c.1.1, c.1.2)))

end Sys2Proof.Machine
end

