-- ==== Sys2Proof/Machine/ChainMath.lean ====
section
/-!
DEFINITION. The arithmetic of chains: stages, quantisation, conversion to storage formats, and the operations of the vector
instructions on values (R160 to R165, R168 to R171, R182, R471, R475).
-/

namespace Sys2Proof.Machine

/-! ### Rounding and conversion (R163, R164, R471) -/

/-- Overflow behaviour of a target under Sat: FP32 and BF16 always give infinity (R164). -/
def overflowOf (f : Nat) (sat : Bool) : OnOverflow := if sat && !(f == 0 || f == 9) then .limit else .infinity

/-- Round a value to a RoundTo code, keeping it as FP32, with the saturations counted; a code of no format rounds nothing. -/
def roundCode (code : Nat) (sat : Bool) (v : W32) : W32 × Nat :=
  if code = 9 then (v, 0)
  else
    match floatOf code with
    | none => (v, 0)
    | some f => let r := roundTo f (overflowOf code sat) v; (r.1, b2n r.2)

/-- The limits of an integer format: INT8, INT4, INT32. -/
def intLimits (f : Nat) (unsigned : Bool) : Int × Int :=
  match f, unsigned with
  | 4, false => (-128, 127)
  | 4, true => (0, 255)
  | 8, false => (-8, 7)
  | 8, true => (0, 15)
  | _, _ => (-2147483648, 2147483647)

/-- The integer code of a value, with whether it was limited or NaN (R165). -/
def quantCode (f : Nat) (unsigned : Bool) (y : W32) : Nat × Nat :=
  let l := intLimits f unsigned
  let q := quantInt l.1 l.2 y
  (ofSigned (elemBits f) q.1, b2n q.2)

/-- The final conversion of a value to a storage format without QUANT (R164, R471). -/
def convertOut (f : Nat) (sat : Bool) (v : W32) : Nat × Nat :=
  match floatOf f with
  | some g => let r := packVal g (overflowOf f sat) (un32 v); (r.1, b2n r.2)
  | none => quantCode f false v

/-- Map a function with a saturation count over a tile. -/
def mapTile {α β : Type} (f : Nat → Nat → α → β × Nat) (rows : List (List α)) : List (List β) × Nat :=
  let r := (rows.zipIdx).map (fun q => (q.1.zipIdx).map (fun c => f q.2 c.2 c.1))
  (r.map (·.map (·.1)), (r.flatMap (·.map (·.2))).foldl (· + ·) 0)

/-- A row of a mapped tile as plain values. -/
def noSat (v : W32) : W32 × Nat := (v, 0)

/-! ### The surroundings of a stage -/

/-- What a stage needs besides the tile: the engine, partition base, descriptor, header, the pass, and the column of the
step at which the tile starts. -/
structure Env where
  x : Engine
  p : Nat
  d : Nat
  h : Nat
  q : Pass
  col0 : Nat

/-- Element (row, col) of a buffer, converted exactly to FP32 (INT32 to nearest). -/
def Engine.value32 (x : Engine) (p e row within col : Nat) (j : Nat) : W32 :=
  let f := mFormat e
  let c := x.elem (rowAddr p e j row within) col (elemBits f)
  if f = 10 then ofInt32 (BitVec.ofNat 32 c)
  else if f = 9 then BitVec.ofNat 32 c
  else
    let v := elemVal f false c
    if isMx f then
      let sb := x.elem (rowAddr p (x.entry p (mAux e)) j row within) (col / 32) 8
      pk32 (scaled true false sb 0 v)
    else pk32 v

/-- Element col of the column vector that a handle names. -/
def Env.vector (v : Env) (handle col : Nat) : W32 := v.x.value32 v.p (v.x.entry v.p handle) 0 0 col 0

/-- The column vector VecSel names, or none. -/
def Env.selected (v : Env) (w col : Nat) : Option W32 :=
  match sVec w with
  | 1 => some (v.vector (hVec0 v.h) col)
  | 2 => some (v.vector (hVec1 v.h) col)
  | _ => none

def Env.ka (v : Env) (w : Nat) : W32 := hConst v.h (sConstA w)
def Env.kb (v : Env) (w : Nat) : W32 := hConst v.h (sConstB w)

/-- The row of the step at which the tile starts. -/
def Env.row0 (v : Env) : Nat := v.q.m * dM v.d

/-- The pass whose streamed tile holds a column, and the column's place in it: the tile at hand, or, of a held band, the one the column
falls in (R177, R478). -/
def Env.tileAt (v : Env) (col : Nat) : Pass × Nat :=
  if hHeld v.h then
    let n := col / Nat.max 1 (dN v.d)
    ({ v.q with n, ordinal := v.q.m * tilesN v.d + n }, col % Nat.max 1 (dN v.d))
  else (v.q, col - v.col0)

/-- The residual input (R175): ResidualHandle, or HandleC when it is 0xFF. (DEDUCED, assumption 46) -/
def Env.residual (v : Env) (i col : Nat) : W32 :=
  let handle := if hResidual v.h = noHandle then dC v.d else hResidual v.h
  let e := v.x.entry v.p handle
  let t := v.tileAt col
  v.x.value32 v.p e (v.row0 + i) i (if mStreamed e then t.2 else col) (fetchIndex v.d .tile t.1)

/-! ### Activation (R162) -/

/-- The activations of ACT and GATEPAIR; codes 6 and 7 have no meaning in the manual and their value is free. -/
def activate (f : Nat) (ka kb x : W32) : W32 :=
  match f with
  | 0 => fmax x 0
  | 1 => if isNan32 x then nan32 else Config.gelu x
  | 2 => fmul x (fsigmoid x)
  | 3 => fsigmoid x
  | 4 => ftanh x
  | 5 => fmin (fmax x ka) kb
  | n => Config.sfuReserved (16 + n) x

/-- GATEPAIR of a row: y[j] = f(x[2j]) × x[2j + 1]. -/
def gatePairs (f : Nat) (ka kb : W32) : List W32 → List W32
  | a :: b :: r => fmul (activate f ka kb a) b :: gatePairs f ka kb r
  | _ => []

/-! ### Whole-row stages (R475) -/

/-- The sum of squares, sum and maximum of a row in the order of R160. -/
def rowSum (xs : List W32) : W32 := rowReduce fadd 0 xs
def rowMax (xs : List W32) : W32 := rowReduce fmax negInf32 xs
def rowSquares (xs : List W32) : W32 := rowReduce fadd 0 (xs.map (fun x => fmul x x))

/-- NORM before gain and bias: RMS or layer normalisation of a row with epsilon (R475). -/
def normRow (layer : Bool) (eps : W32) (xs : List W32) : List W32 :=
  let n := ofNat32 xs.length
  if layer then
    let mean := fdiv (rowSum xs) n
    let ds := xs.map (fun x => fsub x mean)
    let r := frsqrt (fadd (fdiv (rowSquares ds) n) eps)
    ds.map (fun d => fmul d r)
  else
    let r := frsqrt (fadd (fdiv (rowSquares xs) n) eps)
    xs.map (fun d => fmul d r)

/-- SOFTMAX of a row (R475). -/
def softmaxRow (scale : Option W32) (xs : List W32) : List W32 :=
  let ss := match scale with | some k => xs.map (fun x => fmul x k) | none => xs
  let m := rowMax ss
  let es := ss.map (fun s => fexp (fsub s m))
  let l := rowSum es
  es.map (fun e => fdiv e l)

/-! ### QUANT (R165) -/

/-- The magnitude of a value for amax: none for NaN, the largest finite FP32 value for an infinity. -/
def magnitude (x : W32) : Option W32 :=
  match un32 x with
  | .nan => none
  | .inf _ => some 0x7F7FFFFF#32
  | _ => some (x &&& 0x7FFFFFFF#32)

/-- amax of a list of values; zero when there is none. -/
def amaxOf (xs : List W32) : W32 := (xs.filterMap magnitude).foldl (fun a b => if a.toNat < b.toNat then b else a) 0

/-- The target's largest magnitude Q as FP32 (R165). -/
def targetMax (t : Nat) (unsigned : Bool) : W32 :=
  match t, unsigned with
  | 4, false => ofNat32 127
  | 4, true => ofNat32 255
  | 8, false => ofNat32 7
  | 8, true => ofNat32 15
  | _, _ => match floatOf t with | some g => pk32 (unpack g g.maxCode) | none => one32

/-- A value quantised to a floating target: limited to the largest finite value; NaN is the target's NaN (R165). -/
def quantFloat (g : FloatFmt) (y : FVal) : Nat × Nat :=
  match y with
  | .nan => (g.nanCode, 1)
  | .inf neg => (signBit g neg + g.maxCode, 1)
  | v => let r := packVal g .limit v; (r.1, b2n r.2)

/-- The code of a quantised value (R165). -/
def quantTo (t : Nat) (unsigned : Bool) (y : W32) : Nat × Nat :=
  match floatOf t with
  | some g => quantFloat g (un32 y)
  | none => quantCode t unsigned y

/-- Factor and stored scale of ROWMAX for a row (R165). -/
def rowmaxScales (t : Nat) (unsigned : Bool) (xs : List W32) : W32 × W32 :=
  let amax := amaxOf xs
  if amax = 0 then (one32, one32) else (fdiv (targetMax t unsigned) amax, fdiv amax (targetMax t unsigned))

/-- The emax of an MX element format. -/
def mxEmax (t : Nat) : Int := if t = 6 then 4 else 2

/-- floor(log2) of a positive finite FP32 value. -/
def floorLog2 (x : W32) : Int := match un32 x with | .fin _ m e => e + (Nat.log2 m : Int) | _ => 0

/-- One MX block: the scale byte and the element codes with their saturations (R165). -/
def mxBlock (t : Nat) (xs : List W32) : Byte × List (Nat × Nat) :=
  if xs.any isNan32 then (0xFF#8, xs.map (fun x => (0, b2n (isNan32 x))))
  else
    let amax := amaxOf xs
    let b : Nat := if amax = 0 then 0 else (max 0 (min 254 (floorLog2 amax - mxEmax t + 127))).toNat
    let g := (floatOf t).getD fmtE2M1
    (BitVec.ofNat 8 b, xs.map (fun x =>
      match un32 x with
      | .fin n m e => quantFloat g (.fin n m (e - ((b : Int) - 127)))
      | v => quantFloat g v))

/-- Split a row into blocks of 32 columns. -/
def blocks32 : Nat → List W32 → List (List W32)
  | 0, _ => []
  | n + 1, xs => xs.take 32 :: blocks32 n (xs.drop 32)

/-- QUANT of one row: element codes, scale-plane bytes, saturations. -/
def Env.quantRow (v : Env) (w : Nat) (xs : List W32) : List Nat × List Byte × Nat :=
  let t := bits (sParam w) 11 8
  let uns := bit (sParam w) 5
  match bits (sParam w) 7 6 with
  | 0 =>
    let r := xs.map (fun x => quantTo t uns (fmul x (v.ka w)))
    (r.map (·.1), [], (r.map (·.2)).foldl (· + ·) 0)
  | 1 =>
    let r := (xs.zipIdx v.col0).map (fun q => quantTo t uns (fmul q.1 ((v.selected w q.2).getD one32)))
    (r.map (·.1), [], (r.map (·.2)).foldl (· + ·) 0)
  | 2 =>
    let s := rowmaxScales t uns xs
    let r := xs.map (fun x => quantTo t uns (fmul x s.1))
    (r.map (·.1), leBytes 4 s.2.toNat, (r.map (·.2)).foldl (· + ·) 0)
  | _ =>
    let bs := (blocks32 (ceilDiv xs.length 32) xs).map (mxBlock t)
    let r := bs.flatMap (·.2)
    (r.map (·.1), bs.map (·.1), (r.map (·.2)).foldl (· + ·) 0)

/-! ### One stage on a tile (R162, R163) -/

/-- What a stage leaves: the tile, its first column, codes and scales where it was a QUANT, saturations. -/
structure Staged where
  tile : List (List W32)
  col0 : Nat
  codes : List (List Nat) := []
  scales : List (List Byte) := []
  sats : Nat := 0
deriving DecidableEq, Repr

/-- Whether a stage skips its rounding: SCALE, BIAS, COLSCALE and RESIDUAL outside exact mode (R163). -/
def skipsRounding (h w : Nat) : Bool := !hExact h && decide (1 ≤ sOp w ∧ sOp w ≤ 4)

/-- A tile rounded to a stage's RoundTo. -/
def roundTile (h w : Nat) (t : List (List W32)) : List (List W32) × Nat :=
  if skipsRounding h w then (t, 0) else mapTile (fun _ _ x => roundCode (sRound w) (sSat w) x) t

/-- The element-wise and whole-row stages before their rounding: SCALE, BIAS, COLSCALE, RESIDUAL, ACT, GATEPAIR, NORM,
SOFTMAX, CONVERT. -/
def Env.stageValue (v : Env) (w : Nat) (t : List (List W32)) : List (List W32) :=
  let f := bits (sParam w) 2 0
  let perCol := fun (g : Nat → W32 → W32) => t.map (fun r => (r.zipIdx v.col0).map (fun q => g q.2 q.1))
  if sOp w = stScale then t.map (·.map (fun x => ffma x (v.ka w) (v.kb w)))
  else if sOp w = stBias then perCol (fun c x => fadd x ((v.selected w c).getD 0))
  else if sOp w = stColscale then perCol (fun c x => fmul x ((v.selected w c).getD one32))
  else if sOp w = stResidual then
    (t.zipIdx).map (fun r => (r.1.zipIdx v.col0).map (fun q => fadd q.1 (v.residual r.2 q.2)))
  else if sOp w = stAct then t.map (·.map (activate f (v.ka w) (v.kb w)))
  else if sOp w = stGatepair then t.map (gatePairs f (v.ka w) (v.kb w))
  else if sOp w = stNorm then
    t.map (fun r => ((normRow (bit (sParam w) 0) (v.ka w) r).zipIdx v.col0).map (fun q =>
      let y := match v.selected w q.2 with | some g => fmul q.1 g | none => q.1
      if bit (sParam w) 1 then fadd y (v.vector (hVec1 v.h) q.2) else y))
  else if sOp w = stSoftmax then t.map (softmaxRow (if bit (sParam w) 0 then some (v.ka w) else none))
  else t

/-- One stage other than ONLINE and MERGE on a tile (R162, R163, R165). -/
def Env.stage (v : Env) (w : Nat) (t : List (List W32)) : Staged :=
  if sOp w = stQuant then
    let r := t.map (v.quantRow w)
    { tile := t, col0 := v.col0, codes := r.map (·.1), scales := r.map (·.2.1), sats := (r.map (·.2.2)).foldl (· + ·) 0 }
  else
    let r := roundTile v.h w (v.stageValue w t)
    { tile := r.1, col0 := if sOp w = stGatepair then v.col0 / 2 else v.col0, sats := r.2 }

/-- A list of stages applied one after another. -/
def Env.stages (v : Env) : List Nat → List (List W32) → Staged
  | [], t => { tile := t, col0 := v.col0 }
  | w :: ws, t =>
    let a := v.stage w t
    if ws.isEmpty then a
    else
      let b := { v with col0 := a.col0 }.stages ws a.tile
      { b with sats := a.sats + b.sats }

/-- The element codes a finished tile is stored with: QUANT's own, or the final conversion to HandleOut's Format with the
Sat of the last stage (R163, R164, R471). -/
def Staged.output (r : Staged) (format : Nat) (ws : List Nat) : List (List Nat) × Nat :=
  match ws.getLast? with
  | some w => if sOp w = stQuant then (r.codes, 0) else mapTile (fun _ _ x => convertOut format (sSat w) x) r.tile
  | none => mapTile (fun _ _ x => convertOut format true x) r.tile

/-! ### Chained products (R182) -/

/-- One row of ONLINE: old m and l, the row of S, its first key and query row; the row of P before rounding, m, l and
α. -/
def onlineRow (scale : Option W32) (mask : Option (W32 × Nat × Nat)) (m l : W32) (xs : List W32) : List W32 × W32 × W32 × W32 :=
  let s0 := match scale with | some k => xs.map (fun x => fmul x k) | none => xs
  let ss := match mask with
    | none => s0
    | some (kb, key0, query) => (s0.zipIdx key0).map (fun q =>
        if cmpVal (un32 (ofNat32 q.2)) (un32 (fadd (ofNat32 query) kb)) = .gt then negInf32 else q.1)
  let mnew := fmax m (rowMax ss)
  if mnew = negInf32 then
    let ps := ss.map (fun _ => (0 : W32))
    (ps, mnew, ffma l one32 (rowSum ps), one32)
  else
    let al := fexp (fsub m mnew)
    let ps := ss.map (fun s => fexp (fsub s mnew))
    (ps, mnew, ffma l al (rowSum ps), al)

/-- One row of MERGE: O × α + T, and at the last key block times the reciprocal of l, canonical NaN when l is 0. -/
def mergeRow (alpha : W32) (last : Option W32) (os ts : List W32) : List W32 :=
  let r := List.zipWith (fun o t => ffma o alpha t) os ts
  match last with
  | none => r
  | some l => if isZero32 l then r.map (fun _ => nan32) else r.map (fun o => fmul o (frecip l))

end Sys2Proof.Machine
end

