-- ==== Sys2Proof/Machine/Checks.lean ====
section
/-!
DEFINITION. Validation of steps: by the Gallery as it routes them and by the engine as it issues them, with the checks of
chains (R79, R118, R143, R166, R171, R178, R180, R189, R195, R306, R330).
-/

namespace Sys2Proof.Machine

/-! ### Windows of a context on an engine (R75, R79) -/

/-- The windows of the active version in which a context may run on an engine. -/
def State.windowsFor (s : State) (e : EngineId) (c : ContextId) : List Nat :=
  ((liveWindows s.vers.active).map (·.2)).filter (fun w => winNames w (engineUnit e) &&
    (winOwner w == c.toNat || (winOwner w == ownerOpen && s.ctxClass c == 1)))

/-- Whether C cycles exceed the MaxPass limit of every window in which the context may run, there being one (R79). (DEDUCED, assumption 20) -/
def State.tooLong (s : State) (e : EngineId) (c : ContextId) (cycles : Nat) : Bool :=
  let ws := s.windowsFor e c
  !ws.isEmpty && ws.all (fun w => decide (cyclesIn (islandKHz s.vers.active (engineUnit e)) (winMaxPassNs w) < cycles))

/-- The latency a step's passes are judged with: its array's, or the larger of the two (R121). -/
def Engine.latencyFor (x : Engine) (select : Nat) : Nat :=
  match select with
  | 1 => (x.array false).latency.toNat
  | 2 => (x.array true).latency.toNat
  | _ => Nat.max (x.array false).latency.toNat (x.array true).latency.toNat

/-! ### The Gallery's checks (R143) -/

/-- The handles an opcode cannot do without. -/
def neededHandles (d : Nat) : List Nat :=
  match dOp d with
  | 1 => [dA d, dB d, dOut d] ++ (if aAccumulate (dArrayOp d) then [dC d] else [])
  | 2 => [dA d, dOut d]
  | 3 => [dOut d]
  | 4 => [dA d]
  | 5 => [dA d, dIndex d, dOut d]
  | 6 => [dOut d]
  | 7 => [dA d]
  | _ => []

/-- The handles a step names, 0xFF among them where it names none. -/
def namedHandles (d : Nat) : List Nat :=
  match dOp d with
  | 1 => [dA d, dB d, dC d, dOut d, dChain d, dIndex d]
  | 2 => [dA d, dC d, dOut d, dChain d, dIndex d]
  | 5 => [dA d, dB d, dC d, dOut d, dIndex d]
  | _ => neededHandles d

/-- Whether a step is empty under R10: a zero extent of those its opcode uses. -/
def stepEmpty (d : Nat) : Bool :=
  match dOp d with
  | 1 | 2 => dStepM d == 0 || dStepN d == 0 || dM d == 0 || dN d == 0
  | 3 | 4 => dRows d == 0 || dLength d == 0
  | 5 => dRows d == 0
  | _ => true

/-- The byte of the backing at which row r of a LOAD or STORE lies (R476). -/
def backingAt (e address r : Nat) : Nat := (mBackingAddress e + address + r * mBP e) % 2 ^ 64

/-- The checks the Gallery makes of a step, each failure with its status (R143, R306, R330). -/
def State.galleryCheck (s : State) (c : ContextId) (d address : Nat) : List (BitVec 8) :=
  let e := dEngine d
  let x := s.engine e
  let p := x.part c
  let o := dArrayOp d
  let moduleStep := (dOp d == 3 || dOp d == 4) && !stepEmpty d
  let ent := x.entry p (if dOp d = 3 then dOut d else dA d)
  (if 7 < dOp d ∨ bits d 304 256 ≠ 0 ∨ bits d 95 0 ≠ 0 then [stInvalid] else []) ++
  (if s.resident e c = false ∨ (dSignal d ∧ s.resident (dSignalEngine d) c = false) then [stNotResident] else []) ++
  (if s.engineStopped e then [stInternal] else []) ++
  (if (neededHandles d).all (fun h => handleOk p h) && (namedHandles d).all (fun h => h == noHandle || handleOk p h) then []
   else if s.resident e c then [stInvalid] else []) ++
  (if dOp d = 1 ∧ arrayOpGood o (dM d) (dN d) (dK d) = false then [stInvalid] else []) ++
  (if dOp d = 1 ∧ stepEmpty d = false ∧ s.tooLong e c (passC o (dM d) (dK d) (x.latencyFor (aSelect o))) then [stInvalid] else []) ++
  (if dPaired d ∧ s.ctxClass c ≠ 0 then [stInvalid] else []) ++
  (if moduleStep ∧ mState ent ≠ mFree ∧ mBacking ent = 2 ∧
      (address % 64 ≠ 0 ∨ dLength d % 64 ≠ 0 ∨ mBP ent % 64 ≠ 0) then [stInvalid] else [])

/-! ### Extents of buffers (R113, R143, R476) -/

/-- Whether a buffer holds a number of rows of a number of bytes; of a streamed one, each slot. -/
def bufFits (e rows bytes : Nat) : Bool :=
  let size := if mStreamed e then mSize e / mSlots e else mSize e
  decide (rows = 0 ∨ bytes = 0) ||
  decide (rows ≤ mRows e ∧ (rows ≤ 1 ∨ ceilDiv bytes 64 ≤ mPitch e) ∧ (rows - 1) * mPitch e + ceilDiv bytes 64 ≤ size)

/-- Bytes of a number of elements of a format. -/
def bytesOf (f n : Nat) : Nat := ceilDiv (n * elemBits f) 8

/-- Rows a tile-shaped buffer must hold: those of the step, or of one tile when streamed. -/
def rowsNeeded (e step tile : Nat) : Nat := if mStreamed e then min tile step else step

/-- Whether an operand may be read: not FREE, and not EMPTY unless streamed. -/
def readable (e : Nat) : Bool := decide (mState e ≠ mFree) && (mStreamed e || decide (mState e ≠ mEmpty))

/-- A scale or metadata plane that an operand names. -/
def Engine.planeGood (x : Engine) (p e : Nat) : Bool := handleOk p (mAux e) && readable (x.entry p (mAux e))

/-- Whether the scale plane of an operand exists and holds one byte per 32 values: of each of `rows` rows, or, transposed, in
rows of `rows` bytes (R113). -/
def Engine.scalesGood (x : Engine) (p e rows values : Nat) (transposed : Bool) : Bool :=
  x.planeGood p e && (if transposed then bufFits (x.entry p (mAux e)) (ceilDiv values 32) rows
    else bufFits (x.entry p (mAux e)) rows (ceilDiv values 32))

/-- Rows of an operand that its scale plane covers: those of the step, or of a tile when the plane is streamed. -/
def Engine.planeRows (x : Engine) (p e step tile : Nat) : Nat := rowsNeeded (x.entry p (mAux e)) step tile

/-- Whether operand A of a product serves it: format, extent, plane, row list (R113, R143, R173). -/
def Engine.operandAGood (x : Engine) (p d : Nat) : Bool :=
  let o := dArrayOp d
  let e := x.entry p (dA d)
  let f := aFormatA o
  mFormat e == f &&
  (!isMx f || x.scalesGood p e (if dIndex d = noHandle then x.planeRows p e (dStepM d) (dM d) else 1) (dK d) (aTransA o)) &&
  (if aTransA o then bufFits e (dK d) (bytesOf f (rowsNeeded e (dStepM d) (dM d)))
   else bufFits e (if dIndex d = noHandle then rowsNeeded e (dStepM d) (dM d) else 1) (bytesOf f (dK d)))

/-- The values of B kept per row. -/
def keptValues (o k : Nat) : Nat :=
  match aSparsity o with
  | 0 => k
  | _ => if aSparseStore o then k / 4 else k / 2

/-- Whether operand B of a product serves it (R113, R143). -/
def Engine.operandBGood (x : Engine) (p o e k cols : Nat) : Bool :=
  let f := aFormatB o
  mFormat e == f &&
  (aSparsity o == 0 || (x.planeGood p e && bufFits (x.entry p (mAux e)) cols
    (ceilDiv (keptValues o k * (if aSparsity o = 1 then 2 else 3)) 8))) &&
  (!isMx f || x.scalesGood p (if aSparsity o = 0 then e else x.entry p (mAux e)) cols k (aTransB o)) &&
  (if aTransB o then bufFits e k (bytesOf f cols) else bufFits e cols (bytesOf f (keptValues o k)))

/-! ### Stage lists and programs -/

/-- Word i of 32 bits from the stage area; instruction i of 64 bits. -/
def Engine.stageWord (x : Engine) (p e i : Nat) : Nat :=
  ofLeBytes (Tab.readBytes x.scratch (rowAddr p e 0 0 0 + 64 + 4 * i) 4)
def Engine.instruction (x : Engine) (p e i : Nat) : Nat :=
  ofLeBytes (Tab.readBytes x.scratch (rowAddr p e 0 0 0 + 64 + 8 * i) 8)

/-- List 1 and list 2 of a step's chain (R156). -/
def Engine.list1 (x : Engine) (p d : Nat) : List Nat :=
  match x.header p d with
  | none => []
  | some h => if hForm h = 1 then [] else (List.range (hCount h)).map (x.stageWord p (x.entry p (dChain d)))
def Engine.list2 (x : Engine) (p d : Nat) : List Nat :=
  match x.header p d with
  | none => []
  | some h => if hForm h = 2 then (List.range (hCount2 h)).map (fun i => x.stageWord p (x.entry p (dChain d)) (hCount h + i)) else []

/-- The instructions of a vector program. -/
def Engine.program (x : Engine) (p d : Nat) : List Nat :=
  match x.header p d with
  | none => []
  | some h => if hForm h = 1 then (List.range (hCount h)).map (x.instruction p (x.entry p (dChain d))) else []

/-- Whether RoundTo is one of its codes. -/
def roundGood (r : Nat) : Bool := r ≤ 3 || r == 9

/-- The bits of Param a stage uses. -/
def paramMask (op : Nat) : Nat :=
  match op with
  | 5 | 6 => 0x7
  | 7 | 9 => 0x3
  | 8 => 0x1
  | 12 => 0xFE0
  | _ => 0

/-- Whether one stage word is free of reserved codes and its vector selection is right (R161, R162, R166). -/
def stageGood (w : Nat) : Bool :=
  let op := sOp w
  let src := bits (sParam w) 7 6
  let t := bits (sParam w) 11 8
  decide (1 ≤ op ∧ op ≤ 12) && roundGood (sRound w) && decide (sVec w ≤ 2) && (sParam w &&& paramMask op) == sParam w &&
  !((op == stAct || op == stGatepair) && decide (5 < bits (sParam w) 2 0)) &&
  (if op = stBias ∨ op = stColscale ∨ (op = stQuant ∧ src = 1) then sVec w != 0 else op == stNorm || sVec w == 0) &&
  (op != stQuant || (decide (t ≤ 8) && (src == 3) == isMx t && (!bit (sParam w) 5 || isInt t)))

/-- The rules of R166 on one list: QUANT last, at most one whole-row stage, ONLINE and MERGE in their places. -/
def listGood (ws : List Nat) (form2 second : Bool) : Bool :=
  let ops := ws.map sOp
  !(ops.dropLast.contains stQuant) && decide ((ws.filter wholeRow).length ≤ 1) &&
  (if form2 && !second then decide (ops.count stOnline = 1) && ops.getLast? == some stOnline && !ops.contains stMerge
   else if form2 then decide (ops.count stMerge = 1) && ops.head? == some stMerge && !ops.contains stOnline
   else !ops.contains stOnline && !ops.contains stMerge)

/-- Columns after the GATEPAIR stages of a list; none where one meets an odd count. -/
def columnsAfter : List Nat → Nat → Option Nat
  | [], n => some n
  | w :: ws, n => if sOp w = stGatepair then (if n % 2 = 0 then columnsAfter ws (n / 2) else none) else columnsAfter ws n

/-- The handles a stage needs. -/
def stageHandles (h d : Nat) (w : Nat) : List Nat :=
  (match sVec w with | 1 => [hVec0 h] | 2 => [hVec1 h] | _ => []) ++
  (if sOp w = stNorm ∧ bit (sParam w) 1 then [hVec1 h] else []) ++
  (if sOp w = stResidual then [if hResidual h = noHandle then dC d else hResidual h] else [])

/-! ### Vector instructions (R170, R171) -/

def vOp (w : Nat) : Nat := bits w 63 58
def vD (w : Nat) : Nat := bits w 57 52
def vA (w : Nat) : Nat := bits w 51 46
def vB (w : Nat) : Nat := bits w 45 40
def vC (w : Nat) : Nat := bits w 39 34
def vSpan (w : Nat) : Nat := bits w 33 29 + 1
def vPred (w : Nat) : Nat := bits w 28 26
def vNeg (w : Nat) : Bool := bit w 25
def vRound (w : Nat) : Nat := bits w 24 21
def vSat (w : Nat) : Bool := bit w 20
def vSelector (w : Nat) : Nat := bits w 19 17
def vRow (w : Nat) : Nat := bits w 15 0

/-- The opcodes of R171. -/
def vectorOps : List Nat :=
  [0x00, 0x01, 0x02, 0x03, 0x04, 0x05, 0x06, 0x07, 0x08, 0x09, 0x0A, 0x0B, 0x10, 0x11, 0x12, 0x13, 0x14, 0x15, 0x18, 0x20, 0x21,
   0x22, 0x28, 0x29, 0x2A, 0x30, 0x31, 0x38, 0x39, 0x3A, 0x3B]

/-- Cost per register and latency of a vector instruction (R171). -/
def vectorCost (op : Nat) : Nat := if op = 0x18 then 4 else 1
def vectorLatency (op : Nat) : Nat :=
  if op ≤ 0x0B then 4 else if op ≤ 0x15 then 2 else if op = 0x18 then 8 else if op = 0x20 ∨ op = 0x21 then 8
  else if op = 0x30 ∨ op = 0x31 then 6 else if 0x38 ≤ op then 1 else 2

/-- The buffer that a selector names: HandleA, HandleC, VecHandle0, VecHandle1, ResidualHandle (R171). -/
def selectedHandle (h d sel : Nat) : Nat :=
  match sel with
  | 0 => dA d
  | 1 => dC d
  | 2 => hVec0 h
  | 3 => hVec1 h
  | 4 => hResidual h
  | _ => noHandle

/-- Whether an instruction names only registers and buffers that exist (R171). -/
def instructionGood (h d w : Nat) : Bool :=
  let op := vOp w
  let n := vSpan w
  let lane := decide (op ≤ 0x0B ∨ op = 0x18 ∨ op = 0x28 ∨ op = 0x29 ∨ op = 0x2A ∨ op = 0x22 ∨ op = 0x30)
  vectorOps.contains op &&
  !(lane && decide (64 < vD w + n)) && !((op ≤ 0x18 || op == 0x20 || op == 0x21 || (0x28 ≤ op && op ≤ 0x2A) || op == 0x31) && decide (64 < vA w + n)) &&
  !((op ≤ 0x05 || op == 0x09 || (0x10 ≤ op && op ≤ 0x15)) && decide (64 < vB w + n)) && !(op == 0x03 && decide (64 < vC w + n)) &&
  !(op == 0x28 && !roundGood (vRound w)) && !(op == 0x29 && !(vRound w == 4 || vRound w == 8)) &&
  !(op == 0x18 && decide (5 < bits w 2 0)) &&
  !(op == 0x30 && selectedHandle h d (vSelector w) == noHandle) && !(op == 0x31 && hHold h == noHandle)

/-! ### Cycle counts of chains and VECTOR tiles (R158, R167, R172, R177, R477) -/

/-- Load cycles of a chain (R158). -/
def loadCycles (h : Nat) : Nat := if hForm h = 1 then ceilDiv (64 + 8 * hCount h) 512 else 1

/-- Pieces of a row of a VECTOR tile, or of an array's tile (R159). -/
def piecesPerRow (d : Nat) (vector : Bool) : Nat :=
  if vector then ceilDiv (dN d) 128 else if aMode (dArrayOp d) = 1 then 4 else 1

/-- Registers an instruction reads and writes, with their offsets in cycles from its start: vectors at 0 to 63, scalars at
64 to 95, predicates at 96 to 103. -/
def vectorReads (w : Nat) : List (Nat × Nat) :=
  let op := vOp w
  let c := vectorCost op
  (List.range (vSpan w)).flatMap (fun i =>
    ((if op ≤ 0x18 ∨ op = 0x20 ∨ op = 0x21 ∨ (0x28 ≤ op ∧ op ≤ 0x2A) ∨ op = 0x31 then [vA w + i] else []) ++
     (if op ≤ 0x05 ∨ op = 0x09 ∨ (0x10 ≤ op ∧ op ≤ 0x15) then [vB w + i] else []) ++
     (if op = 0x0A ∨ op = 0x0B ∨ op = 0x29 ∨ op = 0x38 ∨ op = 0x39 then [64 + (vB w + i) % 32] else []) ++
     (if op = 0x22 ∨ (0x38 ≤ op ∧ op ≤ 0x3A) then [64 + (vA w + i) % 32] else []) ++
     (if op = 0x30 then [64 + 8] else []) ++
     (if op = 0x03 then [vC w + i] else []) ++ (if vPred w = 0 then [] else [96 + vPred w])).map (fun r => (r, i * c)))
def vectorWrites (w : Nat) : List (Nat × Nat) :=
  let op := vOp w
  let c := vectorCost op
  if op = 0x31 then [] else
  (List.range (vSpan w)).map (fun i =>
    (if 0x10 ≤ op ∧ op ≤ 0x15 then 96 + (vD w + i) % 8
     else if op = 0x20 ∨ op = 0x21 ∨ 0x38 ≤ op then 64 + (vD w + i) % 32 else (vD w + i) % 64, (i + 1) * c + vectorLatency op))

/-- Cycles of one run of a program from its start to its output being written (R172): the costs, the waits on sources, the last
latency, and 12. -/
def programCycles (ws : List Nat) : Nat :=
  let r := ws.foldl (fun (a : Nat × Nat × Tab Nat) w =>
    let start := (vectorReads w).foldl (fun t q => Nat.max t (Tab.get 0 a.2.2 q.1 - q.2)) a.1
    let fin := start + vSpan w * vectorCost (vOp w)
    (fin, fin + vectorLatency (vOp w), (vectorWrites w).foldl (fun t q => Tab.set 0 t q.1 (start + q.2)) a.2.2)) (0, 0, [])
  r.2.1 + 12

/-- The stages before the whole-row stage, and from it on (R177). -/
def splitStages (ws : List Nat) : List Nat × List Nat := (ws.takeWhile (fun w => !wholeRow w), ws.dropWhile (fun w => !wholeRow w))

/-- Sweep cycles per piece of a whole-row stage (R177). -/
def sweepCycles (w : Nat) : Nat :=
  if sOp w = stSoftmax then 5 else if sOp w = stNorm ∧ bit (sParam w) 0 then 2 else 1

/-- C of a stage list over P pieces without the load (R167, R477). -/
def stageCycles (ws : List Nat) (occ : Bool) (pieces : Nat) : Nat :=
  pieces + (pieces - 1) * (chainCost ws - 1) + 12 + chainLatency ws occ false

/-- Cycles of a program over a tile: groups of 32 pieces (R169, R477). -/
def groupCycles (ws : List Nat) (pieces : Nat) : Nat := pieces + ceilDiv pieces 32 * programCycles ws

/-- C of a VECTOR tile of the given rows and columns, or of a whole band in held mode; `held` says the chain is held (R477). The sweeps
and final stages of a band act on the held pieces, whose columns GATEPAIR stages have halved (R177). -/
def Engine.vectorC (x : Engine) (p d rows cols : Nat) (chainHeld : Bool) : Nat :=
  let pieces := rows * ceilDiv cols 128
  match x.header p d with
  | none => stageCycles [] false pieces
  | some h =>
    let lc := if chainHeld then 0 else loadCycles h
    if hForm h = 1 then lc + groupCycles (x.program p d) pieces
    else if hHeld h then
      let sp := splitStages (x.list1 p d)
      let tile := fun (n : Nat) => rows * ceilDiv (min (dN d) (dStepN d - n * dN d)) 128
      let band := rows * ceilDiv ((columnsAfter sp.1 (dStepN d)).getD 0) 128
      lc + ((List.range (tilesN d)).map (fun n => stageCycles sp.1 false (tile n))).foldl (· + ·) 0 +
        band * (sp.2.head?.map sweepCycles).getD 0 + stageCycles sp.2 (hOccupancy h) band
    else lc + stageCycles (x.list1 p d) (hOccupancy h) pieces

/-! ### Chain checks (R166, R178, R180, R189, R191, R195) -/

/-- The format tiles are held in: the RoundTo of the stage before the whole-row stage in exact mode, else FP32 (R177). -/
def heldFormat (h : Nat) (ws : List Nat) : Nat :=
  match (splitStages ws).1.getLast? with
  | some w => if hExact h then sRound w else 9
  | none => 9

/-- Lines the hold of a chain needs: one band, or for a Form 2 chain the statistics and O of a band (R178, R180). -/
def Engine.holdLines (x : Engine) (p d h : Nat) : Nat :=
  if hForm h = 2 then (ceilDiv (dM d * hN2 h * 4) 64 + 4) * (if aTwin (dArrayOp d) then 2 else 1)
  else ceilDiv (dM d * dStepN d * elemBits (heldFormat h (x.list1 p d)) / 8) 64

/-- Whether a handle names a buffer in use. -/
def Engine.inUse (x : Engine) (p h : Nat) : Bool := handleOk p h && decide (mState (x.entry p h) ≠ mFree)

/-- Columns per output tile and per output row after a chain. -/
def Engine.outColumns (x : Engine) (p d n : Nat) : Nat :=
  match x.header p d with
  | some h => if hForm h = 2 then (columnsAfter ((x.list2 p d).drop 1) (hN2 h)).getD 0 else (columnsAfter (x.list1 p d) n).getD 0
  | none => n

/-- Columns that enter each stage of a list, GATEPAIR stages halving them. -/
def columnsAt : List Nat → Nat → List (Nat × Nat)
  | [], _ => []
  | w :: ws, n => (w, n) :: columnsAt ws (if sOp w = stGatepair then n / 2 else n)

/-- Whether a column vector serves a stage: a vector of a number format whose row holds the columns (R162, R189). -/
def Engine.vectorGood (x : Engine) (p h cols : Nat) : Bool :=
  let e := x.entry p h
  mFormat e != 0xB && bufFits e 1 (bytesOf (mFormat e) cols)

/-- Whether the buffers that a stage reads hold what it reads, `cols` columns entering it (R162, R175, R189). -/
def Engine.stageBuffersGood (x : Engine) (p d h : Nat) (w cols : Nat) : Bool :=
  (match sVec w with
    | 1 => x.vectorGood p (hVec0 h) cols
    | 2 => x.vectorGood p (hVec1 h) cols
    | _ => true) &&
  (!(sOp w == stNorm && bit (sParam w) 1) || x.vectorGood p (hVec1 h) cols) &&
  (sOp w != stResidual ||
    (let e := x.entry p (if hResidual h = noHandle then dC d else hResidual h)
     mFormat e != 0xB && bufFits e (rowsNeeded e (dStepM d) (dM d))
       (bytesOf (mFormat e) (if mStreamed e then min (dN d) (dStepN d) else dStepN d))))

/-- Whether the output's plane holds the scales that a QUANT stage writes: one byte per 32 columns for MX, four bytes a row for a
row maximum (R165). -/
def Engine.quantPlaneGood (x : Engine) (p d w : Nat) : Bool :=
  let out := x.entry p (dOut d)
  let pl := x.entry p (mAux out)
  let cols := x.outColumns p d (if mStreamed pl then min (dN d) (dStepN d) else dStepN d)
  let src := bits (sParam w) 7 6
  !decide (2 ≤ src) || (x.inUse p (mAux out) &&
    bufFits pl (rowsNeeded pl (dStepM d) (dM d)) (if src = 3 then ceilDiv cols 32 else 4))

/-- The checks of a skipping step (R191, R195). -/
def Engine.skipGood (x : Engine) (p d h : Nat) : Bool :=
  let e := x.entry p (hOcc h)
  let rows := ceilDiv (dStepM d) (hOccHeight h)
  dOp d == 1 && aMode (dArrayOp d) != 2 && dIndex d == noHandle && !aTransA (dArrayOp d) && x.inUse p (hOcc h) && readable e &&
  decide ((rows - 1) * mPitch e * 64 + ceilDiv (ceilDiv (dK d) 32) 8 ≤ mSize e * 64)

/-- The checks of a send table (R183, R184, R189). -/
def Engine.sendGood (x : Engine) (p d h : Nat) : Bool :=
  let e := x.entry p (hSendTable h)
  let a := rowAddr p e 0 0 0
  let head := ofLeBytes (Tab.readBytes x.scratch a 64)
  let n := bits head 511 508
  let out := x.entry p (dOut d)
  let rows := if hForm h = 2 then dM d else min (dM d) (dStepM d)
  let tileBytes := rows * (ceilDiv (bytesOf (mFormat out) (x.outColumns p d (min (dN d) (dStepN d)))) 64 * 64)
  x.inUse p (hSendTable h) && mFormat e == 0xB && decide (1 ≤ n ∧ n ≤ 8 ∧ bits head 507 506 ≤ 1 ∧ bits head 505 0 = 0) &&
  decide (64 + 32 * n ≤ 64 * mSize e) &&
  (List.range n).all (fun i =>
    let r := ofLeBytes (Tab.readBytes x.scratch (a + 64 + 32 * i) 32)
    decide (bits r 31 24 ≠ 0 ∧ bits r 23 0 = 0 ∧ bits r 63 32 % 64 = 0 ∧ tileBytes ≤ bits r 63 32))

/-- Whether the buffer a memory instruction names serves it: a number buffer in use to load from, room for FP32 rows to store to
(R171, R189). -/
def Engine.memoryGood (x : Engine) (p h d w : Nat) : Bool :=
  let from' := x.entry p (selectedHandle h d (vSelector w))
  (vOp w != 0x30 || (x.inUse p (selectedHandle h d (vSelector w)) && readable from' && mFormat from' != 0xB)) &&
  (vOp w != 0x31 || (x.inUse p (hHold h) && bufFits (x.entry p (hHold h)) (vRow w + vSpan w) 512))

/-- Rows that the second product's operand B must hold: those of one key block, or of every key block when it is resident
(R182). -/
def Engine.secondRows (x : Engine) (p d h per : Nat) : Nat :=
  if mStreamed (x.entry p (hSecondB h)) then per else tilesN d * per

/-- The failures of a step's chain, each with its status (R189). (DESIGN CHOICE, assumption 160) -/
def Engine.chainCheck (x : Engine) (p d : Nat) : List (BitVec 8) :=
  let out := x.entry p (dOut d)
  match x.header p d with
  | none => if isMx (mFormat out) || (decide (dIndex d ≠ noHandle) && dOp d == 1 && aTransA (dArrayOp d)) then [stInvalid] else []
  | some h =>
    let ce := x.entry p (dChain d)
    let l1 := x.list1 p d
    let l2 := x.list2 p d
    let form2 := hForm h == 2
    let bytes := 64 + (if hForm h = 1 then 8 * hCount h else 4 * (hCount h + hCount2 h))
    let need := (l1 ++ l2).flatMap (stageHandles h d)
    let hold := hHeld h || form2
    let lines := x.holdLines p d h
    let lastOf := if form2 then l2 else l1
    let quants := (l1 ++ l2).filter (fun w => sOp w == stQuant)
    let bad := fun (b : Bool) => if b then [stInvalid] else []
    bad (mFormat ce != 0xB || decide (64 * mSize ce < bytes) || !readable ce) ++
    bad (decide (bits h 385 256 ≠ 0) || hForm h == 3 || (hForm h == 1 && !(decide (1 ≤ hCount h ∧ hCount h ≤ 256))) ||
         (hForm h != 1 && decide (12 < hCount h + hCount2 h)) || (form2 && hCount2 h == 0) || (!form2 && hCount2 h != 0)) ++
    bad (!(l1 ++ l2).all stageGood) ++
    bad (!need.all (fun k => x.inUse p k && readable (x.entry p k))) ++
    bad (!((columnsAt l1 (dStepN d)) ++ columnsAt l2 (hN2 h)).all
      (fun q => x.stageBuffersGood p d h q.1 q.2)) ++
    bad (!listGood l1 form2 false || (form2 && !listGood l2 true true)) ++
    bad ((columnsAfter l1 (dN d)).isNone || (form2 && (columnsAfter (l2.drop 1) (hN2 h)).isNone)) ++
    bad (quants.any (fun w => bits (sParam w) 11 8 != mFormat out) || (form2 && l1.any (fun w => sOp w == stQuant))) ++
    bad (quants.any (fun w => !x.quantPlaneGood p d w)) ++
    bad (isMx (mFormat out) && !(quants.any (fun w => bits (sParam w) 7 6 == 3))) ++
    bad (form2 && (dOp d == 2 || !arrayOpGood (hArrayOp2 h) (dM d) (hN2 h) (dN d) || hN2 h == 0 || decide (128 < hN2 h) ||
         aMode (dArrayOp d) == 2 || aMode (hArrayOp2 h) == 2 || !x.inUse p (hSecondB h) || !readable (x.entry p (hSecondB h)) ||
         !x.inUse p (hP h) || mFormat (x.entry p (hP h)) != aFormatA (hArrayOp2 h) || isMx (aFormatA (hArrayOp2 h)) ||
         !bufFits (x.entry p (hP h)) (dM d * (if aTwin (dArrayOp d) then 2 else 1)) (bytesOf (aFormatA (hArrayOp2 h)) (dN d)) ||
         !x.operandBGood p (hArrayOp2 h) (x.entry p (hSecondB h)) (if aTransB (hArrayOp2 h) then x.secondRows p d h (dN d) else dN d)
           (if aTransB (hArrayOp2 h) then hN2 h else x.secondRows p d h (hN2 h)))) ++
    bad (((l1 ++ l2).any wholeRow && decide (dN d < dStepN d) && !hHeld h) || (hHeld h && dTileOrder d) ||
         (hHeld h && hForm h == 1) || (hHeld h && hForm h == 0 && !l1.any wholeRow) || (hHeld h && form2)) ++
    (if hold ∧ 512 * parCount p < lines then [stHoldExceeded]
     else if hold ∧ (x.inUse p (hHold h) = false ∨ mSize (x.entry p (hHold h)) < lines) then [stInvalid] else []) ++
    bad (decide (dIndex d ≠ noHandle) && dOp d == 1 && aTransA (dArrayOp d)) ++
    bad (aAccumulate (dArrayOp d) && dOp d == 1 && hResidual h == noHandle && (l1 ++ l2).any (fun w => sOp w == stResidual)) ++
    bad (hOccupancy h && !(x.inUse p (hOcc h) && decide ((ceilDiv (dStepM d) (hOccHeight h) - 1) * mPitch (x.entry p (hOcc h)) * 64 +
         ceilDiv (ceilDiv (x.outColumns p d (dStepN d)) 32) 8 ≤ 64 * mSize (x.entry p (hOcc h))))) ++
    bad (!hOccupancy h && hOcc h != noHandle && !x.skipGood p d h) ++
    bad (hSend h && !x.sendGood p d h) ++
    bad ((x.program p d).any (fun w => !instructionGood h d w || !x.memoryGood p h d w)) ++
    bad (lastOf.isEmpty && mFormat out == 0xB)

/-! ### The engine's checks (R118, R143, R476) -/

/-- Whether an array is out of service. -/
def MatrixArray.out (a : MatrixArray) : Bool := a.health != .inService

/-- Whether the buffer is the operation port's: BYTES backed by the module's own port address (R318, R331). -/
def State.isPort (s : State) (e : Nat) : Bool :=
  mFormat e == 0xB && mBacking e == 2 && mBackingAddress e == s.moduleId * 2 ^ 48 + 0xFFF * 2 ^ 36

/-- The rows of an output per step: one band of M rows each, or the step's rows. -/
def Engine.outGood (x : Engine) (p d : Nat) : Bool :=
  let e := x.entry p (dOut d)
  let f := mFormat e
  decide (f ≤ 10) &&
  (if mStreamed e then bufFits e (min (dM d) (dStepM d)) (bytesOf f (x.outColumns p d (min (dN d) (dStepN d))))
   else bufFits e (dStepM d) (bytesOf f (x.outColumns p d (dStepN d))))

/-- Whether a pass of a step is above every MaxPass limit: of a Form 2 chain its second product, of a VECTOR step its tile or, in held
mode, its band (R79, R180, R477). -/
def State.passTooLong (s : State) (e : EngineId) (c : ContextId) (d : Nat) : Bool :=
  let x := s.engine e
  let p := x.part c
  if dOp d = opVector then s.tooLong e c (x.vectorC p d (min (dM d) (dStepM d)) (min (dN d) (dStepN d)) false)
  else
    match x.header p d with
    | some h => hForm h == 2 && s.tooLong e c (passC (hArrayOp2 h) (dM d) (dN d) (x.latencyFor (aSelect (dArrayOp d))))
    | none => false

/-- The failures the engine finds as it issues a step (R118, R143, R306, R476). -/
def State.engineCheck (s : State) (e : EngineId) (c : ContextId) (d address : Nat) : List (BitVec 8) :=
  let x := s.engine e
  let p := x.part c
  let o := dArrayOp d
  let bad := fun (b : Bool) => if b then [stInvalid] else []
  let ea := x.entry p (dA d)
  let eo := x.entry p (dOut d)
  let allNamed := (namedHandles d).filter (fun h => h ≠ noHandle)
  match dOp d with
  | 1 | 2 =>
    (if dOp d = 1 ∧ ((aSelect o = 1 ∧ (x.array false).out) ∨ (aSelect o = 2 ∧ (x.array true).out) ∨
        (aSelect o = 0 ∧ (x.array false).out ∧ (x.array true).out)) then [stQuarantined] else []) ++
    bad (!allNamed.all (fun h => x.inUse p h)) ++
    bad (!readable ea || (dOp d == 1 && !readable (x.entry p (dB d))) || (decide (dC d ≠ noHandle) && !readable (x.entry p (dC d)))) ++
    (if stepEmpty d then [] else
     bad (dOp d == 1 && !(x.operandAGood p d && x.operandBGood p o (x.entry p (dB d)) (dK d)
       (rowsNeeded (x.entry p (dB d)) (dStepN d) (dN d)))) ++
     bad (dOp d == 1 && aAccumulate o && !(mFormat (x.entry p (dC d)) == (if isInt (aFormatA o) then 10 else 9) &&
       bufFits (x.entry p (dC d)) (rowsNeeded (x.entry p (dC d)) (dStepM d) (dM d))
         (4 * (if mStreamed (x.entry p (dC d)) then min (dN d) (dStepN d) else dStepN d)))) ++
     bad (dOp d == 2 && !(decide (mFormat ea ≤ 10) && bufFits ea (if dIndex d = noHandle then rowsNeeded ea (dStepM d) (dM d) else 1)
       (bytesOf (mFormat ea) (if mStreamed ea then min (dN d) (dStepN d) else dStepN d)))) ++
     bad (!x.outGood p d) ++
     bad (dOp d == 2 && isMx (mFormat ea) && !x.scalesGood p ea
       (if dIndex d = noHandle then x.planeRows p ea (dStepM d) (dM d) else 1)
       (if mStreamed (x.entry p (mAux ea)) then min (dN d) (dStepN d) else dStepN d) false) ++
     bad (decide (dIndex d ≠ noHandle) && (decide (64 * mSize (x.entry p (dIndex d)) < 2 * dStepM d) ||
       !readable (x.entry p (dIndex d))))) ++
    bad (dOut d == dA d || dOut d == dB d || (decide (dC d ≠ noHandle) && dOut d == dC d)) ++
    x.chainCheck p d ++
    bad (!stepEmpty d && s.passTooLong e c d)
  | 3 | 4 =>
    let b := if dOp d = 3 then eo else ea
    let lines := ceilDiv (dLength d) 64
    let write := dOp d == 4
    bad (decide (mState b = mFree) || mBacking b == 0) ++
    (if stepEmpty d then [] else
     bad (decide (mRows b < dRows d ∨ (1 < dRows d ∧ mPitch b < lines) ∨ mSize b < (dRows d - 1) * mPitch b + lines)) ++
     (if mBacking b = 2 ∧ dOp d = 4 ∧ s.isPort b then bad (decide (address ≠ 0 ∨ dLength d % 64 ≠ 0))
      else if mBacking b = 2 then
        (if address % 64 ≠ 0 ∨ dLength d % 64 ≠ 0 ∨ mBP b % 64 ≠ 0 then [stInvalid] else []) ++
        (if (List.range (dRows d)).all (fun r => s.granted (s.ctxSource c) (backingAt b address r) (!write)) then [] else [stSecurity])
      else if mBacking b = 1 then
        (if (List.range (dRows d)).all (fun r => s.regionAllows c (backingAt b address r) (dLength d) write) then [] else [stSecurity])
      else []))
  | 7 => bad (!x.inUse p (dA d))
  | _ => []

end Sys2Proof.Machine
end

