-- ==== Sys2Proof/Machine/Steps.lean ====
section
/-!
DEFINITION. Steps: routing by the Gallery, issue on an engine, commit and semaphores (R134, R135, R138 to R143, R147, R149,
R476).
-/

namespace Sys2Proof.Machine

/-! ### Routing (R137, R140, R143) -/

/-- The batch of a context whose steps the Gallery routes: the first not ended with steps left. -/
def State.routing (s : State) (c : ContextId) : Option Batch :=
  s.batches.find? (fun b => b.context == c && !b.ended && decide (b.routed < b.stepCount))

/-- The Address a step runs with: its own, or the argument's, InputAddress or OutputAddress (R140). -/
def resolveAddress (d : Nat) (argument : BitVec 64) (b : Batch) : W64 :=
  if dFromArgument d = false then BitVec.ofNat 64 (dAddress d)
  else if dSlot d = 254 then b.input
  else if dSlot d = 255 then b.output
  else argument

/-- The descriptor and argument a step is routed with, and the statuses of reading them. A ring's are read from the host; a receiver
chart's step list and argument block lie in module memory, where the Gallery reads them (R140, R229). -/
def State.routeInputs (s : State) (b : Batch) (descriptor : BitVec 512) (argument : BitVec 64) :
    State × BitVec 512 × BitVec 64 × List (BitVec 8) :=
  match b.origin with
  | .receiver _ =>
    let q := s.readSpan (b.listAddress.toNat + 64 * b.routed) 64 controlUnit 0
    let d := ofLeBytes q.2.1
    let v := q.1.readSpan (b.argument.toNat + 8 * dSlot d) 8 controlUnit 0
    if dFromArgument d ∧ dSlot d < 254 then (v.1, BitVec.ofNat 512 d, BitVec.ofNat 64 (ofLeBytes v.2.1), q.2.2 ++ v.2.2)
    else (q.1, BitVec.ofNat 512 d, 0, q.2.2)
  | _ => (s, descriptor, argument, [])

/-- The steps of a context that its queue on an engine holds: those that have not committed (R144). -/
def EngineContext.held (k : EngineContext) : Nat := k.queue.length + (k.runs.filter (fun r => !r.again)).length

/-- A step is routed to the queue of its context on its engine, or its first failures end its batch; a full queue keeps it
waiting (R124, R143). (DEDUCED, assumption 35) -/
def effStepRoute (c : ContextId) (descriptor0 : BitVec 512) (argument0 : BitVec 64) (s0 : State) : State :=
  match s0.routing c with
  | none => s0
  | some b =>
    let i := s0.routeInputs b descriptor0 argument0
    let s := i.1
    let descriptor := i.2.1
    let d := descriptor.toNat
    let e := dEngine d
    let address := resolveAddress d i.2.2.1 b
    let bad := i.2.2.2 ++ s.galleryCheck c d address.toNat
    if s0.noWork then s0
    else if bad.isEmpty = false then bad.foldl (fun s st => s.endBatch b.id st) s
    else if 64 ≤ (s.ectx e c).held then s0
    else
      let k := s.ectx e c
      let st : Step := { descriptor, address, batch := b.id, generation := b.generation }
      (s.setEctx e c { k with queue := k.queue ++ [st] }).updBatch b.id (fun b => { b with routed := b.routed + 1 })

/-- STEP_ROUTE (R143). -/
def execStepRoute (context : ContextId) (descriptor : BitVec 512) (argument : BitVec 64) (s : State) :
    Host.Outcome State Fault Refusal := .next (effStepRoute context descriptor argument s)

/-! ### Issue (R75, R91, R138, R141, R142) -/

/-- Whether an engine admits steps of a context: the window open on it does; a RAN window admits none while TimeQuality is UNSET (R56,
R71, R75, R97). (DEDUCED, assumption 21) -/
def State.stepAdmitted (s : State) (e : EngineId) (c : ContextId) : Bool :=
  match s.openWindow (engineUnit e) with
  | none => false
  | some l => (s.admitted e l.win).contains c

/-- Whether the batches before one of the same context have all committed their last step (R91). -/
def State.batchTurn (s : State) (b : Nat) (c : ContextId) : Bool :=
  (s.batches.filter (fun x => x.context == c && !x.foreign)).all (fun x => decide (b ≤ x.id) || s.batchDone x)

/-- The handles a step writes (R138). -/
def Engine.writtenHandles (x : Engine) (p d : Nat) : List Nat :=
  match dOp d with
  | 1 | 2 =>
    dOut d :: (match x.header p d with
      | none => []
      | some h => (if hOccupancy h then [hOcc h] else []) ++ (if hHeld h || hForm h == 2 || hForm h == 1 then [hHold h] else []) ++
                  (if hForm h = 2 then [hP h] else []) ++
                  (if mAux (x.entry p (dOut d)) = noHandle then [] else [mAux (x.entry p (dOut d))]))
  | 3 | 6 => [dOut d]
  | 5 => [dOut d, dB d, dC d]
  | 7 => [dA d]
  | _ => []

/-- The handles a step reads, through the chains of auxiliary planes and the chain's own buffers. -/
def Engine.readHandles (x : Engine) (p d : Nat) : List Nat :=
  let planes := fun (h : Nat) => let a := mAux (x.entry p h); [h, a, mAux (x.entry p a)]
  match dOp d with
  | 1 | 2 =>
    planes (dA d) ++ (if dOp d = 1 then planes (dB d) else []) ++ [dC d, dChain d, dIndex d] ++
    (match x.header p d with
     | none => []
     | some h => [hVec0 h, hVec1 h, hResidual h, hSendTable h] ++ (if hOccupancy h then [] else [hOcc h]) ++
                 (if hForm h = 2 then planes (hSecondB h) else []))
  | 4 => [dA d]
  | 5 => [dA d, dIndex d]
  | _ => []

/-- Whether every entry a step uses is whole: those it names, their planes, and those its chain's header names (R136). -/
def Engine.pairsGood (x : Engine) (p d : Nat) : Bool :=
  ((namedHandles d ++ x.readHandles p d ++ x.writtenHandles p d).filter (fun h => handleOk p h)).all (fun h => (x.mooring p h).good)

/-- Whether no earlier uncommitted step of the context writes a buffer the step names or reads; a RELEASE also waits for the
earlier readers (R135, R142). (DEDUCED, assumption 33) -/
def State.inputsCommitted (s : State) (e : EngineId) (c : ContextId) (d : Nat) : Bool :=
  let x := s.engine e
  let p := x.part c
  let mine := namedHandles d ++ x.readHandles p d ++ x.writtenHandles p d
  (x.ctx c).runs.all (fun r =>
    let rd := r.step.descriptor.toNat
    let w := x.writtenHandles p rd
    mine.all (fun h => h == noHandle || !w.contains h) &&
    (dOp d != opRelease || !((x.readHandles p rd).contains (dA d))))

/-- What the wait of a step says: 0 go, 1 wait, 2 a wrap fault (R141). -/
def EngineContext.waitState (k : EngineContext) (d : Nat) : Nat :=
  if dWait d = false then 0
  else
    match wrapDiff 16 (dWaitTarget d) (Tab.get 0 k.semaphores (dWaitSem d)).toNat with
    | none => 2
    | some v => if 0 ≤ v then 0 else 1

/-- The step at the head of a context's queue on an engine, if it is of an opcode. -/
def State.headStep (s : State) (e : EngineId) (c : ContextId) (op : Nat) : Option Step :=
  match (s.ectx e c).queue with
  | [] => none
  | st :: _ => if dOp st.descriptor.toNat = op then some st else none

/-- Whether the step at the head may issue, its wait apart. -/
def State.mayIssue (s : State) (e : EngineId) (c : ContextId) (st : Step) : Bool :=
  !s.noWork && !s.engineStopped e && s.stepAdmitted e c && s.resident e c && s.batchTurn st.batch c &&
  s.inputsCommitted e c st.descriptor.toNat && !s.chr.gated.getLsbD (groupOf e)

/-- The WriteSeq of each buffer a step reads (R149). -/
def Engine.readSeqs (x : Engine) (p d : Nat) : List (Nat × W16) :=
  (((x.readHandles p d).filter (handleOk p)).eraseDups).map (fun h => (h, BitVec.ofNat 16 (mWriteSeq (x.entry p h))))

/-- Whether any buffer a step reads is POISONED (R149). -/
def Engine.readsPoison (x : Engine) (p d : Nat) : Bool :=
  (x.readHandles p d).any (fun h => handleOk p h && decide (mState (x.entry p h) = mPoisoned))

/-- The head step leaves the queue and becomes an issued run with the next serial (R138). The batch's first issue is timed
(R416). (DEDUCED, assumption 32) -/
def State.beginRun (s : State) (e : EngineId) (c : ContextId) (st : Step) (f : Run → Run) : State :=
  let x := s.engine e
  let k := x.ctx c
  let d := st.descriptor.toNat
  let p := x.part c
  let serial := k.serial + 1
  let r : Run := f { step := st, serial, reads := x.readSeqs p d, statuses := if x.readsPoison p d then [stPoisoned] else [] }
  (s.setEctx e c { k with queue := k.queue.drop 1, serial, runs := k.runs ++ [r] }).updBatch st.batch (fun b =>
    { b with started := match b.started with | some t => some t | none => some (unitsOfStamp s.now) })

/-- What issue leads to: the step is not there or waits, its batch ends, the engine stops, or it issues. -/
inductive IssueResult where
  | waits
  | fails (statuses : List (BitVec 8))
  | stops
  | issues (step : Step)
deriving DecidableEq, Repr

/-- The course of a step of an opcode at the head of its queue (R136, R141, R142, R143). -/
def State.issueOf (s : State) (e : EngineId) (c : ContextId) (op : Nat) : IssueResult :=
  match s.headStep e c op with
  | none => .waits
  | some st =>
    let d := st.descriptor.toNat
    let x := s.engine e
    if s.mayIssue e c st = false then .waits
    else
      match (x.ctx c).waitState d with
      | 1 => .waits
      | 2 => .fails [stInvalid]
      | _ =>
        if x.pairsGood (x.part c) d = false then .stops
        else
          let bad := s.engineCheck e c d st.address.toNat
          if bad.isEmpty then .issues st else .fails bad

/-- A mooring pair that fails on use: the engine stops, with an integrity event (R136). -/
def State.mooringFault (s : State) (e : EngineId) (c : ContextId) : State :=
  (s.raise { area := 0x40, kind := 0x09, unit := engineUnit e, ctx := some c }).stopEngine e

/-- The head step's batch ends, with an event when it was a wrap fault of its semaphore (R11, R141, R143). -/
def State.failStep (s : State) (e : EngineId) (c : ContextId) (sts : List (BitVec 8)) : State :=
  match (s.ectx e c).queue with
  | [] => s
  | st :: _ =>
    let wrap := (s.ectx e c).waitState st.descriptor.toNat == 2
    let s1 := sts.foldl (fun s x => s.endBatch st.batch x) s
    s1.raiseIf wrap { area := 0x40, kind := 0x10, unit := engineUnit e, ctx := some c, status := stInvalid }

/-- Issue a step of an opcode: `go` says what the issued step does. -/
def State.issueStep (s : State) (e : EngineId) (c : ContextId) (op : Nat) (go : State → Step → State) : State :=
  match s.issueOf e c op with
  | .waits => s
  | .fails sts => s.failStep e c sts
  | .stops => s.mooringFault e c
  | .issues st => go s st

/-- NOP: it moves nothing (R139). -/
def execNop (engine : EngineId) (context : ContextId) (s : State) : Host.Outcome State Fault Refusal :=
  .next (s.issueStep engine context opNop (fun s st => s.beginRun engine context st id))

/-! ### MOOR and RELEASE (R134, R135) -/

/-- Whether two line ranges overlap. -/
def overlaps (a n b m : Nat) : Bool := decide (a < b + m ∧ b < a + n)

/-- The failures of an entry image at a MOOR (R134, R306). -/
def State.moorCheck (s : State) (e : EngineId) (c : ContextId) (h address img : Nat) : List (BitVec 8) :=
  let x := s.engine e
  let p := x.part c
  let limit := 512 * parCount p
  let bad := fun (b : Bool) => if b then [stInvalid] else []
  bad (decide (mState (x.entry p h) ≠ mFree)) ++
  bad (decide (bits img 255 243 ≠ 0 ∨ bits img 241 241 ≠ 0 ∨ bits img 167 136 ≠ 0 ∨ bits img 135 128 ≠ 0 ∨ bits img 31 0 ≠ 0 ∨
    11 < mFormat img ∨ (mStreamed img ∧ bits img 239 238 = 3))) ++
  bad (decide (address % 32 ≠ 0)) ++ bad (decide (mSize img = 0 ∨ 8192 < mSize img)) ++
  bad (decide (limit < mOffset img + mSize img)) ++
  bad ((List.range (16 * parCount p)).any (fun k => let o := x.entry p k
    decide (k ≠ h ∧ mState o ≠ mFree) && overlaps (mOffset o) (mSize o) (mOffset img) (mSize img))) ++
  bad (mRetain img && mBacking img == 0) ++
  bad (mStreamed img && (mBacking img == 0 || decide (mSize img % mSlots img ≠ 0))) ++
  bad (decide (mAux img ≠ noHandle) && !(handleOk p (mAux img) && decide (mState (x.entry p (mAux img)) ≠ mFree))) ++
  (if mBacking img = 1 ∧ s.regionAllows c (mBackingAddress img) (mRows img * mBackingPitch img) false = false then [stSecurity] else [])

/-- The 32 bytes at a MOOR step's Address: a host read of the submitting function, which ends as the command says; the steps of a receiver
chart read them from module memory, checked under R306 (R134, R346, R347). -/
def State.readImage (s : State) (e : EngineId) (c : ContextId) (chart : Bool) (address : Nat) (result : ReadResult) (image : BitVec 256) :
    State × List Byte × List (BitVec 8) :=
  if chart then
    if s.regionAllows c address 32 false = false then (s, [], [stSecurity])
    else s.readSpan address 32 (engineUnit e) (BitVec.ofNat 2 (s.ctxClass c))
  else
    let r : ReadResult := if s.linkUp then result else .timeout
    (s.translate (s.ctxSource c) address, leBytes 32 image.toNat, if r = .good then [] else [statusOfRead r])

/-- MOOR: the image read at Address becomes HandleOut's entry, EMPTY (R134). A host read is withheld while IDE withholds it (R365). -/
def effMoor (e : EngineId) (c : ContextId) (result : ReadResult) (image : BitVec 256) (s : State) : State :=
  s.issueStep e c opMoor (fun s st =>
    let d := st.descriptor.toNat
    let h := dOut d
    let chart := (s.batches.any (fun b => b.id == st.batch && (match b.origin with | .receiver _ => true | _ => false)))
    if chart = false ∧ s.ideBlocked then s else
    let q := s.readImage e c chart st.address.toNat result image
    let img := ofLeBytes q.2.1
    let bad := q.2.2 ++ (if q.2.2.isEmpty then s.moorCheck e c h st.address.toNat img else [])
    if bad.isEmpty = false then q.1.failStep e c bad
    else
      let s1 := q.1.beginRun e c st id
      s1.updEngine e (fun x => x.setEntry (x.part c) h (setBits (setBits img 255 246 c.toNat) 245 243 mEmpty)))

/-- MOOR (R134). -/
def execMoor (engine : EngineId) (context : ContextId) (image : ImageRead) (s : State) : Host.Outcome State Fault Refusal :=
  .next (effMoor engine context image.result image.bytes s)

/-- RELEASE: HandleA's entry becomes FREE, every field at its reset value (R135). -/
def effRelease (e : EngineId) (c : ContextId) (s : State) : State :=
  s.issueStep e c opRelease (fun s st =>
    (s.beginRun e c st id).updEngine e (fun x => x.setEntry (x.part c) (dA st.descriptor.toNat) freeEntry))

/-- RELEASE (R135). -/
def execRelease (engine : EngineId) (context : ContextId) (s : State) : Host.Outcome State Fault Refusal :=
  .next (effRelease engine context s)

/-! ### LOAD and STORE (R147, R476) -/

/-- The fetches of a LOAD, row by row and line by line (R476). -/
def loadFetches (p ent d address : Nat) : List Fetch :=
  (List.range (dRows d)).flatMap (fun r => (List.range (ceilDiv (dLength d) 64)).map (fun l =>
    { line := 512 * parFirst p + mOffset ent + r * mPitch ent + l, kind := BitVec.ofNat 2 (mBacking ent),
      source := BitVec.ofNat 64 (backingAt ent address r + 64 * l), bytes := min 64 (dLength d - 64 * l) }))

/-- The writes of a STORE (R476). -/
def storeWrites (p ent d address : Nat) (g : W16) : List TenderWrite :=
  (List.range (dRows d)).flatMap (fun r => (List.range (ceilDiv (dLength d) 64)).map (fun l =>
    { start := partBase p + 64 * (mOffset ent + r * mPitch ent + l), kind := BitVec.ofNat 2 (mBacking ent),
      target := BitVec.ofNat 64 (backingAt ent address r + 64 * l), bytes := min 64 (dLength d - 64 * l),
      poison := mState ent == mPoisoned, generation := g }))

/-- LOAD: HandleOut is to be filled from its backing; onto a retained entry that is VALID and not Dirty it is empty (R139,
R147, R476). -/
def effLoad (e : EngineId) (c : ContextId) (s : State) : State :=
  s.issueStep e c opLoad (fun s st =>
    let x := s.engine e
    let p := x.part c
    let d := st.descriptor.toNat
    let ent := x.entry p (dOut d)
    let skip := stepEmpty d || (mRetain ent && mState ent == mValid && !mDirty ent)
    s.beginRun e c st (fun r => { r with fetches := if skip then [] else loadFetches p ent d st.address.toNat, producing := !skip }))

/-- LOAD (R476). -/
def execLoad (engine : EngineId) (context : ContextId) (s : State) : Host.Outcome State Fault Refusal :=
  .next (effLoad engine context s)

/-! ### Commit (R138, R139, R142) -/

/-- Whether an issued step has nothing left to do (R142, R144, R185, R202, R407). -/
def Run.complete (r : Run) : Bool :=
  r.waiting.isEmpty && r.chainLeft == 0 && r.shadowsLeft == 0 && r.fetches.isEmpty && r.fetching.isEmpty && r.writes.isEmpty && r.writing.isEmpty &&
  r.gather.isNone && r.records.isEmpty && r.sends.all (fun q => !q.2.live)

/-- Whether a fabric operation of the operation port belongs to a context on an engine. -/
def FabricOp.ofContext (o : FabricOp) (e : EngineId) (c : ContextId) : Bool :=
  match o.use with
  | .tender e' c' => e' == e && c' == c
  | .port e' c' _ _ => e' == e && c' == c
  | .send e' c' _ _ => e' == e && c' == c
  | .mirror _ => false

/-- Whether a record of the operation port is still in progress for a step (R332). -/
def State.portBusy (s : State) (e : EngineId) (c : ContextId) (serial : W16) : Bool :=
  s.fabric.peers.any (fun q => q.2.ops.any (fun o => match o.use with
    | .port e' c' n _ => e' == e && c' == c && n == serial
    | _ => false)) ||
  s.fabric.fences.any (fun f => f.engine == e && f.context == c && f.serial == serial)

/-- Whether any pass, tile or comparison of a step is still on its engine: in flight, abandoned, drained, or a shadow (R407). -/
def Engine.stepBusy (x : Engine) (c : ContextId) (serial : W16) : Bool :=
  let own := fun (p : Pass) => p.context == c && p.serial == serial
  x.arrays.any (fun a => a.2.flight.any own || a.2.reruns.any own || a.2.shadows.any own || a.2.drains.any (fun t => own t.pass) ||
    (match a.2.pairHold with | some t => own t.pass | none => false)) ||
  (match x.vuPass with | some q => own q | none => false) || x.soundings.any (fun t => own t.pass && t.pass.sampled)

/-- The entries a committed step leaves: outputs VALID or POISONED with Dirty set, a LOAD's VALID and not Dirty, a STORE's
Dirty cleared when every write succeeded; the lists of a ROUTE are poisoned where what it was made from is (R138, R139, R149, R203). -/
def Engine.commitEntries (x : Engine) (p : Nat) (r : Run) : Engine :=
  let d := r.step.descriptor.toNat
  let ok := r.statuses.all outputsValid
  match dOp d with
  | 1 | 2 =>
    if stepEmpty d then x
    else ((x.writtenHandles p d).filter (handleOk p)).foldl (fun x h => x.commitWrite p h r.serial (!ok) true) x
  | 3 => if r.producing then x.commitWrite p (dOut d) r.serial (!ok) false else x
  | 4 =>
    if ok && !stepEmpty d && handleOk p (dA d) then
      x.setEntry p (dA d) (setBits (x.entry p (dA d)) 241 241 0)
    else x
  | 5 =>
    if stepEmpty d then x
    else ((x.writtenHandles p d).filter (handleOk p)).foldl (fun x h => x.commitWrite p h r.serial (!ok && (h == dOut d || x.readsPoison p d)) true) x
  | _ => x

/-- The output of a producing step that has run again is whole once more; its serial and WriteSeq stay (R149). -/
def Engine.revive (x : Engine) (p : Nat) (r : Run) : Engine :=
  let h := dOut r.step.descriptor.toNat
  if handleOk p h ∧ r.statuses.all outputsValid then x.setEntry p h (setBits (x.entry p h) 245 243 mValid) else x

/-- The first issued step of a context that is complete commits: entries, re-run log, signal, and its batch's counts (R138,
R141, R142, R149). -/
def effStepCommit (e : EngineId) (c : ContextId) (s : State) : State :=
  let x := s.engine e
  let k := x.ctx c
  match k.runs.find? (fun r => r.complete && !x.stepBusy c r.serial && !s.portBusy e c r.serial) with
  | none => s
  | some r =>
    let d := r.step.descriptor.toNat
    let p := x.part c
    let x1 := if r.again then x.revive p r else x.commitEntries p r
    let entry : LogEntry := { step := r.step, serial := r.serial, reads := r.reads }
    let log := if r.again then k.log else lastN 32 (k.log ++ [entry])
    let owed : Signal := { engine := dSignalEngine d, sem := dSignalSem d }
    let signals := if dSignal d && !r.again then k.signals ++ [owed] else k.signals
    let outReady := ((x.writtenHandles p d).filter (handleOk p)).foldl (fun t h => Tab.set 0 t h r.written) k.outReady
    let k1 := { k with runs := k.runs.filter (fun q => q.serial ≠ r.serial), log, signals, outReady }
    let s1 := s.setEngine e (x1.setCtx c k1)
    if r.again then s1
    else if r.statuses.contains stInvalid ∨ r.statuses.contains stSecurity then
      s1.updBatch r.step.batch (fun b => { b with statuses := b.statuses ++ r.statuses.filter (fun st => st ≠ stDone) })
    else
      (s1.countEngine e 1 1).updBatch r.step.batch (fun b =>
        { b with committed := b.committed + 1, bytes := b.bytes + BitVec.ofNat 64 r.bytes,
                 statuses := b.statuses ++ r.statuses.filter (fun st => st ≠ stDone), lastCommit := s.now })

/-- STEP_COMMIT (R142). -/
def execStepCommit (engine : EngineId) (context : ContextId) (s : State) : Host.Outcome State Fault Refusal :=
  .next (effStepCommit engine context s)

/-- The oldest signal a context owes is given: the semaphore of the same context on SignalEngine advances by one (R141). -/
def effSemaphoreSignal (e : EngineId) (c : ContextId) (s : State) : State :=
  let k := s.ectx e c
  match k.signals with
  | [] => s
  | g :: gs =>
    let s1 := s.setEctx e c { k with signals := gs }
    if s1.resident g.engine c then
      let t := s1.ectx g.engine c
      s1.setEctx g.engine c { t with semaphores := Tab.upd 0 t.semaphores g.sem.toNat (· + 1) }
    else s1

/-- SEMAPHORE_SIGNAL (R141). -/
def execSemaphoreSignal (engine : EngineId) (context : ContextId) (s : State) : Host.Outcome State Fault Refusal :=
  .next (effSemaphoreSignal engine context s)

end Sys2Proof.Machine
end

