-- ==== Sys2Proof/Machine/Tender.lean ====
section
/-!
DEFINITION. The tender: tile fetches, tokens, lines that arrive, writes, detected errors, and the scrubber (R144 to R152, R476,
R478).
-/

namespace Sys2Proof.Machine

/-! ### The passes of a step (R116, R139, R177, R180, R181, R477) -/

/-- The tiles of a step in the order its passes run, each with whether it is half of a twin pair (R116, R139). -/
def stepTiles (d : Nat) (twin byColumn : Bool) : List (Nat × Nat × Bool) :=
  let pair := fun (g n : Nat) => if 2 * g + 1 < tilesM d then [(2 * g, n, true), (2 * g + 1, n, true)] else [(2 * g, n, false)]
  let group := fun (g n : Nat) => if twin then pair g n else [(g, n, false)]
  let groups := if twin then ceilDiv (tilesM d) 2 else tilesM d
  if byColumn then (List.range (tilesN d)).flatMap (fun n => (List.range groups).flatMap (fun g => group g n))
  else (List.range groups).flatMap (fun g => (List.range (tilesN d)).flatMap (fun n => group g n))

/-- Insert the second products of a Form 2 chain: after each tile, or after each pair of a twin issue (R181). -/
def withSecond : List Pass → List Pass
  | [] => []
  | [q] => [q, { q with kind := .second }]
  | q :: t :: r =>
    if q.twin then q :: t :: { q with kind := .second } :: { t with kind := .second } :: withSecond r
    else q :: { q with kind := .second } :: withSecond (t :: r)

/-- The passes of a PRODUCT or VECTOR step in order; a held VECTOR step has one per band (R177, R477). -/
def Engine.stepPasses (x : Engine) (p d : Nat) (c : ContextId) (serial : W16) : List Pass :=
  let held := match x.header p d with | some h => hHeld h | none => false
  let form2 := x.form2 p d
  if stepEmpty d then []
  else if dOp d = opVector then
    if held then (List.range (tilesM d)).map (fun m => { context := c, serial, kind := .vectorTile, m, n := 0, ordinal := m })
    else ((stepTiles d false (dTileOrder d)).zipIdx).map (fun t =>
      { context := c, serial, kind := .vectorTile, m := t.1.1, n := t.1.2.1, ordinal := t.2 })
  else
    let tiles := stepTiles d (aTwin (dArrayOp d) && !held && !dPaired d) (dTileOrder d && !form2)
    let ps := (tiles.zipIdx).map (fun t =>
      { context := c, serial, kind := if form2 then .first else .single, m := t.1.1, n := t.1.2.1, ordinal := t.2,
        select := aSelect (dArrayOp d), twin := t.1.2.2, paired := dPaired d, mode := aMode (dArrayOp d) : Pass })
    if form2 then withSecond ps else ps

/-! ### Tile fetches of a step (R478) -/

/-- The key of a tile: operand role (0 A, 1 B, 2 tile-shaped) and the count j of its fetch; never 0. (DESIGN CHOICE, assumption 159) -/
def tileKey (role j : Nat) : Nat := role * 2 ^ 32 + j + 1

def Role.number : Role → Nat
  | .a => 0 | .b => 1 | .tile => 2 | .second => 3

/-- A buffer with its auxiliary planes. -/
def Engine.planes (x : Engine) (p h : Nat) : List Nat := let a := mAux (x.entry p h); [h, a, mAux (x.entry p a)]

/-- Whether a step's chain adds a residual (R175). -/
def Engine.hasResidual (x : Engine) (p d : Nat) : Bool := (x.list1 p d ++ x.list2 p d).any (fun w => sOp w == stResidual)

/-- The streamed buffers of a step that serve a role: an operand with its planes; HandleC, the residual input and the HandleA of a
VECTOR step; B of the second product (R145, R180, R478). -/
def Engine.roleBuffers (x : Engine) (p d : Nat) (r : Role) : List Nat :=
  let hs := match r with
    | .a => x.planes p (dA d)
    | .b => x.planes p (dB d)
    | .tile => (if dOp d = opVector then x.planes p (dA d) else []) ++ [dC d] ++
        (match x.header p d with | some h => if x.hasResidual p d then [hResidual h] else [] | none => [])
    | .second => (match x.header p d with | some h => if hForm h = 2 then x.planes p (hSecondB h) else [] | none => [])
  (hs.filter (fun h => handleOk p h && mStreamed (x.entry p h))).eraseDups

/-- The streamed buffers a pass reads, with their roles (R145, R478). -/
def Engine.streamedReads (x : Engine) (p d : Nat) (q : Pass) : List (Role × Nat) :=
  let roles : List Role := match q.kind with
    | .second => [.second]
    | .vectorTile => [.tile]
    | _ => [.a, .b, .tile]
  roles.flatMap (fun r => (x.roleBuffers p d r).map (fun h => (r, h)))

/-- The tiles a pass reads: its own, or those of the whole band of a held VECTOR step (R477). -/
def Engine.tilesOfPass (x : Engine) (p d : Nat) (q : Pass) : List Pass :=
  match x.header p d with
  | some h => if hHeld h ∧ q.kind = .vectorTile then
      (List.range (tilesN d)).map (fun n => { q with n, ordinal := q.m * tilesN d + n }) else [q]
  | none => [q]

/-- The tile keys a pass needs tokens of (R145). -/
def Engine.tokensOf (x : Engine) (p d : Nat) (q : Pass) : List Nat :=
  ((x.tilesOfPass p d q).flatMap (fun q => (x.streamedReads p d q).map (fun r => tileKey r.1.number (fetchIndex d r.1 q)))).eraseDups

/-- Rows of a tile that lie within the step (R478): a partial tile's further rows are not fetched. A transposed operand's rows
run along K. -/
def tileFetchRows (d : Nat) (r : Role) (q : Pass) (e : Nat) : Nat :=
  let o := dArrayOp d
  match r with
  | .a => if aTransA o then min (mRows e) (dK d) else min (mRows e) (tileRows d q)
  | .b => if aTransB o then min (mRows e) (dK d) else min (mRows e) (tileCols d q)
  | .tile => min (mRows e) (tileRows d q)
  | .second => mRows e

/-- The line fetches of one streamed buffer for a pass's tile (R478). -/
def tileLines (p e d : Nat) (r : Role) (q : Pass) : List Fetch :=
  let j := fetchIndex d r q
  let t := tileIndex d r q
  let slot := mOffset e + (j % mSlots e) * (mSize e / mSlots e)
  (List.range (tileFetchRows d r q e)).flatMap (fun i => (List.range (mPitch e)).map (fun l =>
    { line := 512 * parFirst p + slot + i * mPitch e + l, kind := BitVec.ofNat 2 (mBacking e),
      source := BitVec.ofNat 64 (mBackingAddress e + (t * mRows e + i) * mBP e + 64 * l), bytes := 64,
      tile := tileKey r.number j }))

/-- Bits that one entry of a row of B or of one of its planes takes, and the K positions it stands for: an element, a kept value with
the positions of its share of a group, its metadata, or a block's scale byte (R109, R113). -/
def Engine.entryOf (x : Engine) (p d h : Nat) : Nat × Nat :=
  let o := dArrayOp d
  let per := if aSparsity o = 0 then 1 else if aSparseStore o then 4 else 2
  if h = dB d then (elemBits (mFormat (x.entry p h)), per)
  else if aSparsity o ≠ 0 ∧ h = mAux (x.entry p (dB d)) then ((if aSparsity o = 1 then 2 else 3), per)
  else (8, 32)

/-- Whether a line of a tile of B, or of its planes, holds a position that a pass keeps (R193): the line's positions are those of
its place in the row, or of its row where B is stored along K. -/
def Engine.lineKept (x : Engine) (p d : Nat) (q : Pass) (h : Nat) (f : Fetch) : Bool :=
  let e := x.entry p h
  let kept := x.keptColumns p d q
  let at' := f.line - (512 * parFirst p + mOffset e + (fetchIndex d .b q % mSlots e) * (mSize e / mSlots e))
  let v := x.entryOf p d h
  if aTransB (dArrayOp d) then kept (at' / Nat.max 1 (mPitch e) * v.2 / 32)
  else
    let l := at' % Nat.max 1 (mPitch e)
    let lo := 512 * l / v.1 * v.2 / 32
    let hi := ceilDiv (ceilDiv (512 * (l + 1)) v.1 * v.2) 32
    (List.range (hi - lo)).any (fun b => kept (lo + b))

/-- The lines fetched of one streamed buffer for a tile that some passes share: of B, where the step skips, those that one of them
keeps (R193, R478). -/
def Engine.keptLines (x : Engine) (p d : Nat) (r : Role) (h : Nat) (q : Pass) (sharers : List Pass) : List Fetch :=
  let all := tileLines p (x.entry p h) d r q
  if r = .b ∧ (x.skipMap p d).isSome then all.filter (fun f => sharers.any (fun t => x.lineKept p d t h f)) else all

/-- All tile fetches of a step in the order its passes read them, a tile that passes share fetched once (R144, R478). -/
def Engine.tileFetches (x : Engine) (p d : Nat) (passes : List Pass) : List Fetch :=
  let tiles := passes.flatMap (x.tilesOfPass p d)
  (tiles.foldl (fun (a : List Nat × List Fetch) q =>
    let key := fun (r : Role) (t : Pass) => tileKey r.number (fetchIndex d r t)
    let fs := (x.streamedReads p d q).filter (fun r => !a.1.contains (key r.1 q * 256 + r.2))
    (a.1 ++ fs.map (fun r => key r.1 q * 256 + r.2),
     a.2 ++ fs.flatMap (fun r => x.keptLines p d r.1 r.2 q (tiles.filter (fun t => key r.1 t == key r.1 q))))) ([], [])).2

/-! ### Limits on fetching (R144) -/

/-- Whether an engine's window entry lets the tender work for a context: the window serves, and admits it (R56, R75). -/
def State.entryAdmits (s : State) (e : EngineId) (c : ContextId) (l : ListEntry) : Bool :=
  s.windowServes l.win && (s.admitted e l.win).contains c

/-- The contexts whose fetches a window admits now: those of the open window; after its end edge, those of it that the next window
admits as well (R144). -/
def State.fetchAdmitted (s : State) (e : EngineId) (c : ContextId) : Bool :=
  let i := s.island (engineUnit e)
  match i.current with
  | some l => s.entryAdmits e c l
  | none =>
    match i.lastWindow with
    | none => false
    | some w =>
      let later := (i.list.filter (fun l => w < l.window)) ++ i.list
      (i.list.any (fun l => l.window == w && s.entryAdmits e c l)) &&
      (match later.head? with | some l => s.entryAdmits e c l | none => false)

/-- Whether the window open on an engine lets the tender write and send for a context (R144, R185). -/
def State.writeAdmitted (s : State) (e : EngineId) (c : ContextId) : Bool :=
  match (s.island (engineUnit e)).current with
  | some l => s.entryAdmits e c l
  | none => false

/-- The lines a context has in flight, and the lines its class may have (R38, R144). (DEDUCED, assumption 147) -/
def State.lineRoom (s : State) (e : EngineId) (c : ContextId) : Nat :=
  let x := s.engine e
  let used := fun (k : EngineContext) => k.readLines + k.writeLines
  match s.ctxClass c with
  | 1 => parCredits ((s.partition e c).getD 0) - used (x.ctx c)
  | cls =>
    let all := (x.contexts.filter (fun q => s.ctxClass (BitVec.ofNat 10 q.1) == cls)).foldl (fun a q => a + used q.2) 0
    (if cls = 0 then 384 else 128) - all

/-- Whether two byte ranges of the same kind overlap. -/
def writeOverlaps (f : Fetch) (w : TenderWrite) : Bool :=
  f.kind == w.kind && overlaps f.source.toNat f.bytes w.target.toNat w.bytes

/-- The role of a tile key. -/
def roleOf (n : Nat) : Role := match n with | 0 => .a | 1 => .b | 2 => .tile | _ => .second

/-- Whether the tender may begin to fill the tile of a fetch: a token is free, the slot of every buffer that the tile fills is free, and
no earlier step's passes still read one of them (R144, R145, R478). -/
def State.tileMayFill (s : State) (e : EngineId) (c : ContextId) (r : Run) (f : Fetch) : Bool :=
  let x := s.engine e
  let k := x.ctx c
  let p := x.part c
  let d := r.step.descriptor.toNat
  let role := (f.tile - 1) / 2 ^ 32
  let j := (f.tile - 1) % 2 ^ 32
  let others := (r.tokens ++ r.filling).filter (fun t => decide ((t - 1) / 2 ^ 32 = role ∧ t ≠ f.tile))
  decide (f.tile = 0) || r.filling.contains f.tile || f.refetch ||
  (decide (k.tokensIssued + k.tokensFilling < 16) &&
   (x.roleBuffers p d (roleOf role)).all (fun h =>
     let slots := mSlots (x.entry p h)
     others.all (fun t => decide ((t - 1) % 2 ^ 32 % slots ≠ j % slots)) &&
     (k.runs.takeWhile (fun q => q.serial ≠ r.serial)).all (fun q =>
       !((x.readHandles p q.step.descriptor.toNat).contains h) || (q.waiting.isEmpty && !x.stepBusy c q.serial))))

/-- The issued step whose next fetch the tender makes: within four of the oldest uncommitted one (R144). -/
def EngineContext.fetchRun (k : EngineContext) : Option Run := (k.runs.take 5).find? (fun r => !r.fetches.isEmpty)

/-- The passes of a step that wait, run, or wait to re-run. -/
def Engine.livePasses (x : Engine) (c : ContextId) (r : Run) : List Pass :=
  let own := fun (q : Pass) => q.context == c && q.serial == r.serial
  r.waiting ++ (x.arrays.flatMap (fun a => a.2.flight ++ a.2.reruns)).filter own ++ (x.vuPass.filter own).toList

/-- The lines fetched for a step, or asked for, whose data is discarded with it: those in flight, and those of tiles held or being
filled (R146). -/
def Engine.discardedOf (x : Engine) (c : ContextId) (r : Run) : List Fetch :=
  let tiles := (x.tileFetches (x.part c) r.step.descriptor.toNat (x.livePasses c r)).filter (fun f =>
    (r.tokens.contains f.tile || r.filling.contains f.tile) && !r.fetches.contains f && !r.fetching.contains f)
  r.fetching ++ tiles

/-- The same of every issued step of a context. -/
def Engine.discardedLines (x : Engine) (c : ContextId) : List Fetch := (x.ctx c).runs.flatMap (x.discardedOf c)

/-- Kill a context's partition on one engine, counting the lines discarded (R146, R150). -/
def State.killOn (s : State) (e : EngineId) (c : ContextId) (st : BitVec 8) (owner : Option InstanceId) : State :=
  let lost := (s.engine e).discardedLines c
  (s.countLines e c 3 0x07 (lost.map (fun f => (f.kind, f.source)))).killPartition e c st owner

/-- Kill a context wherever it is resident. -/
def State.killContext (s : State) (c : ContextId) (st : BitVec 8) (owner : Option InstanceId) : State :=
  (s.enginesOf c).foldl (fun s e => s.killOn e c st owner) s

/-- Change one issued step of a context. -/
def EngineContext.updRun (k : EngineContext) (serial : W16) (f : Run → Run) : EngineContext :=
  { k with runs := k.runs.map (fun r => if r.serial = serial then f r else r) }

/-- Whether a step's chain still reads a streamed tile after its pass has committed: a RESIDUAL stage fed from one (R175). -/
def Engine.chainReadsC (x : Engine) (p d : Nat) : Bool :=
  match x.header p d with
  | none => false
  | some h => x.hasResidual p d && (hResidual h == noHandle || mStreamed (x.entry p (hResidual h)))

/-- The tiles of a step whose chain work is still to be done: drained, or of a band that is held (R177). -/
def Engine.chainPasses (x : Engine) (p : Nat) (c : ContextId) (r : Run) : List Pass :=
  let own := fun (q : Pass) => q.context == c && q.serial == r.serial
  (x.arrays.flatMap (fun a => a.2.drains.map (·.pass))).filter own ++ (x.vu.tilePass.filter own).toList ++
  (x.stepPasses p r.step.descriptor.toNat c r.serial).filter (fun q => r.heldTiles.any (fun t => t.1 == q.m))

/-- The tokens of a step that nothing of it needs any more go back to the context's pool: those no pass that waits, runs, waits
to re-run, or shadows reads, and, where the chain reads a streamed tile, those of no tile that waits for its chain (R145, R175). -/
def Engine.returnTokens (x : Engine) (c : ContextId) (serial : W16) : Engine :=
  let p := x.part c
  let k := x.ctx c
  match k.runs.find? (fun r => r.serial == serial) with
  | none => x
  | some r =>
    let d := r.step.descriptor.toNat
    let shadows := (x.arrays.flatMap (fun a => a.2.shadows)).filter (fun q => q.context == c && q.serial == serial)
    let need := ((x.livePasses c r ++ shadows).flatMap (x.tokensOf p d)) ++
      (if x.chainReadsC p d then ((x.chainPasses p c r).flatMap (x.tokensOf p d)).filter (fun t => decide (2 * 2 ^ 32 < t ∧ t ≤ 3 * 2 ^ 32)) else [])
    let keep := r.tokens.filter (fun t => need.contains t)
    let k1 := k.updRun serial (fun r => { r with tokens := keep })
    x.setCtx c { k1 with tokensIssued := k1.tokensIssued - (r.tokens.length - keep.length) }

/-- What is left of a step whose batch has ended by a failure of its own: what it has in flight runs out, nothing more of it starts, and
the data fetched for it is discarded and counted (R143, R146). -/
def State.cutRun (s : State) (e : EngineId) (c : ContextId) (r : Run) (st : BitVec 8) : State :=
  let lost := (s.engine e).discardedOf c { r with waiting := r.waiting }
  let s1 := s.countLines e c 3 0x07 (lost.map (fun f => (f.kind, f.source)))
  (s1.updEngine e (fun x =>
    let k := (x.ctx c).updRun r.serial (fun r => { r with
      waiting := [], fetches := [], fetching := r.fetching.map (fun f => { f with dropped := true }), filling := [], chainLeft := 0, sends := [],
      heldTiles := [], statuses := r.statuses ++ [st] })
    (x.setCtx c { k with tokensFilling := k.tokensFilling - r.filling.length }).returnTokens c r.serial)).endBatch r.step.batch st

/-- How many of the leading fetches form one request: consecutive lines of one tile, at most 64 and within one 4 KiB of the
global offset for the fabric, else one (R330). -/
def requestLength : List Fetch → Nat
  | [] => 0
  | f :: fs =>
    if f.kind ≠ 2 then 1
    else
      1 + ((fs.zipIdx 1).takeWhile (fun q => q.1.kind == f.kind && q.1.tile == f.tile && decide (q.2 < 64) &&
        decide (q.1.source.toNat = f.source.toNat + 64 * q.2) &&
        decide (q.1.source.toNat / 4096 = f.source.toNat / 4096))).length

/-- A status ends the batch of a run under R143 without undoing what has been issued. -/
def State.failRun (s : State) (r : Run) (st : BitVec 8) : State := s.endBatch r.step.batch st

/-- The Peers record of a module to which operations can be sent: a declared peer that is not DEAD. An operation toward any
other module ends as one not yet sent (R339). -/
def State.livePeer (s : State) (module' : Nat) : Option (BitVec 12) :=
  match s.peerOf module' with
  | none => none
  | some p => if (s.peer p).liveness = .dead then none else some p

/-- Whether an address lies in another module. -/
def State.isRemote (s : State) (kind : BitVec 2) (address : Nat) : Bool := kind == 2 && gaModule address != s.moduleId

/-- The event that each completion of R339 raises; it names the peer. -/
def State.remoteEvent (s : State) (module' : Nat) (st : BitVec 8) (applied : Bool) : State :=
  s.raise { area := 0x80, kind := 0x21, status := st, detail := [(16, module'), (1, b2n applied)] }

/-- The module address of an address of this module's own exported regions (R318, R335). -/
def State.ownAddress (s : State) (ga length : Nat) : Option Nat :=
  let x := s.obj 0x8030 0 (gaRegion ga)
  let i := bits x 62 51
  match s.regionServed i with
  | none => none
  | some r =>
    if bit x 63 ∧ gaRegion ga ≠ 0xFFF ∧ i < getRec s.vers.active 0x7011 0 0 ∧ (Tab.get {} s.mem.regions i).phase ≠ .clearing ∧
       gaOffset ga + length ≤ regBytes r then some (regBase r + gaOffset ga) else none

/-- Whether an engine's transfer reaches its far end now: each die-to-die link it crosses is trained. Near memory is on its Lantern die;
far memory and the host are behind the Gallery; a packet leaves through the die that holds its peer's streams (R21, R41, R42, R320). -/
def State.pathOpen (s : State) (e : EngineId) (kind : BitVec 2) (target : Nat) : Bool :=
  let own := dieOfUnit (engineUnit e)
  let near := fun (a : Nat) => s.diesJoined own ((s.nearDie a).getD 2)
  if kind = 1 then near target
  else if kind = 2 then
    if gaModule target = s.moduleId then (match s.ownAddress target 1 with | some a => near a | none => true)
    else (match s.peerOf (gaModule target) with | some p => s.diesJoined own (homeDie p) | none => true)
  else s.diesJoined own 2

/-- A fetch with the tick of its issue (R313). -/
def Fetch.issued (now : Nat) (f : Fetch) : Fetch := { f with issuedAt := now }

/-- The tender's request reaches its source: a fabric READ, a host read, or the die networks (R330, R334, R346). The flag is
false where the request cannot be made now. -/
def State.requestLines (s : State) (e : EngineId) (c : ContextId) (f : Fetch) (n : Nat) : State × Bool :=
  if f.kind = 2 ∧ gaModule f.source.toNat ≠ s.moduleId then
    match s.livePeer (gaModule f.source.toNat) with
    | none => (s, true)
    | some p => s.issueOp p { request := 0, opcode := 1, cls := BitVec.ofNat 2 (s.ctxClass c), use := .tender e c, issuedAt := 0,
                              address := f.source, lines := BitVec.ofNat 7 n }
  else if f.kind = 3 then
    if s.linkUp = false then (s, true)
    else if 1024 ≤ s.host.reads.length ∨ s.ideBlocked then (s, false)
    else (s.issueRead (s.ctxSource c) f.source.toNat f.bytes (.tender e c), true)
  else (s, true)

/-- The checks of R306 and R334 on the lines of a request. -/
def State.fetchAllowed (s : State) (c : ContextId) (f : Fetch) : Bool :=
  if f.kind = 1 then s.regionAllows c f.source.toNat f.bytes false
  else if f.kind = 2 then s.granted (s.ctxSource c) f.source.toNat true
  else true

/-! ### Lines that arrive (R144, R148, R150, R203) -/

/-- The status a delivered line carries (R148, R203, R295). -/
def statusOfLine : LineResult → BitVec 8
  | .good => stDone
  | .poisoned => stPoisoned
  | .dataLost => stDataLost
  | .fabric st => listedStatus st

/-- The handle whose buffer a fetch fills: the one its line lies in; a GATHER's lines serve its output. -/
def Engine.fetchHandle (x : Engine) (p : Nat) (r : Run) (f : Fetch) : Nat :=
  if r.gather.isSome ∧ f.refetch = false then dOut r.step.descriptor.toNat else (x.bufferOf p f.line).getD noHandle

/-- A tile whose last line has landed: its token is issued (R144). -/
def State.landTile (s : State) (e : EngineId) (c : ContextId) (serial : W16) (tile : Nat) : State :=
  let k := s.ectx e c
  let more := k.runs.any (fun r => r.serial == serial && (r.fetches ++ r.fetching).any (fun f => f.tile == tile))
  let open' := k.runs.any (fun r => r.serial == serial && r.filling.contains tile)
  if more ∨ open' = false then s
  else
    let k1 := k.updRun serial (fun r => { r with filling := r.filling.filter (· ≠ tile), tokens := r.tokens ++ [tile] })
    (s.setEctx e c { k1 with tokensFilling := k1.tokensFilling - 1, tokensIssued := k1.tokensIssued + 1 }).countEngine e 5 1

/-- A line lands: its bytes are written to scratchpad or go to the pooling unit, its credit and tracker entry return, and a
poisoned or lost one marks its buffer (R144, R148, R203). A line that comes back bad is refetched once from a clean
backing before its buffer is POISONED (R148). (DEDUCED, assumption 34) -/
def State.landLine (s : State) (e : EngineId) (c : ContextId) (r : Run) (f : Fetch) (st : BitVec 8) (bytes : List Byte) : State :=
  let x := s.engine e
  let p := x.part c
  let k0 := x.ctx c
  let k := { k0 with readLines := k0.readLines - 1 }
  let gone := fun (q : Run) => { q with fetching := q.fetching.erase f }
  let fabric := decide (st ≠ stDone ∧ st ≠ stPoisoned ∧ st ≠ stDataLost)
  let h := x.fetchHandle p r f
  let clean := decide (mBacking (x.entry p h) ≠ 0) && !mDirty (x.entry p h)
  if f.dropped then s.setEctx e c (k.updRun r.serial gone)
  else if r.gather.isSome ∧ f.refetch = false then
    -- lines reach the pooling unit in the order they were fetched, and count as in flight until it takes them (R202)
    let k1 := k.updRun r.serial (fun q =>
      let waits := q.fetching.set (q.fetching.idxOf f) { f with arrived := some bytes }
      let here := waits.takeWhile (fun g => g.arrived.isSome)
      let g := (q.gather.getD {})
      { q with fetches := if fabric then [] else q.fetches,
               fetching := waits.drop here.length,
               statuses := if st = stDone then q.statuses else q.statuses ++ [st],
               gather := some { g with landed := g.landed ++ here.filterMap (·.arrived) } })
    s.setEctx e c { k1 with readLines := k0.readLines }
  else if st = stDone then
    let s1 := s.setEngine e ((x.writeBytes (64 * f.line) ((bytes.take f.bytes ++ List.replicate 64 0).take 64)).setCtx c (k.updRun r.serial gone))
    s1.landTile e c r.serial f.tile
  else if f.refetch = false ∧ fabric = false ∧ clean then
    -- the bad line is fetched again
    let s1 := s.setEctx e c (k.updRun r.serial (fun q => { gone q with fetches := { f with refetch := true } :: q.fetches,
                                                                       statuses := q.statuses ++ [stRerun] }))
    (s1.countEngine e 13 1).raise { area := 0x40, kind := 0x04, unit := engineUnit e, ctx := some c, status := st }
  else
    let x1 := (x.writeBytes (64 * f.line) (List.replicate 64 0xFF)).poison p h
    let s1 := s.setEngine e (x1.setCtx c (k.updRun r.serial (fun q => { gone q with statuses := q.statuses ++ [st] })))
    (s1.landTile e c r.serial f.tile).raiseIf (st == stPoisoned) { area := 0x40, kind := 0x05, unit := engineUnit e, ctx := some c, status := st }

/-- The line of a source that is outstanding and has not arrived lands; the oldest such one when the source was fetched more
than once (R144). A line for a partition that is being scrubbed is dropped, with an event (R150). -/
def State.landSource (s : State) (e : EngineId) (c : ContextId) (kind : BitVec 2) (source : W64) (st : BitVec 8) (bytes : List Byte) :
    State :=
  match (s.ectx e c).runs.findSome? (fun r =>
      (r.fetching.find? (fun f => f.arrived.isNone && f.kind == kind && f.source == source)).map (fun f => (r, f))) with
  | none => s.raiseIf ((s.engine e).scrubbing c) { area := 0x40, kind := 0x20, unit := engineUnit e, ctx := some c }
  | some (r, f) => s.landLine e c r f st bytes

/-- The tender issues its next line fetch for a context, or the lines of one fabric request (R144, R306, R334).
(DESIGN CHOICE, assumption 148) -/
def effTenderFetchIssue (e : EngineId) (c : ContextId) (s : State) : State :=
  let x := s.engine e
  let k := x.ctx c
  match k.fetchRun with
  | none => s
  | some r =>
    match r.fetches with
    | [] => s
    | f :: _ =>
      let n := min (requestLength r.fetches) (s.lineRoom e c)
      let blocked := k.runs.any (fun q => (q.writes ++ q.writing).any (fun w => (r.fetches.take n).any (fun g => writeOverlaps g w)))
      if s.noWork ∨ s.engineStopped e ∨ s.fetchAdmitted e c = false ∨ n = 0 ∨ s.tileMayFill e c r f = false ∨ blocked ∨
         s.pathOpen e f.kind f.source.toNat = false then s
      else if s.fetchAllowed c f = false then
        s.cutRun e c r stSecurity
      else
        match s.requestLines e c f n with
        | (_, false) => s
        | (s1, true) =>
          let begins := decide (f.tile ≠ 0) && !r.filling.contains f.tile && !f.refetch
          let k1 := k.updRun r.serial (fun r => { r with fetches := r.fetches.drop n,
                                                         fetching := r.fetching ++ (r.fetches.take n).map (Fetch.issued s.time.ticks),
                                                         filling := if begins then r.filling ++ [f.tile] else r.filling })
          let s2 := (s1.setEctx e c { k1 with readLines := k1.readLines + n,
                                              tokensFilling := k1.tokensFilling + b2n begins }).countLines e c 2 0x06
                      ((r.fetches.take n).map (fun g => (g.kind, g.source)))
          if s.isRemote f.kind f.source.toNat ∧ (s.livePeer (gaModule f.source.toNat)).isNone then
            let s3 := s2.remoteEvent (gaModule f.source.toNat) stRemoteTimeout false
            (r.fetches.take n).foldl (fun s g => s.landSource e c g.kind g.source stRemoteTimeout (List.replicate 64 0xFF)) s3
          else if f.kind = 3 ∧ s.linkUp = false then
            (r.fetches.take n).foldl (fun s g => s.landSource e c g.kind g.source stRemoteTimeout (List.replicate 64 0xFF)) s2
          else s2

/-- TENDER_FETCH_ISSUE (R144). -/
def execTenderFetchIssue (engine : EngineId) (context : ContextId) (s : State) : Host.Outcome State Fault Refusal :=
  .next (effTenderFetchIssue engine context s)

/-- A context's outstanding fetches, oldest first, each with its step. -/
def EngineContext.outstanding (k : EngineContext) : List (Run × Fetch) :=
  k.runs.flatMap (fun r => (r.fetching.filter (fun f => f.arrived.isNone)).map (fun f => (r, f)))

/-- The outstanding fetch that a line's tag names: lines come back in any order (R34, R144). (DEDUCED, assumption 167) -/
def EngineContext.landingRun (k : EngineContext) (entry : BitVec 11) : Option (Run × Fetch) := k.outstanding[entry.toNat]?

/-- What the module's own memory answers a fetch with: the bytes and their status (R291, R295, R318). (DEDUCED, assumption 36) -/
def State.memoryLine (s : State) (e : EngineId) (c : ContextId) (f : Fetch) : State × List (BitVec 8) × List Byte :=
  let cls := BitVec.ofNat 2 (s.ctxClass c)
  let address := if f.kind = 1 then some f.source.toNat else s.ownAddress f.source.toNat f.bytes
  match address with
  | none => (s, [stRemoteRefused], List.replicate 64 0xFF)
  | some a =>
    let q := s.readSpan a f.bytes (engineUnit e) cls
    (q.1, q.2.2, q.2.1)

/-- A completion of the far tier that comes after its read has timed out is dropped and counted (R313). -/
def State.dropLateFar (s : State) : State :=
  match s.mem.farPorts.find? (fun q => q.2.owed != 0) with
  | none => s
  | some q =>
    let farPorts := Tab.upd {} s.mem.farPorts q.1 (fun p => { p with owed := p.owed - 1, lateDropped := p.lateDropped + 1 })
    { s with mem := { s.mem with farPorts } }

/-- A line arrives at the tender and answers the fetch of the context that its tag names. The bytes of a fetch from this module's memory
are that memory's; those of another source come with the line. A line for a partition that is being scrubbed is dropped
(R150). -/
def effLineArrive (e : EngineId) (c : ContextId) (entry : BitVec 11) (result : LineResult) (data : BitVec 512) (s : State) : State :=
  match (s.ectx e c).landingRun entry with
  | none =>
    s.dropLateFar.raiseIf ((s.engine e).scrubbing c) { area := 0x40, kind := 0x20, unit := engineUnit e, ctx := some c }
  | some (r, f) =>
    let own := f.kind == 1 || (f.kind == 2 && gaModule f.source.toNat == s.moduleId)
    -- a line crosses no link that has lost training (R41)
    if s.pathOpen e f.kind f.source.toNat = false then s else
    if own && result == .good then
      let q := s.memoryLine e c f
      match (q.1.ectx e c).landingRun entry with
      | some (r, f) =>
        -- every condition of the read stays with the step (R14)
        let rest := notCarried q.2.1
        (if rest.isEmpty then q.1 else q.1.setEctx e c ((q.1.ectx e c).updRun r.serial (fun r => { r with statuses := r.statuses ++ rest }))).landLine
          e c r f (carried q.2.1) q.2.2
      | none => q.1
    else
      let s1 := if f.kind = 3 then
          match s.host.reads.find? (fun q => q.2.any (fun (h : HostRead) => h.purpose == .tender e c && h.address == f.source)) with
          | some q => s.endRead q.1
          | none => s
        else s
      s1.landLine e c r f (statusOfLine result) (leBytes 64 data.toNat)

/-- LINE_ARRIVE (R144). -/
def execLineArrive (engine : EngineId) (context : ContextId) (result : LineReturn) (data : BitVec 512) (s : State) :
    Host.Outcome State Fault Refusal := .next (effLineArrive engine context result.entry result.result data s)

/-! ### Writes (R144, R149, R306, R330, R347, R354) -/

/-- The bytes a tender write carries: those in scratchpad, or all ones from a POISONED buffer toward the host (R149). -/
def Engine.writeData (x : Engine) (w : TenderWrite) : List Byte :=
  if w.poison ∧ w.kind = 3 then List.replicate w.bytes 0xFF else Tab.readBytes x.scratch w.start w.bytes

/-- Bytes from an address to the end of its segment (R294). -/
def toSegmentEnd (address : Nat) : Nat := 256 - address % 256

/-- Write bytes that lie in one segment: of the near tier through its channel's hold, of the far tier unless the generation is
stale (R299, R313, R354). -/
def State.writeTierPart (s : State) (e : EngineId) (cls : Nat) (inst : Option (InstanceId × W16)) (poison : Bool) (address : Nat)
    (part : List Byte) : State :=
  match s.nearDie address, inst with
  | some die, _ =>
    let ct := s.interleave die address
    s.acceptWrite ct.1 ct.2 { offset := BitVec.ofNat 8 (address % 256), data := part, poison, requester := engineUnit e,
                              cls := BitVec.ofNat 2 cls, inst }
  | none, some (i, g) =>
    if g ≠ (s.inst i).generation then s.countStale (.inst i) else (s.writeFar address part poison (engineUnit e)).1
  | none, none => (s.writeFar address part poison (engineUnit e)).1

/-- A write to near or far memory through its controller, segment by segment (R299, R313, R354). -/
def State.writeTier (s : State) (e : EngineId) (cls : Nat) (inst : Option (InstanceId × W16)) (poison : Bool) (address : Nat)
    (bytes : List Byte) : Nat → State
  | 0 => s
  | fuel + 1 =>
    if bytes.isEmpty then s
    else (s.writeTierPart e cls inst poison address (bytes.take (toSegmentEnd address))).writeTier e cls inst poison
      (address + toSegmentEnd address) (bytes.drop (toSegmentEnd address)) fuel

/-- How many of the leading writes form one fabric WRITE (R330). -/
def writeLength : List TenderWrite → Nat
  | [] => 0
  | w :: ws =>
    if w.kind ≠ 2 then 1
    else 1 + ((ws.zipIdx 1).takeWhile (fun q => q.1.kind == w.kind && decide (q.2 < 64) &&
      decide (q.1.target.toNat = w.target.toNat + 64 * q.2) && decide (q.1.target.toNat / 4096 = w.target.toNat / 4096))).length

/-- The tender's writes reach their target. The flag is false where they cannot be made now. -/
def State.sendWrites (s : State) (e : EngineId) (c : ContextId) (ws : List TenderWrite) : State × Bool :=
  match ws with
  | [] => (s, true)
  | w :: _ =>
    let x := s.engine e
    let inst := (s.ctxInst c).map (fun n => (n, w.generation))
    let bytes := ws.flatMap x.writeData
    if w.kind = 1 then (s.writeTier e (s.ctxClass c) inst w.poison w.target.toNat bytes 3, true)
    else if w.kind = 3 then
      (s.post { source := s.ctxSource c, address := w.target, bytes, poisoned := w.poison, generation := w.generation, purpose := .store e c }, true)
    else if gaModule w.target.toNat = s.moduleId then
      (match s.ownAddress w.target.toNat bytes.length with
       | some a => s.writeTier e (s.ctxClass c) inst w.poison a bytes (ws.length + 2)
       | none => s, true)
    else
      match s.livePeer (gaModule w.target.toNat) with
      | none => (s, true)
      | some p =>
        let mask : W64 := if w.poison then BitVec.ofNat 64 (2 ^ ws.length - 1) else 0
        s.issueOp p { request := 0, opcode := 2, cls := BitVec.ofNat 2 (s.ctxClass c), use := .tender e c, issuedAt := 0,
                      address := w.target, payload := bytes, operand1 := mask, poison := w.poison }

/-- Writes are acknowledged: the oldest n of the context that are outstanding, with a status that their step carries unless it
is DONE (R13, R139, R144). (DESIGN CHOICE, assumption 37) -/
def State.ackTender (s : State) (e : EngineId) (c : ContextId) (st : BitVec 8) : Nat → State
  | 0 => s
  | n + 1 =>
    let k := s.ectx e c
    match k.runs.find? (fun r => !r.writing.isEmpty) with
    | none => s
    | some r =>
      let k1 := k.updRun r.serial (fun r =>
        { r with writing := r.writing.drop 1,
                 statuses := if st = stDone then r.statuses else r.statuses ++ [listedStatus st] })
      (s.setEctx e c { k1 with writeLines := k1.writeLines - 1 }).ackTender e c st n

/-- The outstanding write to a target is acknowledged (R144). -/
def State.ackTarget (s : State) (e : EngineId) (c : ContextId) (kind : BitVec 2) (target : W64) (st : BitVec 8) : State :=
  let k := s.ectx e c
  match k.runs.findSome? (fun r => (r.writing.find? (fun w => w.kind == kind && w.target == target)).map (fun w => (r, w))) with
  | none => s
  | some (r, w) =>
    let k1 := k.updRun r.serial (fun r =>
      { r with writing := r.writing.erase w, statuses := if st = stDone then r.statuses else r.statuses ++ [listedStatus st] })
    s.setEctx e c { k1 with writeLines := k1.writeLines - 1 }

/-- WRITE_ACKNOWLEDGE (R144). -/
def execWriteAcknowledge (engine : EngineId) (context : ContextId) (status : BitVec 8) (s : State) :
    Host.Outcome State Fault Refusal := .next (s.ackTender engine context status 1)

/-! ### Detected errors (R148, R149, R179, R186) -/

/-- The context whose partition holds an engine line. -/
def Engine.lineContext (x : Engine) (line : Nat) : Option ContextId :=
  let g := Tab.get {} x.granules (line / 512)
  if g.state = .active then some g.context else none

/-- The step of the log that wrote a buffer, when its inputs are unchanged (R149). -/
def Engine.producer (x : Engine) (c : ContextId) (p h : Nat) : Option LogEntry :=
  let serial : W16 := BitVec.ofNat 16 (mProducer (x.entry p h))
  match (x.ctx c).log.find? (fun l => l.serial == serial) with
  | none => none
  | some l => if l.reads.all (fun q => mWriteSeq (x.entry p q.1) == q.2.toNat) then some l else none

/-- Add a status to every issued step that reads a buffer. -/
def EngineContext.noteReader (k : EngineContext) (x : Engine) (p h : Nat) (st : BitVec 8) : EngineContext :=
  { k with runs := k.runs.map (fun r => if (x.readHandles p r.step.descriptor.toNat).contains h then { r with statuses := r.statuses ++ [st] } else r) }

/-- The refetch of a line of a buffer with a clean backing: a tile slot's from the tile's own rows, a resident one's from
where its LOAD took it, the LOAD's offset and length being those of the re-run log's entry where it has one (R148). -/
def Engine.refetchOf (x : Engine) (c : ContextId) (p h line : Nat) : Fetch :=
  let e := x.entry p h
  let k := x.ctx c
  let slotFetch := k.runs.findSome? (fun r =>
    let d := r.step.descriptor.toNat
    if dOp d = opProduct ∨ dOp d = opVector then
      (x.tileFetches p d (r.waiting ++ x.arrays.flatMap (fun a => a.2.flight ++ a.2.reruns))).find? (fun f => f.line == line && r.tokens.contains f.tile)
    else none)
  match slotFetch with
  | some f => { f with refetch := true }
  | none =>
    let at' := line - (512 * parFirst p + mOffset e)
    let row := at' / Nat.max 1 (mPitch e)
    let l := at' % Nat.max 1 (mPitch e)
    let load := k.log.find? (fun g => g.serial.toNat == mProducer e && dOp g.step.descriptor.toNat == opLoad)
    let address := match load with | some g => g.step.address.toNat | none => 0
    let len := match load with | some g => dLength g.step.descriptor.toNat | none => 64 * mPitch e
    { line, kind := BitVec.ofNat 2 (mBacking e), source := BitVec.ofNat 64 (backingAt e address row + 64 * l),
      bytes := min 64 (len - 64 * l), refetch := true }

/-- The key of a pass's tile among those whose output is written. -/
def Pass.key (q : Pass) : Nat := 2 * q.ordinal + b2n (q.kind == .second)

/-- The band in progress of a step whose chain holds one: that of its first tile not yet written (R177, R180). -/
def Engine.bandInProgress (x : Engine) (p : Nat) (c : ContextId) (r : Run) : Nat :=
  match (x.stepPasses p r.step.descriptor.toNat c r.serial).find? (fun q => !r.tilesDone.contains q.key) with
  | some q => q.m
  | none => 0

/-- Put an abandoned pass among those that wait to re-run, which start in their original order (R122). -/
def insertPass (q : Pass) : List Pass → List Pass
  | [] => [q]
  | t :: r => if q.origin < t.origin then q :: t :: r else t :: insertPass q r

/-- Passes in flight on an array are abandoned: their accumulators are discarded, they are counted, and they wait to re-run; what a kill
has discarded does not (R122, R150). -/
def State.abandonPasses (s : State) (e : EngineId) (a : ArrayId) (gone : List Pass) : State :=
  let x := s.engine e
  let m := x.array a
  let kept := m.flight.filter (fun q => !gone.contains q)
  let reruns := (gone.filter (fun q => !q.discard)).foldl (fun l q => insertPass q l) m.reruns
  let x1 := (x.setArray a { m with flight := kept, reruns, freeAt := if kept.isEmpty then 0 else m.freeAt,
                                   demand := if kept.isEmpty then [] else m.demand }).noteScrubs
  gone.foldl (fun s q =>
    match (x.ctx q.context).runs.find? (fun r => r.serial == q.serial) with
    | none => s
    | some _ =>
      let s1 := (s.countSlots e a acAbandoned q.stream q.context).countArrayCtr e a acPassesAbandoned 1
      s1.updEngine e (fun x => x.setCtx q.context ((x.ctx q.context).updRun q.serial (fun r => { r with statuses := r.statuses ++ [stRerun] }))))
    (s.setEngine e x1)

/-- The bytes of scratchpad that a pass reads of a buffer: the slot of its tile, the rows of its tile, or the whole buffer where the rows
do not follow the tile. -/
def Engine.readRange (x : Engine) (p d : Nat) (q : Pass) (r : Role) (h : Nat) : Nat × Nat :=
  let e := x.entry p h
  let o := dArrayOp d
  let whole := match r with | .a => aTransA o || dIndex d != noHandle | .b => aTransB o | .tile => dIndex d != noHandle | .second => true
  let rows := match r with | .b => (q.n * dN d, tileCols d q) | _ => (q.m * dM d, tileRows d q)
  if mStreamed e then (rowAddr p e (fetchIndex d r q) 0 0, 64 * (mSize e / mSlots e))
  else if whole then (rowAddr p e 0 0 0, 64 * mSize e)
  else (rowAddr p e 0 rows.1 0, 64 * (rows.2 * mPitch e))

/-- Everything a pass reads of scratchpad, as byte ranges. -/
def Engine.passReads (x : Engine) (p d : Nat) (q : Pass) : List (Nat × Nat) :=
  let of' := fun (r : Role) (hs : List Nat) => ((hs.filter (handleOk p)).eraseDups).map (fun h => x.readRange p d q r h)
  let all := fun (h : Nat) => if handleOk p h then [(rowAddr p (x.entry p h) 0 0 0, 64 * mSize (x.entry p h))] else []
  let h := (x.header p d).getD 0
  match q.kind with
  | .second => all (hP h) ++ of' .second (x.planes p (hSecondB h))
  | .vectorTile => of' .tile (x.planes p (dA d) ++ [dC d]) ++ all (dIndex d)
  | _ => of' .a (x.planes p (dA d)) ++ of' .b (x.planes p (dB d)) ++ (if aAccumulate (dArrayOp d) then of' .tile [dC d] else []) ++
         all (dIndex d) ++ (if (x.skipMap p d).isSome then all (hOcc h) else [])

/-- Whether a read of a pass's operands would detect a parity failure: the pass waits until they are whole again (R128, R148). -/
def Engine.passBad (x : Engine) (p d : Nat) (q : Pass) : Bool := (x.passReads p d q).any (fun r => x.badIn r.1 r.2)

/-- Whether a pass reads an engine line. -/
def Engine.readsLine (x : Engine) (line : Nat) (q : Pass) : Bool :=
  match (x.ctx q.context).runs.find? (fun r => r.serial == q.serial) with
  | none => false
  | some r => (x.passReads (x.part q.context) r.step.descriptor.toNat q).any (fun v => decide (v.1 < 64 * line + 64 ∧ 64 * line < v.1 + v.2))

/-- The passes of an engine that read a line as it is found bad are abandoned: on each array the last started, unless one that reads the
line waits to re-run already; a VECTOR tile in progress waits again (R122, R148). (DEDUCED, assumption 170) -/
def State.abandonReaders (s : State) (e : EngineId) (line : Nat) : State :=
  let s1 := [false, true].foldl (fun s a =>
    let x := s.engine e
    let m := x.array a
    if m.reruns.any (x.readsLine line) then s
    else match m.flight.getLast? with
      | some q => if x.readsLine line q then s.abandonPasses e a [q] else s
      | none => s) s
  let x := s1.engine e
  match x.vuPass with
  | none => s1
  | some q =>
    if x.readsLine line q = false then s1
    else s1.setEngine e ({ x with vuPass := none, vu := if x.vu.tilePass = some q then x.vu.clear else x.vu }.setCtx q.context
      ((x.ctx q.context).updRun q.serial (fun r => { r with waiting := q :: r.waiting, statuses := r.statuses ++ [stRerun] })))

/-- Some passes of a step run again: those of them in flight or drained are dropped, their tiles count as not written, and streamed tiles
whose tokens are gone are fetched again, into slots that later tiles give up (R148, R179, R186). -/
def Engine.repeatPasses (x : Engine) (p : Nat) (c : ContextId) (r : Run) (again' : Pass → Bool) : Engine :=
  let d := r.step.descriptor.toNat
  let again := (x.stepPasses p d c r.serial).filter again'
  let mine := fun (q : Pass) => q.context == c && q.serial == r.serial && again' q
  let vu := match x.vu.tilePass with | some q => if mine q then x.vu.clear else x.vu | none => x.vu
  let x1 := { x with vu, arrays := Tab.mapAll {} (fun _ a => { a with
                       flight := a.flight.filter (fun q => !mine q), reruns := a.reruns.filter (fun q => !mine q),
                       drains := a.drains.filter (fun t => !mine t.pass) }) x.arrays,
                     vuPass := x.vuPass.filter (fun q => !mine q) }
  let left := r.tilesDone.filter (fun k => !again.any (fun q => q.key == k))
  let waiting := again ++ r.waiting.filter (fun q => !again' q)
  let missing := ((again.flatMap (x.tokensOf p d)).eraseDups).filter (fun t => !(r.tokens ++ r.filling ++ r.emptyTiles).contains t)
  -- a tile that stands in a slot one of the missing tiles needs
  let inWay := fun (t : Nat) => missing.any (fun u => decide ((t - 1) / 2 ^ 32 = (u - 1) / 2 ^ 32 ∧ t ≠ u) &&
    (x.roleBuffers p d (roleOf ((t - 1) / 2 ^ 32))).any (fun h => decide ((t - 1) % 2 ^ 32 % mSlots (x.entry p h) = (u - 1) % 2 ^ 32 % mSlots (x.entry p h))))
  let busy := ((x1.livePasses c { r with waiting := [] }).flatMap (x.tokensOf p d))
  let tokens := r.tokens.filter (fun t => busy.contains t || !inWay t)
  let filling := r.filling.filter (fun t => !inWay t)
  let fetches := r.fetches.filter (fun f => decide (f.tile = 0) || f.refetch || filling.contains f.tile) ++
    (x.tileFetches p d waiting).filter (fun f => !(tokens ++ filling).contains f.tile)
  let k := (x1.ctx c).updRun r.serial (fun _ => { r with
    waiting, tilesDone := left, chainLeft := r.chainLeft + (r.tilesDone.length - left.length), heldTiles := [], statuses := r.statuses ++ [stRerun],
    tokens, filling, fetches,
    fetching := r.fetching.map (fun f => if f.tile ≠ 0 ∧ f.refetch = false ∧ !filling.contains f.tile then { f with dropped := true } else f) })
  x1.setCtx c { k with tokensIssued := k.tokensIssued - (r.tokens.length - tokens.length),
                       tokensFilling := k.tokensFilling - (r.filling.length - filling.length) }

/-- The first engine line that a read of some ranges finds bad. -/
def Engine.firstBad (x : Engine) (ranges : List (Nat × Nat)) : Option Nat :=
  (x.badWords.find? (fun q => q.2 && ranges.any (fun r => decide (8 * q.1 < r.1 + r.2 ∧ r.1 < 8 * q.1 + 8)))).map (fun q => q.1 / 8)

/-- Whether a bad line is being made good: a refetch of it is under way, or its producing step can run again (R148). -/
def Engine.repairing (x : Engine) (c : ContextId) (line : Nat) : Bool :=
  (x.ctx c).runs.any (fun r => (r.fetches ++ r.fetching).any (fun f => f.refetch && f.line == line)) ||
  (match x.bufferOf (x.part c) line with
   | some h => (decide (mBacking (x.entry (x.part c) h) = 0) || mDirty (x.entry (x.part c) h)) && (x.producer c (x.part c) h).isSome
   | none => false)

/-- The slot count of the tile that stands in a slot of a step's streamed output: of the tiles written, the last that went there. -/
def Engine.tileInSlot (x : Engine) (p : Nat) (c : ContextId) (r : Run) (slot : Nat) : Option Nat :=
  let d := r.step.descriptor.toNat
  let e := x.entry p (dOut d)
  (((x.stepPasses p d c r.serial).filter (fun q => r.tilesDone.contains q.key)).map (fun q => if x.form2 p d then q.m else q.ordinal)).filter
    (fun j => j % mSlots e = slot) |>.getLast?

/-- Whether a pass of a step wrote a line of its output: its tile's rows and columns hold it, or its slot does (R186). -/
def Engine.wroteLine (x : Engine) (p : Nat) (c : ContextId) (r : Run) (line : Nat) (q : Pass) : Bool :=
  let d := r.step.descriptor.toNat
  let e := x.entry p (dOut d)
  let at' := line - (512 * parFirst p + mOffset e)
  let per := Nat.max 1 (mSize e / mSlots e)
  let whole : Bool := x.form2 p d || (match x.header p d with | some h => hHeld h | none => false)
  let eb := elemBits (mFormat e)
  let inRow := whole || mStreamed e || decide (x.outColumns p d (q.n * dN d) * eb < 512 * (at' % Nat.max 1 (mPitch e)) + 512 ∧
    512 * (at' % Nat.max 1 (mPitch e)) < x.outColumns p d (min (dStepN d) ((q.n + 1) * dN d)) * eb)
  if mStreamed e then
    match x.tileInSlot p c r (at' / per) with
    | none => false
    | some j => if x.form2 p d then q.m == j else if whole then q.m == j / Nat.max 1 (tilesN d) else q.ordinal == j
  else inRow && decide (at' / Nat.max 1 (mPitch e) / Nat.max 1 (dM d) = q.m)

/-- A parity detect, or a poisoned line, on an engine line: refetch, re-run of the producing step, or poison, by the first row
of R148 that applies; the hold lines of a band and the lines read for a send have rules of their own (R179, R186). -/
def effParityDetect (e : EngineId) (line : BitVec 13) (poisoned : Bool) (s : State) : State :=
  let x0 := s.engine e
  let x := { x0 with badWords := markBad x0.badWords line.toNat }
  match x.lineContext line.toNat with
  | none => s.setEngine e x
  | some c =>
    let p := x.part c
    let k := x.ctx c
    let rerun := fun (s : State) => (s.countEngine e 13 1).raise { area := 0x40, kind := 0x04, unit := engineUnit e, ctx := some c }
    match x.bufferOf p line.toNat with
    | none => s.setEngine e x
    | some h =>
      let ent := x.entry p h
      let holder := k.runs.find? (fun r => match x.header p r.step.descriptor.toNat with
        | some hd => (hHeld hd || hForm hd == 2) && hHold hd == h | none => false)
      let wrote := fun (r : Run) => (x.stepPasses p r.step.descriptor.toNat c r.serial).any (fun q =>
        x.wroteLine p c r line.toNat q && r.tilesDone.contains q.key)
      let sender := k.runs.find? (fun r => dOut r.step.descriptor.toNat == h && !r.sends.isEmpty && wrote r)
      match holder, sender with
      | some r, _ =>
        let m := x.bandInProgress p c r
        let twin := aTwin (dArrayOp r.step.descriptor.toNat)
        rerun (s.setEngine e (x.repeatPasses p c r (fun q => q.m == m || (twin && q.m / 2 == m / 2))))
      | none, some r =>
        let same := r.reads.all (fun q => mWriteSeq (x.entry p q.1) == q.2.toNat)
        if same then rerun (s.setEngine e (x.repeatPasses p c r (x.wroteLine p c r line.toNat)))
        else
          -- the tile goes out with the poison flag
          let lost := ((x.stepPasses p r.step.descriptor.toNat c r.serial).filter (x.wroteLine p c r line.toNat)).map
            (fun q => if x.form2 p r.step.descriptor.toNat then q.m else q.ordinal)
          (s.setEngine e (x.setCtx c (k.updRun r.serial (fun r => { r with
            statuses := r.statuses ++ [stDataLost], poisonTiles := r.poisonTiles ++ lost })))).raise
            { area := 0x40, kind := 0x06, unit := engineUnit e, ctx := some c, status := stDataLost }
      | none, none =>
        if mBacking ent ≠ 0 ∧ mDirty ent = false then
          let s1 := (s.setEngine e x).abandonReaders e line.toNat
          let f := x.refetchOf c p h line.toNat
          let k1 := (s1.ectx e c).noteReader x p h stRerun
          rerun (s1.setEctx e c (match k.runs with
            | r :: _ => k1.updRun r.serial (fun r => { r with fetches := f :: r.fetches })
            | [] => k1))
        else if (x.producer c p h).isSome then
          let s1 := (s.setEngine e x).abandonReaders e line.toNat
          rerun (s1.setEctx e c ((s1.ectx e c).noteReader x p h stRerun))
        else
          let st := if poisoned then stPoisoned else stDataLost
          (s.setEngine e ({ (x.poison p h) with badWords := clearBad x.badWords (64 * line.toNat) 64 }.setCtx c (k.noteReader x p h st))).raise
            { area := 0x40, kind := if poisoned then 0x05 else 0x06, unit := engineUnit e, ctx := some c, status := st }

/-- A read of some ranges by a context: every word is checked, and a bad line that nothing makes good yet is handled as detected (R128,
R148). -/
def State.readChecked (s : State) (e : EngineId) (c : ContextId) (ranges : List (Nat × Nat)) : State :=
  match (s.engine e).firstBad ranges with
  | none => s
  | some line => if (s.engine e).repairing c line then s else effParityDetect e (BitVec.ofNat 13 line) false s

/-- PARITY_DETECT (R148). -/
def execParityDetect (engine : EngineId) (line : BitVec 13) (poisoned : Bool) (s : State) : Host.Outcome State Fault Refusal :=
  .next (effParityDetect engine line poisoned s)

/-! ### Issue of writes (R144, R149) -/

/-- Whether a step before another still owes write-behind of its streamed output, which goes out first (R144). -/
def Engine.earlierOwes (x : Engine) (c : ContextId) (r : Run) : Bool :=
  ((x.ctx c).runs.takeWhile (fun q => q.serial ≠ r.serial)).any (fun q =>
    decide (q.chainLeft ≠ 0) && !q.again && mStreamed (x.entry (x.part c) (dOut q.step.descriptor.toNat)))

/-- A write as it is made: poisoned if its buffer has become POISONED since (R149). -/
def Engine.writeNow (x : Engine) (p : Nat) (w : TenderWrite) : TenderWrite :=
  { w with poison := w.poison || (match x.bufferOf p (w.start / 64) with | some h => mState (x.entry p h) == mPoisoned | none => false) }

/-- The tender issues its next write for a context while a window admits it (R56, R144); bad lines that it would read are waited for
(R148). -/
def effWriteIssue (e : EngineId) (c : ContextId) (s : State) : State :=
  let k := s.ectx e c
  match k.runs.find? (fun r => !r.writes.isEmpty) with
  | none => s
  | some r =>
    let n := min (writeLength r.writes) (s.lineRoom e c)
    let open' := (r.writes.take n).all (fun w => s.pathOpen e w.kind w.target.toNat)
    if s.noWork ∨ s.engineStopped e ∨ s.writeAdmitted e c = false ∨ (s.engine e).earlierOwes c r ∨ n = 0 ∨ open' = false then s
    else if ((s.engine e).firstBad ((r.writes.take n).map (fun w => (w.start, w.bytes)))).isSome then
      s.readChecked e c ((r.writes.take n).map (fun w => (w.start, w.bytes)))
    else
      let ws := ((r.writes.take n).map ((s.engine e).writeNow ((s.engine e).part c)))
      let allowed := ws.all (fun w =>
        if w.kind = 1 then s.regionAllows c w.target.toNat w.bytes true
        else if w.kind = 2 then s.granted (s.ctxSource c) w.target.toNat false else true)
      if allowed = false then
        (s.setEctx e c (k.updRun r.serial (fun r => { r with writes := [], statuses := r.statuses ++ [stSecurity] }))).failRun r stSecurity
      else
        match s.sendWrites e c ws with
        | (_, false) => s
        | (s1, true) =>
          let k1 := s1.ectx e c
          let k2 := k1.updRun r.serial (fun r =>
            { r with writes := r.writes.drop n, writing := r.writing ++ ws.map (fun w => { w with issuedAt := s.time.ticks }),
                     bytes := r.bytes + ws.foldl (fun a w => a + w.bytes) 0 })
          let s2 := (s1.setEctx e c { k2 with writeLines := k2.writeLines + n }).countLines e c 4 0x08 (ws.map (fun w => (w.kind, w.target)))
          match ws with
          | [] => s2
          | w :: _ =>
            -- a write that cannot reach its target ends at once
            let ends := fun (s : State) (st : BitVec 8) => ws.foldl (fun s v => s.ackTarget e c v.kind v.target st) s
            if s.isRemote w.kind w.target.toNat then
              (if (s.livePeer (gaModule w.target.toNat)).isNone then
                ends (s2.remoteEvent (gaModule w.target.toNat) stRemoteTimeout false) stRemoteTimeout
               else s2)
            else if w.kind = 3 ∧ s.linkUp = false then ends s2 stRemoteTimeout
            else if w.kind = 2 ∧ (s.ownAddress w.target.toNat (64 * ws.length)).isNone then ends s2 stRemoteRefused
            else s2

/-! ### The scrubber (R150 to R152) -/

/-- The scrubber starts on the killed partition whose context's last work ended first (R151, R152). -/
def effScrubStart (e : EngineId) (s : State) : State :=
  let x := s.engine e
  match x.scrubs with
  | [] => s
  | k :: ks => if k.started ∨ k.ready = false then s
               else s.setEngine e { x with scrubs := { k with started := true } :: ks }

/-- SCRUB_START (R151). -/
def execScrubStart (engine : EngineId) (s : State) : Host.Outcome State Fault Refusal := .next (effScrubStart engine s)

/-- The context that a version declares on a granule of an engine (R129). -/
def declaredOn (t : Tab Nat) (e g : Nat) : Option ContextId :=
  ((partitionRecs t).find? (fun r => parEngine r == e && decide (parFirst r ≤ g ∧ g < parFirst r + parCount r))).map
    (fun r => BitVec.ofNat 10 (parContext r))

/-- The granules of a scrubbed run: ACTIVE for the context the active version declares, else FREE; those that another scrub still waits
for stay SCRUBBING (R150 step 6). -/
def State.settleGranules (s : State) (e : EngineId) (first count : Nat) (waits : List Scrub) (t : Tab Granule) : Tab Granule :=
  (((List.range count).map (first + ·)).filter (fun g => !waits.any (fun k => decide (k.first ≤ g ∧ g < k.first + k.count)))).foldl (fun t g =>
    Tab.set {} t g (match declaredOn s.vers.active e.toNat g with
      | some c => { state := .active, context := c }
      | none => { state := .free, context := 0 })) t

/-- The cycles of a scrub: 384 B each; in a group that a RAN window names between 272 and 1,024 B, as the feeders leave (R151, R450). -/
def State.scrubCycles (s : State) (e : EngineId) (bytes : Nat) : State × Nat :=
  let ran := (liveWindows s.vers.active).any (fun w => winClass w.2 == 0 && decide (bits (winEngines w.2) (8 * groupOf e + 7) (8 * groupOf e) ≠ 0))
  if ran then
    let d := s.draw
    (d.2, ceilDiv bytes 1024 + d.1 % (ceilDiv bytes 272 - ceilDiv bytes 1024 + 1))
  else (s, ceilDiv bytes 384)

/-- The scrub in progress is done: every line is zero with good parity, the granules settle, and an instance reset that waits
for it advances (R150, R355). -/
def effScrubComplete (e : EngineId) (s : State) : State :=
  let x := s.engine e
  match x.scrubs with
  | [] => s
  | k :: ks =>
    if k.started = false then s
    else
      let lo := 32768 * k.first
      let hi := 32768 * (k.first + k.count)
      let x1 := { x with scrubs := ks,
                         scratch := x.scratch.filter (fun q => !decide (lo ≤ q.1 ∧ q.1 < hi)),
                         badWords := x.badWords.filter (fun q => !decide (lo ≤ 8 * q.1 ∧ 8 * q.1 < hi)),
                         granules := s.settleGranules e k.first k.count ks x.granules }
      let w := s.scrubCycles e (32768 * k.count)
      let s1 := { (w.1.setEngine e x1) with scrubsCompleted := s.scrubsCompleted + 1 }.countEngine e 14 w.2
      match k.instanceId with
      | none => s1
      | some n => s1.setInst n { s1.inst n with scrubsLeft := (s1.inst n).scrubsLeft - 1 }

/-- SCRUB_COMPLETE (R150). -/
def execScrubComplete (engine : EngineId) (s : State) : Host.Outcome State Fault Refusal := .next (effScrubComplete engine s)

end Sys2Proof.Machine
end

