-- ==== Sys2Proof/Machine/Sounding.lean ====
section
/-!
DEFINITION. Sounding and paired execution: comparing two results of one pass, counting arrays, quarantine, and the slots kept for
arbitration (R406 to R412).
-/

namespace Sys2Proof.Machine

/-! ### Counting and quarantine (R412) -/

/-- Advance one of an array's SoundingStats: 0 shadows, 1 mismatches, 2 arbitrations, 3 counts. -/
def State.soundingStat (s : State) (e : EngineId) (a : ArrayId) (place : Nat) : State :=
  let t := Tab.upd 0 s.integ.soundingStats (4 * (2 * e.toNat + b2n a) + place) (· + 1)
  { s with integ := { s.integ with soundingStats := t } }

/-- Count an array once; the third count within SoundingWindow quarantines it (R412). -/
def State.countArray (s : State) (e : EngineId) (a : ArrayId) : State :=
  let m := (s.engine e).array a
  let t := s.time.seconds.toNat
  let counts := lastN 3 (m.counts ++ [t])
  let out := decide (counts.length = 3) && decide (t - counts.headD 0 ≤ s.act 0xA031 0 0) && m.health == .inService
  let s1 := (s.updEngine e (fun x => x.setArray a { m with counts, health := if out then .quarantined else m.health })).soundingStat e a 3
  s1.raiseIf out { area := 0xA0, kind := 0x12, unit := engineUnit e, status := stQuarantined, detail := [(1, b2n a)] }

/-! ### Detail of a mismatch (R410) -/

/-- The Detail of a SOUNDING or PAIRED event. -/
def mismatchDetail (op : Nat) (here other : List (List W32)) (verdict : Nat) (a : ArrayId) : List (Nat × Nat) :=
  let ds := differences here other
  let f := ds.headD (0, 0, 0, 0)
  [(32, op), (20, ds.length), (12, f.1), (10, f.2.1), (32, f.2.2.1.toNat), (32, f.2.2.2.toNat), (2, verdict), (1, b2n a)]

/-! ### Slots for arbitration (R409) -/

/-- How many 8 MiB slots SoundingArea holds; none when it is 0xFFF. -/
def State.soundingSlotCount (s : State) : Nat :=
  let r := s.act 0xA032 0 0
  if r = 0xFFF ∨ getRec s.vers.active 0x7011 0 0 ≤ r then 0 else regBytes (regionOf s.vers.active r) / 2 ^ 23

/-- The array a pass ran on, once it has started. -/
def Pass.array (q : Pass) : ArrayId := q.select == 2

/-- The ArrayOp word of a pass. -/
def Engine.opOf (x : Engine) (p d : Nat) (q : Pass) : Nat := (x.shape p d q).op

/-- A sampled pass and its shadow are both there: they are compared, the step is released, and a mismatch is kept for
arbitration or counted against both arrays (R408, R409). -/
def State.compareSounding (s : State) (e : EngineId) (mine shadow : DrainTile) (op stream : Nat)
    (truth : List (List W32)) : State :=
  let a := mine.pass.array
  let c := mine.pass.context
  let s1 := s.updEngine e (fun x =>
    let k := x.ctx c
    { (x.setCtx c (k.updRun mine.pass.serial (fun r => { r with shadowsLeft := r.shadowsLeft - 1 }))) with
      soundings := x.soundings.filter (fun t => !(t.pass.context == c && t.pass.serial == mine.pass.serial && t.pass.key == mine.pass.key)) })
  if mine.rows = shadow.rows then s1
  else
    let s2 := (s1.soundingStat e a 1).raise
      { area := 0xA0, kind := 0x30, unit := engineUnit e, ctx := some c, detail := mismatchDetail op mine.rows shadow.rows 0 a }
    match (List.range s2.soundingSlotCount).find? (fun i => (Tab.get none s2.integ.soundingSlots i).isNone) with
    | none => (s2.countArray e a).countArray e (!a)
    | some i =>
      let slot : SoundingSlot := { engine := e, array := a, arrayOp := BitVec.ofNat 32 op, here := mine.rows, other := shadow.rows, truth, stream,
                                   since := s2.time.seconds.toNat }
      { s2 with integ := { s2.integ with soundingSlots := Tab.set none s2.integ.soundingSlots i (some slot) } }

/-- The arbiter's verdict on a slot: each array that differs from the arbiter is counted, and a second event carries the
verdict (R409, R410). -/
def State.arbitrate (s : State) (i : Nat) (k : SoundingSlot) (arbiter : List (List W32)) : State :=
  let badHere := decide (k.here ≠ arbiter)
  let badOther := decide (k.other ≠ arbiter)
  let verdict := if badHere ∧ badOther then 3 else if badHere then 1 else 2
  let s1 := (if badHere then s.countArray k.engine k.array else s).soundingStat k.engine k.array 2
  let s2 := if badOther then s1.countArray k.engine (!k.array) else s1
  let s3 := s2.raise { area := 0xA0, kind := 0x10, unit := engineUnit k.engine, detail := mismatchDetail k.arrayOp.toNat k.here k.other verdict k.array }
  { s3 with integ := { s3.integ with soundingSlots := Tab.set none s3.integ.soundingSlots i none } }

/-! ### ARBITER_PASS and ARBITRATION_TIMEOUT (R409) -/

/-- Whether a SERVICE window is open on an engine. -/
def State.serviceOpen (s : State) (e : EngineId) : Bool :=
  match s.openWindow (engineUnit e) with
  | some l => winOwner l.win == ownerService
  | none => false

/-- The arbiter pass of a slot runs on array A of another engine of the origin's group, in a SERVICE window that names it. -/
def effArbiterPass (e : EngineId) (slot : BitVec 10) (error : Option (BitVec 12 × BitVec 9 × W32)) (s : State) : State :=
  match Tab.get none s.integ.soundingSlots slot.toNat with
  | none => s
  | some k =>
    let m := (s.engine e).array false
    if groupOf e ≠ groupOf k.engine ∨ e = k.engine ∨ s.serviceOpen e = false ∨ m.health ≠ .inService ∨ s.engineStopped e ∨
       s.mayStart = false then s
    else ((s.countArrayCtr e false acSounding k.stream).countArrayCtr e false 0 k.stream).arbitrate slot.toNat k (alter k.truth error)

/-- ARBITER_PASS (R409). -/
def execArbiterPass (engine : EngineId) (slot : BitVec 10) (error : Option (BitVec 12 × BitVec 9 × BitVec 32)) (s : State) :
    Host.Outcome State Fault Refusal := .next (effArbiterPass engine slot error s)

/-- No SERVICE window began within SoundingWindow: both arrays are counted, unarbitrated, and the slot is freed. -/
def effArbitrationTimeout (slot : BitVec 10) (s : State) : State :=
  match Tab.get none s.integ.soundingSlots slot.toNat with
  | none => s
  | some k =>
    if s.time.seconds.toNat < k.since + s.act 0xA031 0 0 then s else
    let s1 := (s.countArray k.engine k.array).countArray k.engine (!k.array)
    { s1 with integ := { s1.integ with soundingSlots := Tab.set none s1.integ.soundingSlots slot.toNat none } }

/-- ARBITRATION_TIMEOUT (R409). -/
def execArbitrationTimeout (slot : BitVec 10) (s : State) : Host.Outcome State Fault Refusal := .next (effArbitrationTimeout slot s)

end Sys2Proof.Machine
end

