-- ==== Sys2Proof/Machine/Passes.lean ====
section
/-!
DEFINITION. Passes: PRODUCT and VECTOR steps as they issue, the start of a pass with its conditions, twin and paired issue, the
round robin of OPEN windows, commit, abandonment and re-run (R78 to R83, R105 to R108, R115, R116, R122, R145, R149, R153,
R173, R181, R192, R406 to R411, R442, R477).
-/

namespace Sys2Proof.Machine

/-! ### Issue of PRODUCT and VECTOR (R139, R183, R185) -/

/-- The destinations of a step's fused send: how many there are, and 0 when it sends nothing (R183). -/
def Engine.destinations (x : Engine) (p d : Nat) : Nat :=
  match x.header p d with
  | none => 0
  | some h => if hSend h then bits (ofLeBytes (Tab.readBytes x.scratch (rowAddr p (x.entry p (hSendTable h)) 0 0 0) 64)) 511 508 else 0

/-- Tiles of a step's output (R183): a Form 2 chain makes one for each band. -/
def Engine.outTiles (x : Engine) (p d : Nat) : Nat := if x.form2 p d then tilesM d else tilesM d * tilesN d

/-- The tile a destination is owed after it has got `next` tiles; Mode 1 deals tile t to destination t modulo DestCount
(R183). -/
def Engine.owedTile (x : Engine) (p d destination next : Nat) : Option Nat :=
  let head := match x.header p d with
    | some h => ofLeBytes (Tab.readBytes x.scratch (rowAddr p (x.entry p (hSendTable h)) 0 0 0) 64)
    | none => 0
  let t := if bits head 507 506 = 1 then destination + bits head 511 508 * next else next
  if t < x.outTiles p d then some t else none

/-- What an issued PRODUCT or VECTOR step has to do: its passes, its streamed fetches, its sends. A producer's re-run sends
nothing (R186); a tile of which a skip leaves nothing needs no token of its own (R193). -/
def Engine.productWork (x : Engine) (p : Nat) (c : ContextId) (r : Run) : Run :=
  let d := r.step.descriptor.toNat
  let passes := x.stepPasses p d c r.serial
  let n := if r.again ∨ passes.isEmpty then 0 else x.destinations p d
  let fetches := x.tileFetches p d passes
  let emptyTiles := ((passes.flatMap (x.tokensOf p d)).eraseDups).filter (fun t => !fetches.any (fun f => f.tile == t))
  { r with waiting := passes, chainLeft := passes.length, fetches, emptyTiles,
           sends := ((List.range n).filter (fun i => (x.owedTile p d i 0).isSome)).map (fun i => (i, { live := true })), producing := !passes.isEmpty }

/-- A step whose work is passes issues. A Paired step that cannot run paired raises its event, once per engine and version
(R411). -/
def State.issuePasses (s : State) (e : EngineId) (c : ContextId) (st : Step) : State :=
  let x := s.engine e
  let p := x.part c
  let s1 := s.beginRun e c st (x.productWork p c)
  let able := (x.array false).health == .inService && (x.array true).health == .inService &&
    (match s.ctxRec c with | some r => ctxPaired r | none => false)
  let k := s1.ectx e c
  if dPaired st.descriptor.toNat && !able && !(x.contexts.any (fun q => q.2.pairedNoted)) then
    (s1.setEctx e c { k with pairedNoted := true }).raise { area := 0xA0, kind := 0x10, unit := engineUnit e, ctx := some c }
  else s1

/-- PRODUCT (R139). -/
def execProduct (engine : EngineId) (context : ContextId) (s : State) : Host.Outcome State Fault Refusal :=
  .next (s.issueStep engine context opProduct (fun s st => s.issuePasses engine context st))

/-- VECTOR (R477). -/
def execVector (engine : EngineId) (context : ContextId) (s : State) : Host.Outcome State Fault Refusal :=
  .next (s.issueStep engine context opVector (fun s st => s.issuePasses engine context st))

/-! ### The shape of a start -/

/-- The kept block columns, K′, of a pass as it would start. -/
def Engine.passK (x : Engine) (p d : Nat) (q : Pass) : Nat :=
  if q.kind = .second then dN d else keptK (dK d) (x.keptColumns p d q)

/-- The ArrayOp word, M and K that give a pass's cycle count (R106, R180, R192). -/
def Engine.passOp (x : Engine) (p d : Nat) (q : Pass) : Nat :=
  if q.kind = .second then hArrayOp2 ((x.header p d).getD 0) else dArrayOp d

/-- A pass with its cycle count, issue interval and mode, as it would start on an array (R106, R107, R477). -/
def Engine.priced (x : Engine) (p d : Nat) (a : ArrayId) (q : Pass) : Pass :=
  if q.kind = .vectorTile then
    let cycles := x.vectorC p d (tileRows d q) (tileCols d q) (x.vu.held.contains (q.context, q.serial))
    { q with cycles, interval := cycles, select := 1 + b2n a }
  else
    let o := x.passOp p d q
    { q with cycles := passC o (dM d) (x.passK p d q) (x.array a).latency.toNat, interval := passI o (dM d) (x.passK p d q),
             stream := passS o (dM d) (x.passK p d q), mode := aMode o, select := 1 + b2n a }

/-- The passes that the head of a step's waiting passes starts, with their arrays: both of a twin pair or of a paired pass when
both arrays are in service, else one on the given array (R116, R411). (DEDUCED, assumption 42) -/
def State.startSet (s : State) (e : EngineId) (c : ContextId) (r : Run) (a : ArrayId) : List (ArrayId × Pass) :=
  let x := s.engine e
  let p := x.part c
  let d := r.step.descriptor.toNat
  let both := (x.array false).health == .inService && (x.array true).health == .inService
  let pairs := both && (match s.ctxRec c with | some k => ctxPaired k | none => false)
  match r.waiting with
  | [] => []
  | q :: rest =>
    if q.paired && pairs then [(false, x.priced p d false q), (true, x.priced p d true q)]
    else if q.twin && both then
      match rest with
      | t :: _ => [(false, x.priced p d false { q with paired := false }), (true, x.priced p d true { t with paired := false })]
      | [] => [(a, x.priced p d a { q with twin := false, paired := false })]
    else [(a, x.priced p d a { q with twin := false, paired := false })]

/-- The demand of a start in its lead-in and after it, in 1/96 byte per cycle (R115). -/
def Engine.startDemand (x : Engine) (p d : Nat) (q : Pass) (pair : Bool) : Nat × Nat :=
  if q.kind = .vectorTile then (0, 0)
  else let o := x.passOp p d q; (leadDemand96 o pair, demand96 o pair)

/-- The demand in force on an engine at a cycle, with a scrub in a group that no RAN window names (R115, R151). -/
def State.demandAt (s : State) (e : EngineId) (n : Nat) : Nat :=
  let x := s.engine e
  let passes := x.arrays.foldl (fun t m => t + (m.2.demand.filter (fun q => decide (n < q.1))).foldl (fun u q => u + q.2) 0) 0
  let ran := (liveWindows s.vers.active).any (fun w => winClass w.2 == 0 && decide (bits (winEngines w.2) (8 * groupOf e + 7) (8 * groupOf e) ≠ 0))
  passes + (if ran = false ∧ x.scrubs.any (·.started) then 384 * 96 else 0)

/-- The duty D of a group (R442). (DEDUCED, assumption 43) -/
def State.dutyOf (s : State) (g : Nat) : Nat := 64 - Tab.get 0 s.power.duty g

/-! ### Start conditions (R78, R107, R108, R115, R116, R145, R153, R173, R181, R192, R442) -/

/-- Whether a shadow that waits on an array goes before other passes of the window: its context is admitted and it fits (R407). -/
def State.shadowFirst (s : State) (e : EngineId) (m : MatrixArray) (l : ListEntry) (n : Nat) : Bool :=
  s.dutyOf (groupOf e) == 64 && m.shadows.any (fun q => (s.admitted e l.win).contains q.context && l.fits q.cycles n)

/-- Whether a pass of a mode need not wait for one of another mode, or for an abandoned one, to commit (R108, R122). -/
def MatrixArray.modeOpen (m : MatrixArray) (q : Pass) : Bool := (m.flight.isEmpty || m.lastMode == q.mode) && m.reruns.isEmpty

/-- Whether an array is in service, past its issue interval, and not wanted by a shadow. -/
def State.arrayOpen (s : State) (e : EngineId) (l : ListEntry) (n : Nat) (a : ArrayId) : Bool :=
  let m := (s.engine e).array a
  m.health == .inService && decide (m.freeAt ≤ n) && !s.shadowFirst e m l n

/-- Whether an array can take a pass on a cycle. -/
def State.arrayFree (s : State) (e : EngineId) (l : ListEntry) (n : Nat) (a : ArrayId) (q : Pass) : Bool :=
  let m := (s.engine e).array a
  s.arrayOpen e l n a && m.modeOpen q && m.drains.isEmpty

/-- The earliest cycle from which a pass of a step may read what earlier steps wrote: 12 cycles after the producer's commit, and the
cycles of its further stages (R123, R167, R172); a second product likewise after its P is written (R181). -/
def Engine.inputsReadyAt (x : Engine) (p : Nat) (c : ContextId) (r : Run) (q : Pass) : Nat :=
  if q.kind = .second then r.written
  else (x.readHandles p r.step.descriptor.toNat).foldl (fun t h => Nat.max t (Tab.get 0 (x.ctx c).outReady h)) 0

/-- Whether a pass that a Twin step is left with alone starts on a given array: the first that is free, A where both are (R116). -/
def State.lonePlace (s : State) (e : EngineId) (l : ListEntry) (n : Nat) (a : ArrayId) (d : Nat) (q : Pass) : Bool :=
  !(aTwin (dArrayOp d) && !q.twin && q.select == 0 && decide (q.kind ≠ .vectorTile)) || !a || !s.arrayFree e l n false q

/-- Whether the chain order of a step lets a pass start: a second product after its P is written, a band of a held or Form 2
chain after the bands before it (R177, R180, R181). -/
def Engine.chainReady (x : Engine) (p : Nat) (c : ContextId) (r : Run) (q : Pass) : Bool :=
  let d := r.step.descriptor.toNat
  match x.header p d with
  | none => true
  | some h =>
    if hHeld h ∨ hForm h = 2 then
      let done := fun (t : Pass) => r.tilesDone.contains t.key
      let group := fun (m : Nat) => if aTwin (dArrayOp d) ∧ hForm h = 2 then m / 2 else m
      (x.stepPasses p d c r.serial).all (fun t => done t || decide (group q.m ≤ group t.m)) &&
      (q.kind != .second || r.tilesDone.contains (2 * q.ordinal))
    else true

/-- Whether the passes of a start meet every start condition but the deficit's; operands that a read would find bad are waited for
(R148). -/
def State.mayStartSet (s : State) (e : EngineId) (c : ContextId) (r : Run) (l : ListEntry) (n : Nat) (a : ArrayId)
    (set : List (ArrayId × Pass)) : Bool :=
  let x := s.engine e
  let p := x.part c
  let d := r.step.descriptor.toNat
  let vector := set.any (fun q => q.2.kind == .vectorTile)
  let inference := s.ctxClass c == 1
  let head := match r.waiting with | q :: _ => q | [] => { context := c, serial := 0, kind := .single, m := 0, n := 0 : Pass }
  let demand := match set with | q :: _ => (x.startDemand p d q.2 (decide (1 < set.length))).1 | [] => 0
  !set.isEmpty && s.resident e c &&
  (decide (1 < set.length) || vector || head.select == 0 || head.select == 1 + b2n a) &&
  (if vector then x.vuPass.isNone && x.vu.tilePass.isNone else set.all (fun q => s.arrayFree e l n q.1 q.2)) &&
  set.all (fun q => (x.tokensOf p d q.2).all (fun t => r.tokens.contains t || r.emptyTiles.contains t)) &&
  set.all (fun q => x.chainReady p c r q.2 && decide (x.inputsReadyAt p c r q.2 ≤ n) && !x.passBad p d q.2) &&
  (decide (1 < set.length) || s.lonePlace e l n a d { head with mode := (set.headD (a, head)).2.mode }) &&
  decide (s.demandAt e n + demand ≤ demandLimit96) &&
  set.all (fun q => l.fits q.2.cycles n) &&
  (!inference || (decide (s.dutyOf (groupOf e) ≠ 0) && set.all (fun q => decide ((x.array q.1).nextInference ≤ n))))

/-- Whether the index entries that a start reads are in range (R173). (DEDUCED, assumption 40) -/
def State.startIndexGood (s : State) (e : EngineId) (c : ContextId) (r : Run) (set : List (ArrayId × Pass)) : Bool :=
  let x := s.engine e
  let p := x.part c
  let d := r.step.descriptor.toNat
  set.all (fun q => q.2.kind == .second || x.indexGood p d (q.2.m * dM d) (tileRows d q.2))

/-! ### The effect of a start (R78, R83, R115, R406, R407, R442) -/

/-- A pass, or a re-run, starts on an array: it is in flight, and the array's freedom and demand move on. -/
def MatrixArray.load (m : MatrixArray) (q : Pass) (n lead base d : Nat) : MatrixArray :=
  let loads := [(n + q.interval, base), (n + d, lead - base)].filter (fun t => decide (t.2 ≠ 0 ∧ n < t.1))
  { m with flight := m.flight ++ [q], lastMode := q.mode, freeAt := n + q.interval,
           demand := m.demand.filter (fun t => decide (n < t.1)) ++ loads }

/-- One pass starts on an array for the first time: its duty and sounding register move on too. -/
def MatrixArray.begin (m : MatrixArray) (q : Pass) (n duty : Nat) (inference : Bool) (lead base d : Nat) : MatrixArray :=
  let next := if inference then n + q.interval * 64 / Nat.max duty 1 else m.nextInference
  { m.load q n lead base d with nextInference := next, lfsr := Config.soundingNext m.lfsr }

/-- Whether a pass that starts is sampled (R406, R407). -/
def State.sampledStart (s : State) (e : EngineId) (c : ContextId) (a : ArrayId) : Bool :=
  let x := s.engine e
  let rate := s.act 0xA030 0 (groupOf e)
  s.ctxClass c != 0 && decide (rate ≤ 20) && (x.array (!a)).health == .inService &&
  decide ((Config.soundingNext (x.array a).lfsr).toNat % 2 ^ rate = 0)

/-- One pass of a start, on its array: `lead` is true for the pass of a pair that carries the pair's demand. -/
def State.beginPass (s : State) (e : EngineId) (c : ContextId) (r : Run) (l : ListEntry) (n : Nat) (pair carries : Bool)
    (a : ArrayId) (q : Pass) : State :=
  let x := s.engine e
  let p := x.part c
  let d := r.step.descriptor.toNat
  let dem := if carries then x.startDemand p d q pair else (0, 0)
  let sampled := s.sampledStart e c a && !q.paired
  let q1 := { q with started := n, origin := n, window := l.window, sampled }
  let m := (x.array a).begin q1 n (s.dutyOf (groupOf e)) (s.ctxClass c == 1) dem.1 dem.2 (passD (x.passOp p d q) (dK d))
  let x1 := x.setArray a m
  let o := x1.array (!a)
  let x2 := if sampled then x1.setArray (!a) { o with shadows := o.shadows ++
                [{ q1 with shadow := true, sampled := false, select := 1 + b2n (!a) }] } else x1
  let s1 := s.setEngine e x2
  if sampled then (s1.updEngine e (fun x => x.setCtx c ((x.ctx c).updRun r.serial (fun r => { r with shadowsLeft := r.shadowsLeft + 1 })))).soundingStat e a 0
  else s1

/-- The passes of a start leave the waiting list; those left of a Form 2 band stay on the array the band runs on (R181). -/
def Run.taken (r : Run) (set : List (ArrayId × Pass)) : Run :=
  let n := if set.any (fun q => q.2.paired) then 1 else set.length
  let bandArray := fun (t : Pass) => (set.find? (fun q => q.2.m == t.m && (t.kind == .first || t.kind == .second))).map (fun q => 1 + b2n q.1)
  { r with waiting := (r.waiting.drop n).map (fun t => match bandArray t with
      | some k => if t.twin ∨ t.paired then t else { t with select := k }
      | none => t) }

/-- A start takes place. -/
def State.startPasses (s : State) (e : EngineId) (c : ContextId) (r : Run) (l : ListEntry) (n : Nat)
    (set : List (ArrayId × Pass)) : State :=
  let s1 := s.updEngine e (fun x => x.setCtx c ((x.ctx c).updRun r.serial (fun r => r.taken set)))
  match set with
  | [(_, q)] =>
    if q.kind = .vectorTile then
      let next := fun (m : MatrixArray) => if s.ctxClass c = 1 then { m with nextInference := n + q.interval * 64 / Nat.max (s.dutyOf (groupOf e)) 1 } else m
      s1.updEngine e (fun x => { (x.setArray q.array (next (x.array q.array))) with vuPass := some { q with started := n, origin := n, window := l.window } })
    else s1.beginPass e c r l n false true q.array q
  | [(_, q), (_, t)] => (s1.beginPass e c r l n true true false q).beginPass e c r l n true false true t
  | _ => s1

/-- The batch of a step whose index list is out of range ends; what it has in flight still runs out, and what was fetched for the rest
is discarded (R143, R146, R173). -/
def State.badIndex (s : State) (e : EngineId) (c : ContextId) (r : Run) : State := s.cutRun e c r stInvalid

/-! ### OPEN windows (R83) -/

/-- The instance ring of an engine. -/
def State.instanceRing (s : State) (e : EngineId) : List InstanceId :=
  let have' := (contextRecs s.vers.active).filter (fun r => ctxClassOf r == 1 && !ctxProvider r && (partitionOf s.vers.active (ctxId r) e.toNat).isSome)
  ((List.range 1024).map (BitVec.ofNat 10)).filter (fun i => have'.any (fun r => ctxInstanceOf r == i))

/-- The oldest ready pass of a context: the first issued step with a pass that has not started (R83). -/
def EngineContext.ready (k : EngineContext) : Option Run := k.runs.find? (fun r => !r.waiting.isEmpty)

/-- The head pass of an instance on an engine: its context and step, the oldest batch first. -/
def State.headOf (s : State) (e : EngineId) (i : InstanceId) : Option (ContextId × Run) :=
  let cs := (contextRecs s.vers.active).filter (fun r => ctxClassOf r == 1 && !ctxProvider r && ctxInstanceOf r == i)
  let heads := cs.filterMap (fun r => let c : ContextId := BitVec.ofNat 10 (ctxId r); ((s.ectx e c).ready).map (fun q => (c, q)))
  heads.foldl (fun b q => match b with
    | none => some q
    | some w => if q.2.step.batch < w.2.step.batch then some q else b) none

def Engine.deficitOf (x : Engine) (i : InstanceId) : Int := (Tab.get 0 x.deficit i.toNat : Nat) - (Tab.get 0 x.debt i.toNat : Nat)
def Engine.setDeficit (x : Engine) (i : InstanceId) (v : Int) : Engine :=
  { x with deficit := Tab.set 0 x.deficit i.toNat v.toNat, debt := Tab.set 0 x.debt i.toNat (-v).toNat }
def Engine.setStale (x : Engine) (i : InstanceId) (b : Bool) : Engine := { x with stale := Tab.set false x.stale i.toNat b }

/-- What a choice of a pass comes to. -/
inductive Choice where
  | nothing
  | start (c : ContextId) (r : Run) (set : List (ArrayId × Pass))
  | bad (c : ContextId) (r : Run)

/-- The deficit round robin at a cycle: at most two full turns of the ring (R83). (DEDUCED, assumption 23) (DEDUCED, assumption 24) -/
def State.roundRobin (s : State) (e : EngineId) (l : ListEntry) (n : Nat) (a : ArrayId) (ring : List InstanceId) : Nat → State × Choice
  | 0 => (s, .nothing)
  | fuel + 1 =>
    let x := s.engine e
    match ring[x.cursor % Nat.max ring.length 1]? with
    | none => (s, .nothing)
    | some i =>
      let on := fun (x : Engine) => { x with cursor := (x.cursor + 1) % ring.length }
      match s.headOf e i with
      | none => (s.setEngine e (on ((x.setDeficit i 0).setStale i false))).roundRobin e l n a ring fuel
      | some (c, r) =>
        let w := bits (s.act 0x3020 0 i.toNat) 49 42
        let cap : Int := 2 * w * 2048
        let fresh := !Tab.get false x.stale i.toNat
        let v := if fresh then min (x.deficitOf i + w * 2048) cap else x.deficitOf i
        let x1 := (x.setDeficit i v).setStale i true
        let set := s.startSet e c r a
        let cost : Int := (set.foldl (fun t q => t + q.2.cycles) 0 : Nat)
        if s.startIndexGood e c r set = false then (s.setEngine e x1, .bad c r)
        else if (cost ≤ v ∨ v = cap) ∧ s.mayStartSet e c r l n a set then (s.setEngine e (x1.setDeficit i (v - cost)), .start c r set)
        else (s.setEngine e (on (x1.setStale i false))).roundRobin e l n a ring fuel

/-- The pass that starts in a window on an array at a cycle: of the owner, in order, or by the round robin (R75, R83). -/
def State.choose (s : State) (e : EngineId) (l : ListEntry) (n : Nat) (a : ArrayId) : State × Choice :=
  if winOwner l.win = ownerOpen then
    let ring := s.instanceRing e
    let x := s.engine e
    let m := x.array a
    -- the loop runs once on each cycle on which the array is free
    if m.health ≠ .inService ∨ n < m.freeAt ∨ n < m.turn then (s, .nothing)
    else (s.setEngine e (x.setArray a { m with turn := n + 1 })).roundRobin e l n a ring (2 * ring.length)
  else if winOwner l.win = ownerService then (s, .nothing)
  else
    let c : ContextId := BitVec.ofNat 10 (winOwner l.win)
    match (s.ectx e c).ready with
    | none => (s, .nothing)
    | some r =>
      let set := s.startSet e c r a
      if s.startIndexGood e c r set = false then (s, .bad c r)
      else if s.mayStartSet e c r l n a set then (s, .start c r set)
      else (s, .nothing)

/-! ### PASS_START (R78) -/

/-- The operands of the passes whose turn it is are checked as they are read (R128, R148). -/
def State.checkHeads (s : State) (e : EngineId) (l : ListEntry) (a : ArrayId) : State :=
  (s.admitted e l.win).foldl (fun s c =>
    match (s.ectx e c).ready with
    | none => s
    | some r =>
      let x := s.engine e
      s.readChecked e c ((s.startSet e c r a).flatMap (fun q => x.passReads (x.part c) r.step.descriptor.toNat q.2))) s

/-! ### Why a slot has no pass (R447) -/

/-- The start conditions in the order of R447's table, each with the place of its reason, as a candidate meets them. -/
def State.startTests (s : State) (e : EngineId) (c : ContextId) (r : Run) (l : ListEntry) (n : Nat) (a : ArrayId) : List (Bool × Nat) :=
  let x := s.engine e
  let p := x.part c
  let d := r.step.descriptor.toNat
  let set := s.startSet e c r a
  let vector := set.any (fun q => q.2.kind == .vectorTile)
  let demand := match set with | q :: _ => (x.startDemand p d q.2 (decide (1 < set.length))).1 | [] => 0
  let i := (s.ctxInst c).getD 0
  let cost : Int := (set.foldl (fun t q => t + q.2.cycles) 0 : Nat)
  let paid := decide (winOwner l.win ≠ ownerOpen ∨ cost ≤ x.deficitOf i ∨ x.deficitOf i = 2 * bits (s.act 0x3020 0 i.toNat) 49 42 * 2048)
  [(set.all (fun q => (x.tokensOf p d q.2).all (fun t => r.tokens.contains t || r.emptyTiles.contains t)), acNoToken),
   (set.all (fun q => x.chainReady p c r q.2 && decide (x.inputsReadyAt p c r q.2 ≤ n) && !x.passBad p d q.2), acDependency),
   (vector || set.all (fun q => (x.array q.1).modeOpen q.2), acPipeline),
   (decide (s.demandAt e n + demand ≤ demandLimit96) && (vector || set.all (fun q => s.arrayOpen e l n q.1)), acDemand),
   (if vector then x.vuPass.isNone && x.vu.tilePass.isNone else set.all (fun q => (x.array q.1).drains.isEmpty), acDrain),
   (paid && set.all (fun q => l.fits q.2.cycles n), acNoFit),
   (s.ctxClass c != 1 || (decide (s.dutyOf (groupOf e) ≠ 0) && set.all (fun q => decide ((x.array q.1).nextInference ≤ n))), acThrottle)]

/-- The tests of a candidate that come before the first one failed, and that one's reason. -/
def firstFailed (tests : List (Bool × Nat)) : Nat × Nat :=
  ((tests.takeWhile (·.1)).length, ((tests.find? (fun t => !t.1)).map (·.2)).getD acNoStep)

/-- The reason of a slot: no window, no step, or the first test failed by the candidate that passes the most (R447). The candidates are the
passes whose turn it is, of the contexts that the window admits, where ArraySelect allows the array. (DEDUCED, assumption 143) -/
def State.slotReason (s : State) (e : EngineId) (a : ArrayId) (n : Nat) : Nat × Option ContextId :=
  match s.openWindow (engineUnit e) with
  | none => (acNoWindow, none)
  | some l =>
    let candidates := (s.admitted e l.win).filterMap (fun c =>
      ((s.ectx e c).ready).bind (fun r => match r.waiting with
        | q :: _ => if q.kind ≠ .vectorTile ∧ (q.select = 0 ∨ q.select = 1 + b2n a ∨ 1 < (s.startSet e c r a).length) then
                      some (firstFailed (s.startTests e c r l n a), c) else none
        | [] => none))
    if (s.admitted e l.win).isEmpty then (acNoWindow, none)
    else (candidates.foldl (fun b t => if b.1 < t.1.1 + 1 then (t.1.1 + 1, t.1.2, some t.2) else b) (0, acNoStep, none)).2

/-- A waiting pass starts on cycle n of the window if it meets every condition; otherwise it waits, and the slot has a reason. -/
def effPassStart (e : EngineId) (a : ArrayId) (n : Nat) (s : State) : State :=
  match s.openWindow (engineUnit e) with
  | none => s
  | some l =>
    if s.mayStart = false ∨ s.engineStopped e ∨ s.chr.gated.getLsbD (groupOf e) ∨ s.lateWaits e then s
    else
      match s.choose e l n a with
      | (s1, .nothing) => (s1.checkHeads e l a).countIdle e a (n + 1) (s.slotReason e a n).1 (s.slotReason e a n).2
      | (s1, .bad c r) => s1.badIndex e c r
      | (s1, .start c r set) =>
        if (s1.engine e).pairsGood ((s1.engine e).part c) r.step.descriptor.toNat then
          set.foldl (fun s q => s.countPass e n q.1 q.2) (s1.startPasses e c r l n set) else s1.mooringFault e c

/-- PASS_START (R78). -/
def execPassStart (engine : EngineId) (array : ArrayId) (cycle : BitVec 40) (s : State) : Host.Outcome State Fault Refusal :=
  .next (effPassStart engine array cycle.toNat s)

/-! ### PASS_COMMIT (R106, R408, R411) -/

/-- The counters of a committed pass that is retired (R446, R449). -/
def State.retire (s : State) (e : EngineId) (a : ArrayId) (p d : Nat) (q : Pass) (stream sats : Nat) : State :=
  let x := s.engine e
  let sh := x.shape p d q
  let skipped := if q.kind = .second then 0 else skippedColumns (dK d) (x.keptColumns p d q)
  (((((s.countSlots e a acRetired stream q.context).progEngine e q.context 0x05 1 none).countArrayCtr e a acCommitted 1).countArrayCtr e a acMacs
    (sh.rows * sh.cols * x.passK p d q)).countArrayCtr e a acSaturations sats).countArrayCtr e a acSkipped skipped

/-- A tile goes to the drain bank of its array. -/
def State.drainTile (s : State) (e : EngineId) (a : ArrayId) (t : DrainTile) : State :=
  s.updEngine e (fun x => let m := x.array a; x.setArray a { m with drains := m.drains ++ [t] })

/-- The second half of a paired pass is there: the results are compared (R411). -/
def State.comparePaired (s : State) (e : EngineId) (c : ContextId) (p d : Nat) (mineA mineB : DrainTile) (op stream sats : Nat) : State :=
  let note := fun (s : State) (f : Run → Run) => s.updEngine e (fun x => x.setCtx c ((x.ctx c).updRun mineA.pass.serial f))
  let event : EventSpec := { area := 0xA0, kind := 0x31, unit := engineUnit e, ctx := some c,
                             detail := mismatchDetail op mineA.rows mineB.rows 0 false }
  let q := mineA.pass
  if mineA.rows = mineB.rows then
    -- an array whose first result differs from the agreed one is counted
    let first := fun (a : ArrayId) => ((s.engine e).array a).pairHold
    let s1 := (s.retire e false p d q stream sats).countSlots e true acPaired stream c
    let s2 := [false, true].foldl (fun s a => match first a with
      | some t => let s' := if t.rows ≠ mineA.rows then s.countArray e a else s
                  s'.updEngine e (fun x => let m := x.array a; x.setArray a { m with pairHold := none })
      | none => s) s1
    s2.drainTile e false { mineA with pass := { q with paired := false } }
  else if ((s.engine e).array false).pairHold.isNone then
    -- the pair runs again, once; the first results are kept to be judged
    let again := fun (a : ArrayId) (t : DrainTile) (s : State) => s.updEngine e (fun x =>
      let m := x.array a
      x.setArray a { m with pairHold := some t, reruns := insertPass t.pass m.reruns })
    let s1 := (again true mineB (again false mineA s)).raise event
    let s2 := ((s1.countSlots e false acAbandoned stream c).countSlots e true acAbandoned stream c).raise
      { area := 0xA0, kind := 0x04, unit := engineUnit e, ctx := some c }
    note s2 (fun r => { r with statuses := r.statuses ++ [stRerun] })
  else
    let s1 := ((s.raise event).countArray e false).countArray e true
    let s2 := s1.updEngine e (fun x =>
      let y := x.setArray false { x.array false with pairHold := none }
      y.setArray true { y.array true with pairHold := none })
    let s3 := (s2.countSlots e false acAbandoned stream c).countSlots e true acAbandoned stream c
    note (s3.updEngine e (fun x => x.poison (x.part c) (dOut ((x.ctx c).runs.find? (fun r => r.serial == q.serial)
        |>.map (fun r => r.step.descriptor.toNat) |>.getD 0))))
      (fun r => { r with statuses := r.statuses ++ [stDataLost], chainLeft := r.chainLeft - 1, tilesDone := r.tilesDone ++ [q.key] })

/-- What becomes of a committed result: a shadow's is compared, a paired one waits for its partner, any other goes to the drain;
a sampled one is kept for its shadow as well (R106, R408, R411). -/
def State.settlePass (s : State) (e : EngineId) (a : ArrayId) (p d : Nat) (t : DrainTile) (sats stream : Nat)
    (truth : List (List W32)) : State :=
  let c := t.pass.context
  let op := (s.engine e).opOf p d t.pass
  let partner := fun (u : DrainTile) => u.pass.context == c && u.pass.serial == t.pass.serial && u.pass.key == t.pass.key
  if t.pass.shadow then
    let s1 := s.countSlots e a acSounding stream c
    match (s1.engine e).soundings.find? partner with
    | some u => s1.compareSounding e u t op stream truth
    | none => s1.updEngine e (fun x => { x with soundings := x.soundings ++ [t] })
  else if t.pass.paired then
    -- the other half of the pair waits in the engine's comparison list
    match (s.engine e).soundings.find? partner with
    | some u =>
      let s1 := s.updEngine e (fun x => { x with soundings := x.soundings.filter (fun v => !partner v) })
      if a then s1.comparePaired e c p d u t op stream sats else s1.comparePaired e c p d t u op stream sats
    | none => s.updEngine e (fun x => { x with soundings := x.soundings ++ [t] })
  else
    let s1 := (s.retire e a p d t.pass stream sats).drainTile e a t
    if t.pass.sampled = false then s1
    else
      match (s1.engine e).soundings.find? partner with
      | some u => s1.compareSounding e t u op stream truth
      | none => s1.updEngine e (fun x => { x with soundings := x.soundings ++ [t] })

/-- A late pass that commits carries WINDOW_OVERRUN, and the island goes on when none is left (R82). -/
def State.noteLate (s : State) (e : EngineId) (q : Pass) : State :=
  if q.late = false then s
  else
    let s1 := s.updEngine e (fun x => x.setCtx q.context ((x.ctx q.context).updRun q.serial (fun r => { r with statuses := r.statuses ++ [stOverrun] })))
    let u := engineUnit e
    s1.setIsland u { s1.island u with waitsForLate := (s1.engine e).anyLate && (s1.island u).waitsForLate }

/-- The oldest pass in flight on an array commits (R106, R107). -/
def effPassCommit (e : EngineId) (a : ArrayId) (error : Option (BitVec 12 × BitVec 9 × W32)) (s : State) : State :=
  let x := s.engine e
  let m := x.array a
  match m.flight with
  | [] => s
  | q :: rest =>
    let c := q.context
    let x1 := (x.setArray a { m with flight := rest }).noteScrubs
    let p := x.part c
    match (x.ctx c).runs.find? (fun r => r.serial == q.serial) with
    | none => ((s.setEngine e x1).noteLate e q).countSlots e a acDiscarded q.stream c
    | some r =>
      let d := r.step.descriptor.toNat
      let stream := q.stream
      if q.discard then ((s.setEngine e x1).noteLate e q).countSlots e a acDiscarded stream c
      else
        let y := x.accumulate p d q
        let t : DrainTile := { pass := q, integer := (x.shape p d q).integer, rows := alter y.1 error }
        let s1 := ((s.setEngine e x1).settlePass e a p d t y.2 stream y.1).noteLate e q
        s1.updEngine e (fun x => x.returnTokens c q.serial)

/-- PASS_COMMIT (R106). -/
def execPassCommit (engine : EngineId) (array : ArrayId) (error : Option (BitVec 12 × BitVec 9 × BitVec 32)) (s : State) :
    Host.Outcome State Fault Refusal := .next (effPassCommit engine array error s)

/-! ### PASS_ABANDON and PASS_RERUN (R122) -/

/-- The passes that a fault abandons: a feeder's detect the pass whose operands are being read, which is the last started; any
other fault every pass in flight. -/
def abandoned (cause : AbandonCause) (flight : List Pass) : List Pass × List Pass :=
  match cause with
  | .feederParity => (flight.dropLast, flight.getLast?.toList)
  | _ => ([], flight)

/-- Passes are abandoned: their accumulators are discarded and they wait to re-run in their order. The pass whose operands a detected
line has already sent to re-run is not abandoned twice (R148). -/
def effPassAbandon (e : EngineId) (a : ArrayId) (cause : AbandonCause) (s : State) : State :=
  let x := s.engine e
  let m := x.array a
  let bad := fun (q : Pass) => match (x.ctx q.context).runs.find? (fun r => r.serial == q.serial) with
    | some r => x.passBad (x.part q.context) r.step.descriptor.toNat q
    | none => false
  if cause = .feederParity ∧ m.reruns.any bad then s else s.abandonPasses e a (abandoned cause m.flight).2

/-- PASS_ABANDON (R122). -/
def execPassAbandon (engine : EngineId) (array : ArrayId) (cause : AbandonCause) (s : State) : Host.Outcome State Fault Refusal :=
  .next (effPassAbandon engine array cause s)

/-- Take the first pass that waits to re-run for an array: its own, or the other array's when that one is out of service. -/
def Engine.takeRerun (x : Engine) (a : ArrayId) : Option (Pass × Engine) :=
  let m := x.array a
  let o := x.array (!a)
  match m.reruns with
  | q :: rest => if m.health = .inService then some (q, x.setArray a { m with reruns := rest }) else none
  | [] =>
    match o.reruns with
    | q :: rest => if o.health ≠ .inService ∧ m.health = .inService then some (q, x.setArray (!a) { o with reruns := rest }) else none
    | [] => none

/-- What a pass places on the feeders as it runs again, and its lead-in: nothing where its step has gone (R115). -/
def Engine.rerunDemand (x : Engine) (q : Pass) : Nat × Nat × Nat :=
  match (x.ctx q.context).runs.find? (fun r => r.serial == q.serial) with
  | none => (0, 0, 0)
  | some r =>
    let p := x.part q.context
    let d := r.step.descriptor.toNat
    let dem := x.startDemand p d q false
    (dem.1, dem.2, passD (x.passOp p d q) (dK d))

/-- The oldest abandoned pass starts again on a cycle: C cycles after its start, and the interval of the re-run before it, must
have passed; the pass of another mode before it must have committed, its demand must fit, and its operands must be whole again (R108,
R115, R122, R148). (DESIGN CHOICE, assumption 158) -/
def effPassRerun (e : EngineId) (a : ArrayId) (n : Nat) (s : State) : State :=
  let x := s.engine e
  match x.takeRerun a with
  | none => s
  | some (q, x1) =>
    let m := x1.array a
    let dem := x.rerunDemand q
    let reads := match (x.ctx q.context).runs.find? (fun r => r.serial == q.serial) with
      | some r => x.passReads (x.part q.context) r.step.descriptor.toNat q
      | none => []
    if s.noWork ∨ s.engineStopped e ∨ ((n : Nat) : Int) < q.origin + (q.cycles : Int) ∨ n < (x.array a).freeAt ∨
       (m.flight.isEmpty = false ∧ m.lastMode ≠ q.mode) ∨ demandLimit96 < s.demandAt e n + dem.1 then s
    else if (x.firstBad reads).isSome then s.readChecked e q.context reads
    else
      let x2 := x1.setArray a (m.load { q with started := n, select := 1 + b2n a } n dem.1 dem.2.1 dem.2.2)
      (((s.setEngine e x2).countPass e n a q).countEngine e 13 1).raise { area := 0x40, kind := 0x04, unit := engineUnit e, ctx := some q.context }

/-- PASS_RERUN (R122). -/
def execPassRerun (engine : EngineId) (array : ArrayId) (cycle : BitVec 40) (s : State) : Host.Outcome State Fault Refusal :=
  .next (effPassRerun engine array cycle.toNat s)

/-! ### SOUNDING_SHADOW (R407) -/

/-- The oldest shadow of an array starts, if a window admits its context and it fits; groups below full duty start none (R442). -/
def effSoundingShadow (e : EngineId) (a : ArrayId) (n : Nat) (s : State) : State :=
  let x := s.engine e
  let m := x.array a
  match m.shadows, s.openWindow (engineUnit e) with
  | q :: rest, some l =>
    if m.health ≠ .inService then
      -- the other array has left service: the pass is not shadowed
      let x1 := x.setArray a { m with shadows := rest }
      s.setEngine e ({ x1 with soundings := x1.soundings.filter (fun t => !(t.pass.context == q.context && t.pass.serial == q.serial && t.pass.key == q.key)) }.setCtx
        q.context ((x1.ctx q.context).updRun q.serial (fun r => { r with shadowsLeft := r.shadowsLeft - 1 })))
    else
      match (x.ctx q.context).runs.find? (fun r => r.serial == q.serial) with
      | none => s.setEngine e (x.setArray a { m with shadows := rest })
      | some r =>
        let p := x.part q.context
        let d := r.step.descriptor.toNat
        let dem := x.startDemand p d q false
        if s.mayStart = false ∨ s.engineStopped e ∨ s.dutyOf (groupOf e) ≠ 64 ∨ (s.admitted e l.win).contains q.context = false ∨
           l.fits q.cycles n = false ∨ n < m.freeAt ∨ m.reruns.isEmpty = false ∨ m.drains.isEmpty = false ∨
           (m.flight.isEmpty = false ∧ m.lastMode ≠ q.mode) ∨ demandLimit96 < s.demandAt e n + dem.1 ∨ x.passBad p d q ∨
           s.lateWaits e then s
        else
          let m1 := { m with shadows := rest }.begin { q with started := n, origin := n, window := l.window } n 64 false dem.1 dem.2
            (passD (x.passOp p d q) (dK d))
          (s.setEngine e (x.setArray a m1)).countPass e n a q
  | _, _ => s

/-- SOUNDING_SHADOW (R407). -/
def execSoundingShadow (engine : EngineId) (array : ArrayId) (cycle : BitVec 40) (s : State) : Host.Outcome State Fault Refusal :=
  .next (effSoundingShadow engine array cycle.toNat s)

end Sys2Proof.Machine
end

