-- ==== Sys2Proof/Machine/Chains.lean ====
section
/-!
DEFINITION. Chain work: a tile brought into the vector unit, its stages one by one or all together, held bands, chained
products, occupancy, and the output written (R156 to R167, R175 to R182, R187, R471, R475, R477, R478).
-/

namespace Sys2Proof.Machine

/-! ### The stages a tile passes through -/

/-- The stages of a pass's tile: list 1, or of a held chain those before its whole-row stage; of a second product MERGE, with
the rest of list 2 at the last key block (R159, R177, R180). -/
def Engine.stagesOf (x : Engine) (p d : Nat) (q : Pass) : List Nat :=
  match x.header p d with
  | none => []
  | some h =>
    if q.kind = .second then (if q.n + 1 = tilesN d then x.list2 p d else (x.list2 p d).take 1)
    else if hHeld h then (splitStages (x.list1 p d)).1
    else x.list1 p d

/-- What chain work changes: the engine, the step's progress, the tile with its first column, a QUANT's codes and scales, the
saturations counted, and the cycles the vector unit is busy. -/
structure Work where
  x : Engine
  r : Run
  tile : List (List W32)
  col0 : Nat
  codes : List (List Nat) := []
  scales : List (List Byte) := []
  sats : Nat := 0
  busy : Nat := 0

/-! ### Chained products (R180 to R182) -/

/-- Bytes from the start of the hold buffer to the statistics of a pass's band: a twin issue's odd band has the second area. -/
def holdArea (d h : Nat) (q : Pass) : Nat :=
  if aTwin (dArrayOp d) ∧ q.m % 2 = 1 then 64 * (ceilDiv (dM d * hN2 h * 4) 64 + 4) else 0

/-- The byte of the hold buffer's first line. -/
def Engine.holdBase (x : Engine) (p h : Nat) : Nat := rowAddr p (x.entry p (hHold h)) 0 0 0

/-- One 4-byte word of the scratchpad. -/
def Engine.word32 (x : Engine) (addr : Nat) : W32 := BitVec.ofNat 32 (ofLeBytes (Tab.readBytes x.scratch addr 4))

/-- ONLINE on a tile of the first product: statistics, the factors α, and P written in ArrayOp2's FormatA. -/
def Work.online (k : Work) (p d h : Nat) (q : Pass) (w : Nat) : Work :=
  let base := k.x.holdBase p h + holdArea d h q
  let scale := if bit (sParam w) 0 then some (hConst h (sConstA w)) else none
  let ent := k.x.entry p (hP h)
  let f := aFormatA (hArrayOp2 h)
  let row0 := if aTwin (dArrayOp d) then q.m % 2 * dM d else 0
  (k.tile.zipIdx).foldl (fun k r =>
    let i := r.2
    let m := if q.n = 0 then negInf32 else k.x.word32 (base + 4 * i)
    let l := if q.n = 0 then 0 else k.x.word32 (base + 128 + 4 * i)
    let mask := if bit (sParam w) 1 then some (hConst h (sConstB w), q.n * dN d, q.m * dM d + i) else none
    let y := onlineRow scale mask m l r.1
    let codes := y.1.map (fun v => convertOut f (sSat w) v)
    let x1 := (k.x.writeBytes (base + 4 * i) (leBytes 4 y.2.1.toNat)).writeBytes (base + 128 + 4 * i) (leBytes 4 y.2.2.1.toNat)
    let x2 := x1.putElems (rowAddr p ent 0 (row0 + i) (row0 + i)) 0 (elemBits f) (codes.map (·.1))
    let vu := { x2.vu with runMax := Tab.set 0 x2.vu.runMax (32 * b2n q.array + i) y.2.1, runSum := Tab.set 0 x2.vu.runSum (32 * b2n q.array + i) y.2.2.1 }
    { k with x := { x2 with vu }, r := { k.r with alpha := Tab.set 0 k.r.alpha (32 * q.m + i) y.2.2.2 },
             sats := k.sats + (codes.map (·.2)).foldl (· + ·) 0 }) k

/-- MERGE on a tile of the second product: O corrected by α and added to; at the last key block the tile becomes O over l, else
O goes back to the hold. (DEDUCED, assumption 47) -/
def Work.merge (k : Work) (p d h : Nat) (q : Pass) (w : Nat) : Work :=
  let base := k.x.holdBase p h + holdArea d h q
  let last := decide (q.n + 1 = tilesN d)
  let n2 := hN2 h
  let rows := (k.tile.zipIdx).map (fun r =>
    let i := r.2
    let os := (List.range n2).map (fun c => if q.n = 0 then (0 : W32) else k.x.word32 (base + 256 + 4 * (i * n2 + c)))
    let l := k.x.word32 (base + 128 + 4 * i)
    mergeRow (Tab.get 0 k.r.alpha (32 * q.m + i)) (if last then some l else none) os r.1)
  if last then let y := roundTile h w rows; { k with tile := y.1, sats := k.sats + y.2 }
  else
    { k with tile := rows, x := (rows.zipIdx).foldl (fun x r =>
        x.writeBytes (base + 256 + 4 * (r.2 * n2)) (r.1.flatMap (fun v => leBytes 4 v.toNat))) k.x }

/-! ### One stage, and a list of them -/

/-- One stage on the tile in the vector unit (R162). -/
def Work.stage (k : Work) (p d h : Nat) (q : Pass) (w : Nat) : Work :=
  if sOp w = stOnline then k.online p d h q w
  else if sOp w = stMerge then k.merge p d h q w
  else
    let v : Env := { x := k.x, p, d, h, q, col0 := k.col0 }
    let y := v.stage w k.tile
    { k with tile := y.tile, col0 := y.col0, codes := y.codes, scales := y.scales, sats := k.sats + y.sats }

/-- Stages one after another. -/
def Work.stages (k : Work) (p d h : Nat) (q : Pass) (ws : List Nat) : Work := ws.foldl (fun k w => k.stage p d h q w) k

/-- The element codes a tile is stored with, after the last stage's own conversion or the final one (R163, R164, R471). -/
def Work.output (k : Work) (format : Nat) (ws : List Nat) : Work :=
  let st : Staged := { tile := k.tile, col0 := k.col0, codes := k.codes, scales := k.scales }
  let y := st.output format ws
  { k with codes := y.1, sats := k.sats + y.2 }

/-! ### The tile's output (R176, R478) -/

/-- Whether a stored element code is a zero of either sign. -/
def zeroCode (f c : Nat) : Bool :=
  match floatOf f with
  | some _ => c % 2 ^ (elemBits f - 1) == 0
  | none => c == 0

/-- The columns a tile's output takes in the step's output. (DEDUCED, assumption 45) -/
def Engine.outStart (x : Engine) (p d n : Nat) : Nat := if x.form2 p d then 0 else x.outColumns p d (n * dN d)
def Engine.outWidth (x : Engine) (p d n : Nat) : Nat :=
  match x.header p d with
  | some h => if hForm h = 2 then x.outColumns p d 0 else x.outColumns p d (min (dN d) (dStepN d - n * dN d))
  | none => min (dN d) (dStepN d - n * dN d)

/-- The slot count j of a streamed output's tile, and its tile index t (R478). -/
def Engine.outIndex (x : Engine) (p d : Nat) (q : Pass) : Nat × Nat :=
  if x.form2 p d then (q.m, q.m * tilesN d) else (q.ordinal, q.m * tilesN d + q.n)

/-- Whether the slot a streamed output's tile goes to still has writes outstanding, or a tile that is still to be sent. -/
def Engine.outBlocked (x : Engine) (p : Nat) (r : Run) (q : Pass) : Bool :=
  let d := r.step.descriptor.toNat
  let e := x.entry p (dOut d)
  let j := (x.outIndex p d q).1
  let a := rowAddr p e j 0 0
  mStreamed e && (r.sends.any (fun v => v.2.live && (match x.owedTile p d v.1 v.2.next with
      | some t => decide (t + mSlots e ≤ j) && !v.2.active
      | none => false)) ||
    (r.writes ++ r.writing).any (fun w => decide (a ≤ w.start ∧ w.start < a + 64 * (mSize e / mSlots e))))

/-- Write-behind of a streamed output's tile: its rows to the tile's backing rows (R144, R478). -/
def behindWrites (p e d j t : Nat) (m : Nat) (g : W16) : List TenderWrite :=
  (List.range (min (mRows e) (min (dM d) (dStepM d - m * dM d)))).flatMap (fun i => (List.range (mPitch e)).map (fun l =>
    { start := rowAddr p e j 0 i + 64 * l, kind := BitVec.ofNat 2 (mBacking e),
      target := BitVec.ofNat 64 (mBackingAddress e + (t * mRows e + i) * mBP e + 64 * l), bytes := 64, poison := false, generation := g }))

/-- The key of a tile of a held band: a PRODUCT's is its pass's; a VECTOR band's tiles have keys of their own, odd ones. -/
def heldKey (d : Nat) (q : Pass) : Nat := if dOp d = opVector then 2 * q.ordinal + 1 else q.key

/-- The tiles of a step's output, each with the key its being written is noted under: one to a band of a Form 2 chain, whose last second
product writes it. -/
def Engine.outputTiles (x : Engine) (p : Nat) (c : ContextId) (r : Run) : List (Pass × Nat) :=
  let d := r.step.descriptor.toNat
  let held : Bool := match x.header p d with | some h => hHeld h | none => false
  if dOp d = opVector ∧ held then
    (List.range (tilesM d * tilesN d)).map (fun t =>
      let q : Pass := { context := c, serial := r.serial, kind := .vectorTile, m := t / tilesN d, n := t % tilesN d, ordinal := t }
      (q, heldKey d q))
  else ((x.stepPasses p d c r.serial).filter (fun q => !x.form2 p d || (q.kind == .second && decide (q.n + 1 = tilesN d)))).map (fun q => (q, q.key))

/-- Whether an earlier tile of the step has written part of a block of the occupancy map. -/
def Engine.blockBegun (x : Engine) (p : Nat) (c : ContextId) (r : Run) (height a b : Nat) : Bool :=
  let d := r.step.descriptor.toNat
  (x.outputTiles p c r).any (fun t => r.tilesDone.contains t.2 &&
    overlaps (t.1.m * dM d) (dM d) (a * height) height && overlaps (x.outStart p d t.1.n) (x.outWidth p d t.1.n) (32 * b) 32)

/-- The bits of the occupancy map a tile settles (R176). -/
def Engine.writeOccupancy (x : Engine) (p : Nat) (c : ContextId) (r : Run) (h row0 col0 : Nat) (codes : List (List Nat)) : Engine :=
  if hOccupancy h = false then x
  else
    let d := r.step.descriptor.toNat
    let f := mFormat (x.entry p (dOut d))
    let height := hOccHeight h
    let e := x.entry p (hOcc h)
    let width := (codes.headD []).length
    let rowsA := (List.range (ceilDiv (row0 % height + codes.length) height)).map (fun t => row0 / height + t)
    let colsB := (List.range (ceilDiv (col0 % 32 + width) 32)).map (fun t => col0 / 32 + t)
    rowsA.foldl (fun x a => colsB.foldl (fun x b =>
      let some' := (codes.zipIdx row0).any (fun q => decide (q.2 / height = a) && (q.1.zipIdx col0).any (fun v => decide (v.2 / 32 = b) && !zeroCode f v.1))
      let addr := rowAddr p e 0 a a
      let old := x.blockBegun p c r height a b && x.elem addr b 1 == 1
      x.putElems addr b 1 [b2n (some' || old)]) x) x

/-- Write a finished tile: its codes, its scales, its occupancy bits and its write-behind, and count it done (R164, R165,
R176). -/
def Work.write (k : Work) (p : Nat) (c : ContextId) (q : Pass) (key : Nat) : Work :=
  let x := k.x
  let d := k.r.step.descriptor.toNat
  let h := (x.header p d).getD 0
  let e := x.entry p (dOut d)
  let ji := x.outIndex p d q
  let str := mStreamed e
  let row0 := q.m * dM d
  let col0 := x.outStart p d q.n
  let eb := elemBits (mFormat e)
  let x1 := (k.codes.zipIdx).foldl (fun x r => x.putElems (rowAddr p e ji.1 (row0 + r.2) r.2) (if str then 0 else col0) eb r.1) x
  let plane := x.entry p (mAux e)
  let x2 := if mAux e = noHandle then x1 else
    (k.scales.zipIdx).foldl (fun x r => if r.1.isEmpty then x else
      let at' := if isMx (mFormat e) ∧ ¬ mStreamed plane then col0 / 32 else 0
      x.writeBytes (rowAddr p plane ji.1 (row0 + r.2) r.2 + at') r.1) x1
  let x3 := x2.writeOccupancy p c k.r h row0 col0 k.codes
  let behind := if str ∧ k.r.again = false then behindWrites p e d ji.1 ji.2 q.m k.r.step.generation else []
  let r1 := if k.r.tilesDone.contains key then k.r
            else { k.r with tilesDone := k.r.tilesDone ++ [key], chainLeft := k.r.chainLeft - 1 }
  { k with x := x3, r := { r1 with writes := r1.writes ++ behind } }

/-! ### Bringing a tile in (R153, R159) -/

/-- An element of a buffer of an integer format, as INT32 bits. -/
def Engine.valueInt (x : Engine) (p e row within col : Nat) (j : Nat) : W32 :=
  let w := elemBits (mFormat e)
  BitVec.ofInt 32 (toSigned w (x.elem (rowAddr p e j row within) col w))

/-- Whether a step's chain is a vector program. -/
def Engine.runsProgram (x : Engine) (p d : Nat) : Bool := match x.header p d with | some h => hForm h == 1 | none => false

/-- The values of a VECTOR tile, read from HandleA through the row list and converted exactly to FP32; integers arrive at a program as
INT32 bits (R159, R168, R187). -/
def Engine.vectorTile (x : Engine) (p d : Nat) (q : Pass) : List (List W32) :=
  let e := x.entry p (dA d)
  let value := if x.runsProgram p d && (isInt (mFormat e) || mFormat e == 10) then x.valueInt else x.value32
  (List.range (tileRows d q)).map (fun i =>
    match x.gatheredRow p d (q.m * dM d + i) with
    | none => (List.range (tileCols d q)).map (fun _ => (0 : W32))
    | some r =>
      let within := if dIndex d = noHandle then i else r
      (List.range (tileCols d q)).map (fun j =>
        value p e r within (if mStreamed e then j else q.n * dN d + j) (fetchIndex d .tile q)))

/-- A tile in, or about to enter, the vector unit: where it comes from (an array's drain, or the VECTOR tile in progress), the
pass, its values, first column, and how many stages it has passed. -/
structure TileIn where
  fromDrain : Option ArrayId
  pass : Pass
  tile : List (List W32)
  integer : Bool
  col0 : Nat
  stagesDone : Nat
  codes : List (List Nat)
  scales : List (List Byte)

/-- Whether a step's epilogue only converts, which the drain path does beside the chain work of other passes (R123, R153, R157). -/
def Engine.convertOnly (x : Engine) (p d : Nat) : Bool :=
  match x.header p d with
  | none => true
  | some h => hForm h == 0 && hCount h == 0 && !hHeld h

/-- The descriptor of the step a pass belongs to, with its context's partition. -/
def Engine.stepOf (x : Engine) (q : Pass) : Option (Nat × Nat) :=
  ((x.ctx q.context).runs.find? (fun r => r.serial == q.serial)).map (fun r => (x.part q.context, r.step.descriptor.toNat))

/-- Whether a drained tile goes through the drain path alone. -/
def Engine.drainOnly (x : Engine) (t : DrainTile) : Bool :=
  match x.stepOf t.pass with | some k => x.convertOnly k.1 k.2 | none => true

/-- Whether the tile at the head of a drain bank has its turn: its pass committed before that of the other bank's, A first where both
committed together (R153, R181). -/
def Engine.drainTurn (x : Engine) (a : ArrayId) (t : DrainTile) : Bool :=
  match (x.array (!a)).drains.find? (fun u => !x.drainOnly u) with
  | none => true
  | some u => decide (t.pass.started + (t.pass.cycles : Int) < u.pass.started + u.pass.cycles) ||
      (decide (t.pass.started + (t.pass.cycles : Int) = u.pass.started + u.pass.cycles) && !a)

/-- A tile at the head of a drain bank as it enters. -/
def Engine.drained (x : Engine) (a : ArrayId) (t : DrainTile) : TileIn :=
  let first := match x.stepOf t.pass with | some k => t.pass.n * dN k.2 | none => 0
  { fromDrain := some a, pass := t.pass, tile := t.rows, integer := t.integer, col0 := if t.pass.kind = .second then 0 else first,
    stagesDone := 0, codes := [], scales := [] }

/-- The tile whose chain work is next: one that only converts, at the head of the bank; else the one in the vector unit, else the VECTOR
tile that has started, else the oldest tile of the bank, in the order in which the passes of both banks committed (R153). -/
def Engine.tileIn (x : Engine) (a : ArrayId) : Option TileIn :=
  match (x.array a).drains.head?.filter (fun t => x.drainOnly t && decide (x.vu.tilePass ≠ some t.pass)) with
  | some t => some (x.drained a t)
  | none =>
    match x.vu.tilePass with
    | some q =>
      some { fromDrain := if q.kind = .vectorTile then none else some x.vu.tileArray, pass := q, tile := x.vu.tile, integer := false,
             col0 := x.vu.tileCol, stagesDone := x.vu.stagesDone, codes := x.vu.codes, scales := x.vu.scales }
    | none =>
      match x.vuPass with
      | some q =>
        let k := (x.stepOf q).getD (0, 0)
        some { fromDrain := none, pass := q, tile := if (x.stepOf q).isSome then x.vectorTile k.1 k.2 q else [], integer := false,
               col0 := q.n * dN k.2, stagesDone := 0, codes := [], scales := [] }
      | none => ((x.array a).drains.head?.filter (x.drainTurn a)).map (x.drained a)

/-- The tile as a stage list takes it: integer accumulators become FP32 (R159). -/
def TileIn.values (t : TileIn) : List (List W32) := if t.integer then t.tile.map (·.map ofInt32) else t.tile

/-- A tile leaves its drain bank, or the vector unit, for good; nothing of its chain stays in the vector unit (R154). -/
def Engine.dropTile (x : Engine) (t : TileIn) : Engine :=
  let own := x.vu.tilePass = some t.pass ∨ x.vu.tilePass.isNone
  let x1 := { x with vu := if own then x.vu.clear else x.vu }
  match t.fromDrain with
  | none => { x1 with vuPass := none }.noteScrubs
  | some a => let m := x1.array a; (x1.setArray a { m with drains := m.drains.drop 1 }).noteScrubs

/-- The pieces of a drained tile: one to a row, or one to a band of 128 columns of a folded tile's row (R159). -/
def tileCount (d : Nat) (q : Pass) : Nat := tileRows d q * (if q.kind = .second then 1 else ceilDiv (tileCols d q) 128)

/-- The cycle on which the chain work of a tile ends and its output is written: pieces enter as they drain, c cycles apart, once the
chain before has ended and the chain is loaded (R123, R158, R167, R172, R477). (DEDUCED, assumption 165) -/
def Engine.chainEnd (x : Engine) (p : Nat) (c : ContextId) (serial : W16) (d : Nat) (q : Pass) : Nat :=
  let commit := (q.started + (q.cycles : Int) - 1).toNat
  let n := tileCount d q
  if q.kind = .vectorTile then (q.started + (q.cycles : Int)).toNat
  else
    match x.header p d with
    | none => commit + 12
    | some h =>
      let free := x.vu.freeAt + (if x.vu.held.contains (c, serial) then 0 else loadCycles h)
      let ws := x.stagesOf p d q
      if hForm h = 1 then Nat.max (commit + 1) free + ceilDiv n 32 * programCycles (x.program p d)
      else if x.convertOnly p d then commit + 12 + 2 * b2n (hOccupancy h)
      else Nat.max commit (Nat.max (commit - (n - 1)) free + (n - 1) * chainCost ws) + 12 +
             chainLatency ws (hOccupancy h && !hHeld h) (decide (q.n + 1 = tilesN d))

/-- The cycle on which a held band is finished: its pieces are swept, and then pass through the stages that are left (R177). -/
def Engine.bandEnd (x : Engine) (p d h : Nat) (q : Pass) : Nat :=
  let sp := splitStages (x.list1 p d)
  let n := tileRows d q * ceilDiv ((columnsAfter sp.1 (dStepN d)).getD 0) 128
  x.vu.freeAt + n * (sp.2.head?.map sweepCycles).getD 0 + stageCycles sp.2 (hOccupancy h) n

/-- The cycle on which the first piece of a tile is there. -/
def chainBegins (d : Nat) (q : Pass) : Nat :=
  if q.kind = .vectorTile then q.started.toNat else (q.started + (q.cycles : Int) - 1).toNat - (tileCount d q - 1)

/-- Note when a tile's output is written; the vector unit is busy from its first piece, or the end of the chain before, until then, unless the
tile only passed the drain path. -/
def Work.timed (k : Work) (begins finish : Nat) (alone : Bool) : Work :=
  { k with r := { k.r with written := Nat.max k.r.written finish },
           busy := if alone then k.busy else k.busy + (finish - Nat.max begins k.x.vu.freeAt),
           x := if alone then k.x else { k.x with vu := { k.x.vu with freeAt := Nat.max k.x.vu.freeAt finish } } }

/-- The chain of a step is among the two the vector unit served last (R158). -/
def Engine.holdChain (x : Engine) (c : ContextId) (serial : W16) : Engine :=
  { x with vu := { x.vu with held := lastN 2 (x.vu.held.filter (fun q => !(q.1 == c && q.2 == serial)) ++ [(c, serial)]) } }

/-! ### Held mode (R177) -/

/-- Columns of a held band. -/
def Engine.holdColumns (x : Engine) (p d : Nat) : Nat := (columnsAfter (splitStages (x.list1 p d)).1 (dStepN d)).getD 0

/-- A tile that has passed the stages before the whole-row stage is written to the hold (R177). -/
def Work.hold (k : Work) (p d h : Nat) (q : Pass) : Work :=
  let f := heldFormat h (k.x.list1 p d)
  let width := k.x.holdColumns p d
  let base := k.x.holdBase p h
  let codes := k.tile.map (·.map (fun v => (convertOut f true v).1))
  let x1 := (codes.zipIdx).foldl (fun x r => x.putElems base (r.2 * width + k.col0) (elemBits f) r.1) k.x
  { k with x := x1, r := { k.r with heldTiles := k.r.heldTiles ++ [(q.m, q.n)] } }

/-- A row of the held band as FP32. -/
def Engine.heldRow (x : Engine) (p d h i : Nat) : List W32 :=
  let f := heldFormat h (x.list1 p d)
  let width := x.holdColumns p d
  (List.range width).map (fun j => let c := x.elem (x.holdBase p h) (i * width + j) (elemBits f)
                                   if f = 9 then BitVec.ofNat 32 c else pk32 (elemVal f false c))

/-- The stages from the whole-row stage on, over a whole band; then one of its tiles is cut out and written. The saturations of the band
count once. (DESIGN CHOICE, assumption 162) -/
def Work.finishTile (k : Work) (p : Nat) (c : ContextId) (d h : Nat) (q : Pass) (key : Nat) (counts : Bool) : Work :=
  let x := k.x
  let ws := (splitStages (x.list1 p d)).2
  let rows := (List.range (tileRows d q)).map (x.heldRow p d h)
  let band := { q with n := 0 }
  let y := ({ k with tile := rows, col0 := 0, codes := [], scales := [] }.stages p d h band ws).output (mFormat (x.entry p (dOut d))) ws
  let lo := x.outStart p d q.n
  let n := x.outWidth p d q.n
  let mx := isMx (mFormat (x.entry p (dOut d)))
  let z : Work := y
  { z with sats := if counts then z.sats else k.sats,
           codes := z.codes.map (fun (r : List Nat) => (r.drop lo).take n),
           scales := z.scales.map (fun (r : List Byte) => if mx then (r.drop (lo / 32)).take (ceilDiv n 32) else r) }.write p c q key

/-! ### TILE_CHAIN_WORK (R158, R167) -/

/-- The tiles of a held VECTOR band enter the hold one after another (R177, R477). -/
def Work.holdBand (k : Work) (p d h : Nat) (q : Pass) : Work :=
  (List.range (tilesN d)).foldl (fun k n =>
    let t := { q with n, ordinal := q.m * tilesN d + n }
    ({ k with tile := k.x.vectorTile p d t, col0 := n * dN d }.stages p d h t (k.x.stagesOf p d t)).hold p d h t) k

/-- The chain work of a tile, from the stages it has already passed to its output or its place in the hold. INT32 accumulators that are
only stored as INT32 keep their bits (R105, R188). -/
def Engine.chainWork (x : Engine) (p : Nat) (c : ContextId) (r : Run) (t : TileIn) : Work :=
  let d := r.step.descriptor.toNat
  let q := t.pass
  let ws := x.stagesOf p d q
  let k : Work := { x := x.holdChain c r.serial, r, tile := t.values, col0 := t.col0, codes := t.codes, scales := t.scales }
  let f := mFormat (x.entry p (dOut d))
  let bits' : Work := { k with codes := t.tile.map (fun (r : List W32) => r.map (·.toNat)) }
  match x.header p d with
  | none => if t.integer ∧ f = 10 then bits'.write p c q q.key else (k.output f []).write p c q q.key
  | some h =>
    if x.convertOnly p d ∧ t.integer ∧ f = 10 then bits'.write p c q q.key
    else if hHeld h ∧ q.kind = .vectorTile then k.holdBand p d h q
    else
      let k1 := k.stages p d h q (ws.drop t.stagesDone)
      if hHeld h then k1.hold p d h q
      else if hForm h = 2 ∧ (q.kind = .first ∨ q.n + 1 ≠ tilesN d) then
        { k1 with r := { k1.r with tilesDone := k1.r.tilesDone ++ [q.key], chainLeft := k1.r.chainLeft - 1 } }
      else (k1.output (mFormat (x.entry p (dOut d))) ws).write p c q q.key

/-- Settle chain work in the state: the step's progress, saturations, the unit's busy cycles, tokens, and a late VECTOR tile's overrun. -/
def State.settleWork (s : State) (e : EngineId) (c : ContextId) (q : Pass) (k : Work) : State :=
  let x := k.x.setCtx c ((k.x.ctx c).updRun k.r.serial (fun _ => k.r))
  let s1 := (s.setEngine e (x.returnTokens c k.r.serial)).countEngine e 9 k.sats |>.countEngine e 8 k.busy
  if q.kind = .vectorTile then s1.noteLate e q else s1

/-- The buffers a chain reads beside its tile: the chain's own, its column vectors, and a resident residual input. -/
def Engine.chainReads (x : Engine) (p d : Nat) : List (Nat × Nat) :=
  match x.header p d with
  | none => []
  | some h =>
    (([dChain d, hVec0 h, hVec1 h, if hResidual h = noHandle then dC d else hResidual h].filter (fun k =>
      handleOk p k && !mStreamed (x.entry p k))).eraseDups).map (fun k => (rowAddr p (x.entry p k) 0 0 0, 64 * mSize (x.entry p k)))

/-- Whether a tile's chain work waits: a program has a command of its own, the slot of the output is not free, or the band is held. -/
def Engine.chainWaits (x : Engine) (p : Nat) (r : Run) (q : Pass) : Bool :=
  match x.header p r.step.descriptor.toNat with
  | some h => hForm h == 1 || (!hHeld h && x.outBlocked p r q) || (hHeld h && q.kind == .vectorTile && !r.heldTiles.isEmpty)
  | none => x.outBlocked p r q

/-- A tile's pieces pass through the chain and its output is written. An entry that is not whole stops the engine (R136), and a bad line
that the chain reads is waited for (R148). -/
def effTileChainWork (e : EngineId) (a : ArrayId) (s : State) : State :=
  let x := s.engine e
  if s.noWork ∨ s.engineStopped e then s
  else
    match x.tileIn a with
    | none => s
    | some t =>
      let q := t.pass
      let c := q.context
      let p := x.part c
      match (x.ctx c).runs.find? (fun r => r.serial == q.serial) with
      | none => s.setEngine e (x.dropTile t)
      | some r =>
        let d := r.step.descriptor.toNat
        let held : Bool := match x.header p d with | some h => hHeld h | none => false
        if q.discard then s.setEngine e (x.dropTile t)
        else if x.pairsGood p d = false then s.mooringFault e c
        else if x.chainWaits p r q then s
        else if (x.firstBad (x.chainReads p d)).isSome then s.readChecked e c (x.chainReads p d)
        else
          let k := (x.chainWork p c r t).timed (chainBegins d q) (x.chainEnd p c r.serial d q) (x.convertOnly p d && t.fromDrain.isSome)
          let x1 := if held ∧ q.kind = .vectorTile then k.x else k.x.dropTile t
          s.settleWork e c { q with late := q.late && !held } { k with x := x1 }

/-- TILE_CHAIN_WORK (R167). -/
def execTileChainWork (engine : EngineId) (array : ArrayId) (s : State) : Host.Outcome State Fault Refusal :=
  .next (effTileChainWork engine array s)

/-! ### HELD_BAND_FINISH (R177) -/

/-- The step of an engine whose band is all held. -/
def Engine.heldRun (x : Engine) : Option (ContextId × Run) :=
  (x.contexts.findSome? (fun q =>
    (q.2.runs.find? (fun r => !r.heldTiles.isEmpty && decide (r.heldTiles.length = tilesN r.step.descriptor.toNat))).map
      (fun r => (BitVec.ofNat 10 q.1, r))))

/-- The work of sweeping and finishing band m of a held step, and the pass under which it is settled; a streamed output goes as far as
its slots are free, and a VECTOR band counts once, with its pass (R177, R478). -/
def Engine.finishBand (x : Engine) (c : ContextId) (r : Run) (h m : Nat) : Pass × Work :=
  let p := x.part c
  let d := r.step.descriptor.toNat
  let tiles := (List.range (tilesN d)).map (fun n =>
    ({ context := c, serial := r.serial, kind := if dOp d = opVector then .vectorTile else .single, m, n, ordinal := m * tilesN d + n } : Pass))
  let left := tiles.filter (fun q => !r.tilesDone.contains (heldKey d q))
  let k0 : Work := { x := x.holdChain c r.serial, r, tile := [], col0 := 0 }
  let counts := fun (k : Work) => tiles.all (fun t => !k.r.tilesDone.contains (heldKey d t))
  let k1 := left.foldl (fun k q => if k.x.outBlocked p k.r q then k else k.finishTile p c d h q (heldKey d q) (counts k)) k0
  let band : Pass := { context := c, serial := r.serial, kind := .vectorTile, m, n := 0, ordinal := m }
  let finish := match x.vuPass with | some q => (q.started + (q.cycles : Int)).toNat | none => x.bandEnd p d h band
  let k := if counts k0 && left.any (fun q => k1.r.tilesDone.contains (heldKey d q)) then k1.timed 0 finish false else k1
  let done := tiles.all (fun q => k.r.tilesDone.contains (heldKey d q))
  let vector := decide (dOp d = opVector)
  let fix := fun (r' : Run) => if vector then
    { r' with chainLeft := r.chainLeft - b2n done, tilesDone := if done then r'.tilesDone ++ [band.key] else r'.tilesDone } else r'
  let r1 := fix (if done then { k.r with heldTiles := [] } else k.r)
  let late := match x.vuPass with | some q => q | none => band
  let x1 := if done ∧ vector then { k.x with vuPass := none, vu := k.x.vu.clear } else k.x
  (if done ∧ vector then late else { band with kind := .single }, { k with x := x1, r := r1 })

/-- A held band is swept, finished and written; a streamed output goes as far as its slots are free. -/
def effHeldBandFinish (e : EngineId) (s : State) : State :=
  let x := s.engine e
  match x.heldRun with
  | none => s
  | some (c, r) =>
    match x.header (x.part c) r.step.descriptor.toNat, r.heldTiles with
    | some h, (m, _) :: _ =>
      if s.noWork ∨ s.engineStopped e then s
      else
        let q := x.finishBand c r h m
        s.settleWork e c q.1 q.2
    | _, _ => s

/-- HELD_BAND_FINISH (R177). -/
def execHeldBandFinish (engine : EngineId) (_array : ArrayId) (s : State) : Host.Outcome State Fault Refusal :=
  .next (effHeldBandFinish engine s)

/-! ### Stage rows (R162) -/

/-- One stage acts on the tile in the vector unit, brought in from the drain (or as the VECTOR tile that has started) when none
is there. The row names the operation; the word's other fields say how. (DESIGN CHOICE, assumption 53) -/
def State.stageRow (s : State) (e : EngineId) (op : Nat) (word : BitVec 32) : State :=
  let x := s.engine e
  let t0 := match x.tileIn false with | some t => some t | none => x.tileIn true
  match t0 with
  | none => s
  | some t =>
    let q := t.pass
    let c := q.context
    let p := x.part c
    match (x.ctx c).runs.find? (fun r => r.serial == q.serial) with
    | none => s
    | some r =>
      let d := r.step.descriptor.toNat
      if q.discard ∨ s.noWork ∨ s.engineStopped e then s
      else
        let w := setBits word.toNat 31 26 op
        let k : Work := { x := x.holdChain c r.serial, r, tile := t.values, col0 := t.col0, codes := t.codes, scales := t.scales }
        let y := k.stage p d ((x.header p d).getD 0) q w
        let vu := { y.x.vu with tilePass := some q, tileArray := t.fromDrain.getD false, tile := y.tile, tileCol := y.col0,
                                stagesDone := t.stagesDone + 1, codes := y.codes, scales := y.scales }
        s.settleWork e c { q with kind := .single } { y with x := { y.x with vu } }

/-- SCALE (R162). -/
def execScale (engine : EngineId) (stage : BitVec 32) (s : State) : Host.Outcome State Fault Refusal := .next (s.stageRow engine stScale stage)
/-- BIAS (R162). -/
def execBias (engine : EngineId) (stage : BitVec 32) (s : State) : Host.Outcome State Fault Refusal := .next (s.stageRow engine stBias stage)
/-- COLSCALE (R162). -/
def execColscale (engine : EngineId) (stage : BitVec 32) (s : State) : Host.Outcome State Fault Refusal := .next (s.stageRow engine stColscale stage)
/-- RESIDUAL (R175). -/
def execResidual (engine : EngineId) (stage : BitVec 32) (s : State) : Host.Outcome State Fault Refusal := .next (s.stageRow engine stResidual stage)
/-- ACT (R162). -/
def execAct (engine : EngineId) (stage : BitVec 32) (s : State) : Host.Outcome State Fault Refusal := .next (s.stageRow engine stAct stage)
/-- GATEPAIR (R162). -/
def execGatepair (engine : EngineId) (stage : BitVec 32) (s : State) : Host.Outcome State Fault Refusal := .next (s.stageRow engine stGatepair stage)
/-- NORM (R475). -/
def execNorm (engine : EngineId) (stage : BitVec 32) (s : State) : Host.Outcome State Fault Refusal := .next (s.stageRow engine stNorm stage)
/-- SOFTMAX (R475). -/
def execSoftmax (engine : EngineId) (stage : BitVec 32) (s : State) : Host.Outcome State Fault Refusal := .next (s.stageRow engine stSoftmax stage)
/-- ONLINE (R182). -/
def execOnline (engine : EngineId) (stage : BitVec 32) (s : State) : Host.Outcome State Fault Refusal := .next (s.stageRow engine stOnline stage)
/-- MERGE (R182). -/
def execMerge (engine : EngineId) (stage : BitVec 32) (s : State) : Host.Outcome State Fault Refusal := .next (s.stageRow engine stMerge stage)
/-- CONVERT (R164). -/
def execConvert (engine : EngineId) (stage : BitVec 32) (s : State) : Host.Outcome State Fault Refusal := .next (s.stageRow engine stConvert stage)
/-- QUANT (R165). -/
def execQuant (engine : EngineId) (stage : BitVec 32) (s : State) : Host.Outcome State Fault Refusal := .next (s.stageRow engine stQuant stage)

end Sys2Proof.Machine
end

