-- ==== Sys2Proof/Machine/FabricOps.lean ====
section
/-!
DEFINITION. How operations toward other modules end: replies and acknowledgements, the table of R339, fences, the records of
the operation port, mirror writes, and the acknowledgements a receiver sends (R324, R331, R332, R336, R339, R341, R342).
-/

namespace Sys2Proof.Machine

/-! ### The receiver's PSNs (R324) -/

/-- Take consecutive PSNs out of the bitmap. -/
def Stream.absorb (t : Stream) : Nat → Stream
  | 0 => t
  | fuel + 1 =>
    if t.bitmap.contains t.expect then
      Stream.absorb { t with bitmap := t.bitmap.filter (fun n => n ≠ t.expect), expect := t.expect + 1 } fuel
    else t

/-- A PSN has been applied. -/
def Stream.mark (t : Stream) (psn : W32) : Stream :=
  let t1 := { t with bitmap := if t.bitmap.contains psn then t.bitmap else t.bitmap ++ [psn] }
  t1.absorb (t1.bitmap.length)

/-- SACK bit i says whether PSN AckPsn + 1 + i has been received (R322). -/
def Stream.sack (t : Stream) : Nat :=
  ((List.range 128).filter (fun i => t.bitmap.contains (t.expect + BitVec.ofNat 32 i))).foldl (fun a i => a + 2 ^ i) 0

/-- Send an ACK packet for a stream (R324). -/
def State.sendAck (s : State) (p : BitVec 12) (cls : BitVec 2) : State :=
  let sack := ((s.peer p).stream cls).sack
  s.sendUnnumbered p cls { s.headerTo p 2 cls with ackValid := true, operand1 := BitVec.ofNat 64 sack, operand2 := BitVec.ofNat 64 (sack / 2 ^ 64) } []

/-- The segments for which a mirror write waits. -/
def State.mirroring (s : State) : List Nat := s.fabric.mirrorWaiting.map (fun w => w.address / 256)

/-- The PSNs of a peer's stream that waited for mirror writes now made count as applied, and an ACK is sent (R324, R341). -/
def State.settleStream (s : State) (p : BitVec 12) (cls : BitVec 2) : State :=
  let x := s.peer p
  let t := x.stream cls
  let ready := t.applied.filter (fun a => a.2.all (fun g => !s.mirroring.contains g))
  if ready.isEmpty then s
  else
    let t1 := ready.foldl (fun t a => Stream.mark t a.1) { t with applied := t.applied.filter (fun a => !ready.contains a) }
    (s.setPeer p (x.setStream cls t1)).sendAck p cls

/-- Settle the streams of every peer. -/
def State.settleStreams (s : State) : State :=
  (s.fabric.peers.map (·.1)).foldl (fun s p => ((List.range 4).map (BitVec.ofNat 2)).foldl (fun s c => s.settleStream (BitVec.ofNat 12 p) c) s) s

/-! ### Atomics and notifies at their target (R323, R330) -/

/-- Apply an atomic to the 8-byte word at a near address: read, combine, write, as one step; the old value and the status
(R300, R323). (DEDUCED, assumption 95) -/
def State.applyAtomic (s : State) (op : Nat) (address : Nat) (operand1 operand2 : W64) (u : UnitId) (cls : BitVec 2) :
    State × W64 × BitVec 8 :=
  let q := s.readSpan address 8 u cls
  let old : W64 := BitVec.ofNat 64 (ofLeBytes q.2.1)
  let put := fun (v : W64) => (q.1.writeBytes address (leBytes 8 v.toNat) false u cls).1
  let s1 := if op = opFetchAdd then put (old + operand1)
    else if op = opSwap then put operand1
    else if old = operand1 then put operand2 else q.1
  (s1, old, carried q.2.2)

/-- Write a NOTIFY's value. -/
def State.applyNotify (s : State) (address : Nat) (value : W64) (u : UnitId) (cls : BitVec 2) : State :=
  (s.writeBytes address (leBytes 8 value.toNat) false u cls).1

/-! ### The operation port (R331, R332) -/

def prOp (r : BitVec 512) : Nat := bits r.toNat 511 504
def prTarget (r : BitVec 512) : W64 := BitVec.ofNat 64 (bits r.toNat 447 384)
def prOperand1 (r : BitVec 512) : W64 := BitVec.ofNat 64 (bits r.toNat 383 320)
def prOperand2 (r : BitVec 512) : W64 := BitVec.ofNat 64 (bits r.toNat 319 256)
def prResult (r : BitVec 512) : W64 := BitVec.ofNat 64 (bits r.toNat 255 192)
def opFence : Nat := 7

/-- The 16 bytes of a record's result (R331). -/
def resultBytes (st : BitVec 8) (missing : Nat) (value : W64) : List Byte :=
  leBytes 16 (st.toNat * 2 ^ 120 + missing % 65536 * 2 ^ 104 + value.toNat)

/-- A record of a step of the operation port completes: its result is written, and the step takes its status (R332). A step
that is no longer there gets nothing. -/
def State.portResult (s : State) (e : EngineId) (c : ContextId) (serial : W16) (result : W64) (st : BitVec 8) (bytes : List Byte) : State :=
  if (s.ectx e c).runs.any (fun r => r.serial == serial) then
    let w := if result = 0 then (s, []) else s.writeBytes result.toNat bytes false (engineUnit e) (BitVec.ofNat 2 (s.ctxClass c))
    let all := (st :: w.2).filter (fun v => v ≠ stDone)
    w.1.setEctx e c ((w.1.ectx e c).updRun serial (fun r => { r with statuses := r.statuses ++ all }))
  else s

/-- Credits of a context's allotment come back: its write lines that are acknowledged (R36, R38). -/
def State.returnLines (s : State) (e : EngineId) (c : ContextId) (n : Nat) : State :=
  let k := s.ectx e c
  s.setEctx e c { k with writeLines := k.writeLines - n }

/-- The credits of its context's allotment that an operation holds until it is acknowledged: a line of a fused send each, and one for a
record of the operation port or a notify, which fill no line (R36, R38). -/
def FabricOp.creditLines (o : FabricOp) : Nat :=
  match o.use with
  | .send _ _ _ _ => Nat.max 1 (o.payload.length / 64)
  | .port _ _ _ _ => 1
  | _ => 0

/-- An operation of a context is issued on its own allotment. -/
def State.issueDrawn (s : State) (e : EngineId) (c : ContextId) (p : BitVec 12) (o : FabricOp) : State × Bool :=
  match s.issueOp p o with
  | (_, false) => (s, false)
  | (s1, true) =>
    let k := s1.ectx e c
    (s1.setEctx e c { k with writeLines := k.writeLines + o.creditLines }, true)

/-- A record of the port is issued: applied at once in this module, ended at once toward a module no operation can reach, or
sent. The flag is false where the peer's 128 numbered operations are all in use (R318, R330, R337). -/
def State.issueRecord (s : State) (e : EngineId) (c : ContextId) (serial : W16) (r : BitVec 512) : State × Bool :=
  let target := (prTarget r).toNat
  let cls := BitVec.ofNat 2 (s.ctxClass c)
  let finish := fun (s : State) (st : BitVec 8) (value : W64) => s.portResult e c serial (prResult r) st (resultBytes st 0 value)
  if gaModule target = s.moduleId then
    match s.ownAddress target 8 with
    | none => (finish s stRemoteRefused 0, true)
    | some a =>
      if prOp r = opNotify then (finish (s.applyNotify a (prOperand1 r) (engineUnit e) cls) stDone 0, true)
      else if (s.nearDie a).isNone then (finish s stRemoteRefused 0, true)
      else
        let q := s.applyAtomic (prOp r) a (prOperand1 r) (prOperand2 r) (engineUnit e) cls
        (finish q.1 q.2.2 q.2.1, true)
  else
    match s.livePeer (gaModule target) with
    | none => (finish (s.remoteEvent (gaModule target) stRemoteTimeout false) stRemoteTimeout 0, true)
    | some p =>
      s.issueDrawn e c p
        { request := 0, opcode := BitVec.ofNat 6 (prOp r), cls, use := .port e c serial (prResult r), issuedAt := 0,
          address := prTarget r, operand1 := prOperand1 r, operand2 := prOperand2 r }

/-- The step of a context whose records of the operation port wait. -/
def EngineContext.portRun (k : EngineContext) : Option Run := k.runs.find? (fun r => !r.records.isEmpty)

/-- Issue the records of a step in order, up to a FENCE or to one that cannot go, while a window admits the context and its allotment has
a credit; `fuel` bounds their number (R36, R144, R332). -/
def State.pumpPort (s : State) (e : EngineId) (c : ContextId) : Nat → State
  | 0 => s
  | fuel + 1 =>
    match (s.ectx e c).portRun with
    | none => s
    | some r =>
      match r.records with
      | [] => s
      | rec' :: rest =>
        if prOp rec' = opFence ∨ s.noWork ∨ s.engineStopped e ∨ s.writeAdmitted e c = false ∨ s.lineRoom e c = 0 ∨
           s.pathOpen e 2 (prTarget rec').toNat = false then s
        else
          match s.issueRecord e c r.serial rec' with
          | (_, false) => s
          | (s1, true) =>
            (s1.setEctx e c ((s1.ectx e c).updRun r.serial (fun r => { r with records := rest }))).pumpPort e c fuel

/-- WRITE_ISSUE: the tender's next write; where a context has none, the records of the operation port that waited for a window or for credit
go on (R36, R144, R332). -/
def execWriteIssue (engine : EngineId) (context : ContextId) (s : State) : Host.Outcome State Fault Refusal :=
  let k := s.ectx engine context
  .next (if k.runs.any (fun r => !r.writes.isEmpty) then effWriteIssue engine context s
         else match k.portRun with
           | none => s
           | some r => s.pumpPort engine context r.records.length)

/-- Issue what the records that wait allow, on every engine. -/
def State.pumpPorts (s : State) : State :=
  s.engines.foldl (fun s x => x.2.contexts.foldl (fun s k =>
    match k.2.portRun with
    | none => s
    | some r => s.pumpPort (BitVec.ofNat 6 x.1) (BitVec.ofNat 10 k.1) r.records.length) s) s

/-! ### Fences (R336) -/

/-- Insert in ascending order, without repeats. -/
def insertAsc (n : Nat) : List Nat → List Nat
  | [] => [n]
  | m :: ms => if n < m then n :: m :: ms else if n = m then m :: ms else m :: insertAsc n ms

/-- The fence completes: DONE, or FENCE_INCOMPLETE with the modules that are missing, in ascending order (R331, R336). -/
def State.finishFence (s : State) (f : Fence) (missing : List Nat) : State :=
  let ids := missing.foldl (fun a m => insertAsc m a) []
  let st := if ids.isEmpty then stDone else stFenceIncomplete
  let s1 := { s with fabric := { s.fabric with fences := s.fabric.fences.erase f } }
  s1.portResult f.engine f.context f.serial f.result st (resultBytes st ids.length 0 ++ ids.flatMap (leBytes 2))

/-- An operation a fence counts has ended. -/
def Fence.without (f : Fence) (op : Nat × Nat) (module' : Nat) (done : Bool) : Fence :=
  if f.counted.contains op then
    { f with counted := f.counted.erase op, missing := if done then f.missing else f.missing ++ [module'] }
  else f

/-- Complete the fences that count nothing any more. -/
def State.settleFences (s : State) : State :=
  (s.fabric.fences.filter (fun f => f.counted.isEmpty)).foldl (fun s f => s.finishFence f f.missing) s

/-! ### How an operation ends (R324, R332, R337, R339, R341) -/

/-- A destination gets nothing more of a step, which carries the statuses (R186). -/
def State.stopSend (s : State) (e : EngineId) (c : ContextId) (serial : W16) (destination : Nat) (sts : List (BitVec 8)) : State :=
  let k := s.ectx e c
  let held := (k.runs.filter (fun r => r.serial == serial)).foldl (fun a r => a + (Tab.get ({} : SendState) r.sends destination).lines) 0
  let k1 := k.updRun serial (fun r =>
    { r with sends := Tab.set {} r.sends destination { next := (Tab.get ({} : SendState) r.sends destination).next }, statuses := r.statuses ++ sts })
  s.setEctx e c { k1 with writeLines := k1.writeLines - held }

/-- One packet of a fused send, or its notify, has ended; a status other than DONE stops the destination (R186). -/
def State.sendEnded (s : State) (e : EngineId) (c : ContextId) (serial : W16) (destination : Nat) (notify : Bool) (st : BitVec 8) : State :=
  let x := s.engine e
  let p := x.part c
  if st ≠ stDone then s.stopSend e c serial destination [st]
  else
    s.setEctx e c ((x.ctx c).updRun serial (fun r =>
      let q := Tab.get {} r.sends destination
      let more := (x.owedTile p r.step.descriptor.toNat destination q.next).isSome
      let q1 := if notify then { q with notifying := false, live := more } else { q with packets := q.packets - 1 }
      { r with sends := Tab.set {} r.sends destination q1 }))

/-- A mirror write has ended: its writer is acknowledged, and later writes to the segment go out; or the record breaks
(R341, R342). -/
def State.mirrorEnded (s : State) (record : Nat) (o : FabricOp) (st : BitVec 8) : State :=
  let base := regBase (regionOf s.vers.active (mirRegion (s.act 0x8040 0 record)))
  let s1 :=
    match s.fabric.mirrorWaiting.find? (fun w => w.sent && w.record == record && w.address == base + gaOffset o.address.toNat) with
    | none => s
    | some w =>
      if st ≠ stDone then s.breakMirror record
      else
        let ws := s.fabric.mirrorWaiting.erase w
        { s with fabric := { s.fabric with mirrorWaiting := ws } }.releaseMirror (w.address / 256)
  (s1.pumpMirrors (s1.fabric.mirrorWaiting.length + 1)).settleStreams

/-- The status of one line of a READ that ends with a status: the mask says which lines are bad where some may be good. -/
def lineStatus (st : BitVec 8) (masked : Bool) : BitVec 8 :=
  if st = stDone then (if masked then stPoisoned else stDone)
  else if st = stPoisoned ∨ st = stDataLost then (if masked then st else stDone)
  else st

/-- An operation ends with a status; a READ delivers its lines, those in the mask poisoned; an atomic its old value. Fences
count it as ended, and what waited for it goes on. -/
def State.completeOp (s : State) (p : BitVec 12) (o : FabricOp) (reported : BitVec 8) (value mask : W64) (data : List Byte) : State :=
  let st := listedStatus reported
  let x := s.peer p
  let s1 := s.setPeer p { x with ops := x.ops.filter (fun q => q.id ≠ o.id) }
  let fences := s1.fabric.fences.map (fun f => f.without (p.toNat, o.id) (gaModule o.address.toNat) (st == stDone))
  let s2 := { s1 with fabric := { s1.fabric with fences } }
  let at' := fun (i : Nat) => o.address + BitVec.ofNat 64 (64 * i)
  let s3 := match o.use with
    | .tender e c =>
      if o.opcode = 1 then
        (List.range o.lines.toNat).foldl (fun (s : State) i =>
          let lst := lineStatus st (mask.getLsbD i)
          s.landSource e c 2 (at' i) lst ((data.drop (64 * i)).take 64)) s2
      else (List.range (o.payload.length / 64)).foldl (fun (s : State) i => s.ackTarget e c 2 (at' i) st) s2
    | .port e c serial result => (s2.returnLines e c o.creditLines).portResult e c serial result st (resultBytes st 0 value)
    | .send e c serial destination => (s2.returnLines e c o.creditLines).sendEnded e c serial destination (o.opcode == 6) st
    | .mirror record => s2.mirrorEnded record o st
  s3.settleFences.pumpPorts

/-- The status with which an operation ends that gets no answer (R339). -/
def FabricOp.lostStatus (o : FabricOp) : BitVec 8 :=
  if o.opcode = 1 ∨ o.sent = false then stRemoteTimeout else stUnknown

/-- An operation ends under R339 with a status: its packet is given up, an event names the peer and says whether it was
applied, and it completes. -/
def State.loseOpAs (s : State) (p : BitVec 12) (o : FabricOp) (st : BitVec 8) (applied : Bool) : State :=
  let x := s.peer p
  let t := x.stream o.cls
  let t1 := { t with unacked := t.unacked.filter (fun k => !(o.sent && k.psn == o.psn)) }
  let s1 := (s.setPeer p (x.setStream o.cls t1)).remoteEvent (gaModule o.address.toNat) st applied
  let s2 := if st = stUnknown then s1.fabricStat 9 else s1
  s2.completeOp p o st 0 0xFFFFFFFFFFFFFFFF#64 (List.replicate (64 * o.lines.toNat) 0xFF)

/-- An operation ends as the table of R339 says. -/
def State.loseOp (s : State) (p : BitVec 12) (o : FabricOp) : State := s.loseOpAs p o o.lostStatus (o.acked && o.opcode != 1)

/-- Every operation toward a peer ends under R339. -/
def State.loseOps (s : State) (p : BitVec 12) : State := (s.peer p).ops.foldl (fun s o => s.loseOp p o) s

end Sys2Proof.Machine
end

