-- ==== Sys2Proof/Machine/Fabric.lean ====
section
/-!
DEFINITION. The receiving side of the fabric transport and its timers: requests at their target, replies, acknowledgements,
keepalives, resets, retransmission and retries, and peers that fall silent (R323 to R329, R335, R337 to R342).
-/

namespace Sys2Proof.Machine

/-! ### Resets (R340) -/

/-- The streams of a peer at PSN 0, with nothing kept. -/
def Peer.resetStreams (x : Peer) : Peer := { x with streams := [], cache := [] }

/-- Send RESET to a peer. (DEDUCED, assumption 98) -/
def State.sendReset (s : State) (p : BitVec 12) : State := s.sendUnnumbered p 2 (s.headerTo p 4 2) []

/-! ### Receipts (R338, R340) -/

/-- A valid packet from a peer: the time is noted, a SILENT peer is UP again; from a peer that restarted, or one that was
DEAD, it makes the module send RESET and reset its streams with the peer, whose incomplete operations end (R338 to R340).
(DEDUCED, assumption 91) -/
def State.receipt (s : State) (p : BitVec 12) (h : Header) : State :=
  let x := s.peer p
  let inc := BitVec.ofNat 16 h.sourceInc
  let restarted := decide (inc ≠ x.remoteIncarnation)
  let noted := fun (s : State) =>
    s.setPeer p { s.peer p with liveness := .up, lastReceipt := s.time.ticks, remoteIncarnation := inc }
  if restarted ∨ x.liveness = .dead then
    let s1 := noted (s.loseOps p)
    let s2 := s1.sendReset p
    s2.setPeer p (s2.peer p).resetStreams
  else noted s

/-! ### Acknowledgements (R324, R325, R327) -/

/-- Whether PSN a is at or below b in the order of R11. -/
def psnUpTo (a b : W32) : Bool := match wrapDiff 32 a.toNat b.toNat with | some v => decide (0 ≤ v) | none => false

/-- Whether PSN a is below b. -/
def psnBelow (a b : W32) : Bool := psnUpTo a b && decide (a ≠ b)

/-- A packet is sent once more with its PSN, on another port whenever one is UP (R326, R327). -/
def State.retransmit (s : State) (p : BitVec 12) (cls : BitVec 2) (psn : W32) : State :=
  match ((s.peer p).stream cls).unacked.find? (fun k => k.psn == psn) with
  | none => s
  | some k =>
    match s.choosePort p cls (some k.port.toNat) with
    | none => s
    | some n =>
      if s.noWork then s
      else
        let h : Header := { Header.decode k.header with ackPsn := ((s.peer p).stream cls).expect - 1,
                                                        destInc := (s.peer p).remoteIncarnation.toNat }
        let s1 := (s.queuePacket p n cls h k.payload).fabricStat 2
        let x := s1.peer p
        let t := x.stream cls
        let un := t.unacked.map (fun q => if q.psn = psn then { q with port := BitVec.ofNat 5 n, sentAt := s1.time.ticks } else q)
        s1.setPeer p { x.setStream cls { t with unacked := un } with retransmits := x.retransmits + 1 }

/-- Retransmit everything last sent on a port that went DOWN (R326). -/
def State.retransmitPort (s : State) (n : Nat) : State :=
  s.fabric.peers.foldl (fun s q => ((List.range 4).map (BitVec.ofNat 2)).foldl (fun (s : State) (cls : BitVec 2) =>
    let p := BitVec.ofNat 12 q.1
    ((((s.peer p).stream cls).unacked.filter (fun k => k.port.toNat == n)).map (·.psn)).foldl (fun s psn => s.retransmit p cls psn) s) s) s

/-- Send what waits toward every peer, for example once a port is UP again. -/
def State.pumpPeers (s : State) : State :=
  s.fabric.peers.foldl (fun s q => ((List.range 4).map (BitVec.ofNat 2)).foldl (fun (s : State) (cls : BitVec 2) =>
    s.pump (BitVec.ofNat 12 q.1) cls q.2.ops.length) s) s

/-- The acknowledged operation of a PSN: a WRITE or NOTIFY is DONE, a READ or atomic waits for its reply (R337, R339). -/
def State.ackOp (s : State) (p : BitVec 12) (cls : BitVec 2) (psn : W32) : State :=
  match (s.peer p).ops.find? (fun o => o.sent && !o.acked && o.cls == cls && o.psn == psn) with
  | none => s
  | some o =>
    if opReplies o.opcode.toNat then
      let x := s.peer p
      s.setPeer p { x with ops := x.ops.map (fun q => if q.id = o.id then { q with acked := true } else q) }
    else s.completeOp p o stDone 0 0 []

/-- A cumulative acknowledgement: the packets up to AckPsn are released in order, and waiting operations take their room; three
higher PSNs received make a packet be sent again (R324, R325, R327). (DEDUCED, assumption 96) -/
def State.ackStream (s : State) (p : BitVec 12) (h : Header) (withSack : Bool) : State :=
  if h.ackValid = false then s
  else
    let x := s.peer p
    let t := x.stream h.cls
    let done := t.unacked.filter (fun k => psnUpTo k.psn h.ackPsn)
    -- a PSN that R11 does not order with AckPsn is kept, and flagged
    let wrapped := t.unacked.any (fun k => (wrapDiff 32 k.psn.toNat h.ackPsn.toNat).isNone)
    let s0 := s.raiseIf wrapped { area := 0x80, kind := 0x10, unit := fabricPortUnit (h.port % 20) }
    let s1 := s0.setPeer p (x.setStream h.cls { t with unacked := t.unacked.filter (fun k => !psnUpTo k.psn h.ackPsn) })
    let s2 := done.foldl (fun s k => s.ackOp p h.cls k.psn) s1
    let s3 := s2.pump p h.cls (s2.peer p).ops.length
    if withSack = false then s3
    else
      let sack := h.operand1.toNat + h.operand2.toNat * 2 ^ 64
      let got := ((List.range 128).filter (fun i => bit sack i)).map (fun i => h.ackPsn + 1 + BitVec.ofNat 32 i)
      let again := (((s3.peer p).stream h.cls).unacked.map (·.psn)).filter (fun n =>
        !got.contains n && decide (3 ≤ (got.filter (fun g => psnBelow n g)).length))
      again.foldl (fun s n => s.retransmit p h.cls n) s3

/-! ### Packets as they are taken from the ingress buffer (R321, R322, R335) -/

/-- The packet leaves its ingress buffer, if it is there. -/
def State.takeIngress (s : State) (x : BitVec 384) : State :=
  match s.fabric.ingress.find? (fun q => q.2.1 == x) with
  | none => s
  | some q => { s with fabric := { s.fabric with ingress := s.fabric.ingress.erase q } }

/-- The peer a packet comes from: none where its version is not 1, it is of another kind than the command's, it is not for this
module, the module takes no work, or the source is no declared peer, which alone has a counter (R322, R335). (DEDUCED, assumption 94) -/
def State.packetFrom (s : State) (x : BitVec 384) (kind : Nat) : State × Option (BitVec 12) :=
  let h := Header.decode x
  let s1 := (s.takeIngress x).fabricStat 1
  if h.version ≠ 1 ∨ h.kind ≠ kind ∨ h.dest ≠ s.moduleId ∨ s.noWork then (s1, none)
  else
    match s1.peerOf h.source with
    | none => (s1.fabricStat 6, none)
    | some p => (s1, some p)

/-! ### Requests at their target (R323, R324, R329, R335, R337) -/

/-- Bytes a request covers in its region. -/
def Header.length (h : Header) : Nat := if h.opcode = opRead ∨ h.opcode = opWrite then 64 * h.lines else 8

/-- The module address of an exported request; none where R335 refuses it. -/
def State.exportedAt (s : State) (h : Header) : Option Nat :=
  match s.ownAddress h.address.toNat h.length with
  | none => none
  | some a =>
    if (h.opcode = opFetchAdd ∨ h.opcode = opSwap ∨ h.opcode = opCas) ∧ (s.nearDie a).isNone then none else some a

/-- Send a REPLY; it carries the acknowledgement of its stream (R322, R324). -/
def State.sendReply (s : State) (p : BitVec 12) (h : Header) (st : BitVec 8) (value : W64) (poison : Bool) (data : List Byte) : State :=
  s.sendUnnumbered p h.cls { s.headerTo p 1 h.cls with opcode := h.opcode, request := h.request, operand1 := value, status := st,
                                                       poison, lines := data.length / 64 } data

/-- The write of WRITE's lines: a line in the mask carries the poison flag; lines of one 256-byte segment go together (R299,
R323). `fuel` bounds the pieces. -/
def State.writeMasked (s : State) (address i : Nat) (mask : W64) (data : List Byte) (u : UnitId) (cls : BitVec 2) : Nat → State
  | 0 => s
  | fuel + 1 =>
    if data.isEmpty then s
    else
      let n := if (s.nearDie address).isSome then 256 - address % 256 else 64
      let part := data.take n
      let bad := (List.range (part.length / 64)).any (fun k => mask.getLsbD (i + k))
      (s.writeBytes address part bad u cls).1.writeMasked (address + n) (i + n / 64) mask (data.drop n) u cls fuel

/-- Segments a request writes for which mirror writes wait. -/
def State.awaited (s : State) (address length : Nat) : List Nat :=
  ((List.range (length / 256 + 2)).map (address / 256 + ·)).filter (fun g => decide (256 * g < address + length) && s.mirroring.contains g)

/-- A PSN's request has been applied, or refused: it is acknowledged at once, or when the mirror writes it led to have been
(R324, R341). -/
def State.markApplied (s : State) (p : BitVec 12) (h : Header) (wait : List Nat) : State :=
  let x := s.peer p
  let t := x.stream h.cls
  if wait.isEmpty then s.setPeer p (x.setStream h.cls (t.mark h.psn))
  else s.setPeer p (x.setStream h.cls { t with applied := t.applied ++ [(h.psn, wait)] })

/-- Apply a request that has passed the checks, and answer it (R323, R337). -/
def State.applyRequest (s : State) (p : BitVec 12) (h : Header) (a : Nat) (payload : List Byte) : State :=
  let u := fabricPortUnit (h.port % 20)
  if h.opcode = opRead then
    let r := s.readLines a u h.cls h.lines
    let mask := (r.2.zipIdx).foldl (fun m l => if l.1.poison then m + 2 ^ l.2 else m) 0
    (r.1.markApplied p h []).sendReply p h (carried (r.2.map (·.status))) (BitVec.ofNat 64 mask) (mask ≠ 0) (r.2.flatMap (·.bytes))
  else if h.opcode = opWrite then
    let mask : W64 := if h.poison then h.operand1 else 0
    let s1 := s.writeMasked a 0 mask (payload.take (64 * h.lines)) u h.cls (h.lines + 1)
    (s1.markApplied p h (s1.awaited a (64 * h.lines))).sendAck p h.cls
  else if h.opcode = opNotify then
    let s1 := s.applyNotify a h.operand1 u h.cls
    (s1.markApplied p h (s1.awaited a 8)).sendAck p h.cls
  else
    let cached := (s.peer p).cache.find? (fun k => k.request == h.request)
    if h.retry then
      match cached with
      | some k => ((s.markApplied p h []).fabricStat 8).sendReply p h k.status k.value false []
      | none => ((s.markApplied p h []).fabricStat 9).sendReply p h stUnknown 0 false []
    else
      let q := s.applyAtomic h.opcode a h.operand1 h.operand2 u h.cls
      let k : CachedReply := { request := h.request, opcode := BitVec.ofNat 6 h.opcode, value := q.2.1, status := q.2.2 }
      let s1 := q.1.setPeer p { q.1.peer p with cache := lastN 256 ((q.1.peer p).cache ++ [k]) }
      (s1.markApplied p h (s1.awaited a 8)).sendReply p h q.2.2 q.2.1 false []

/-- A request refused under R335: REMOTE_REFUSED, a READ's lines all ones and all in the mask. (DESIGN CHOICE, assumption 93) -/
def State.refuseRequest (s : State) (p : BitVec 12) (h : Header) : State :=
  let n := if h.opcode = opRead then h.lines else 0
  ((s.markApplied p h []).fabricStat 7).sendReply p h stRemoteRefused (if n = 0 then 0 else BitVec.ofNat 64 (2 ^ n - 1)) (n ≠ 0)
    (List.replicate (64 * n) 0xFF)

/-- Apply the NOTIFY requests that no longer wait for a lower PSN (R329). `fuel` bounds them. -/
def State.releaseNotifies (s : State) (p : BitVec 12) (cls : BitVec 2) : Nat → State
  | 0 => s
  | fuel + 1 =>
    let x := s.peer p
    let t := x.stream cls
    -- a lower PSN whose write waits for a mirror has been applied
    let applied := fun (n : W32) => t.bitmap.contains n || t.applied.any (fun a => a.1 == n)
    let ready := fun (n : W32) =>
      (List.range (n - t.expect).toNat).all (fun i => applied (t.expect + BitVec.ofNat 32 i))
    match t.notifies.find? (fun k => decide ((Header.decode k).psn - t.expect < 1024) && ready (Header.decode k).psn) with
    | none => s
    | some k =>
      let h := Header.decode k
      let s1 := s.setPeer p (x.setStream cls { t with notifies := t.notifies.erase k })
      (match s1.exportedAt h with
       | none => s1.refuseRequest p h
       | some a => s1.applyRequest p h a []).releaseNotifies p cls fuel

/-- Whether a PSN has been received before: below the next expected, applied, or held (R324). -/
def Stream.seen (t : Stream) (psn : W32) : Bool :=
  psnBelow psn t.expect || t.bitmap.contains psn || t.applied.any (fun a => a.1 == psn)

/-- A REQUEST packet (R323, R324, R329, R335, R340). -/
def State.request (s : State) (op : Nat) (x : BitVec 384) (payload : List Byte) : State :=
  let h := Header.decode x
  match s.packetFrom x 0 with
  | (s1, none) => s1
  | (s1, some p) =>
    let s2 := s1.receipt p h
    if h.opcode ≠ op then s2
    else if h.destInc ≠ s2.fabric.incarnation.toNat then s2.sendReset p
    else
      let s3 := s2.ackStream p h false
      let t := (s3.peer p).stream h.cls
      if t.seen h.psn then (s3.fabricStat 3).sendAck p h.cls
      else if wrapDiff 32 t.expect.toNat h.psn.toNat = none then
        s3.raise { area := 0x80, kind := 0x10, unit := fabricPortUnit (h.port % 20) }
      else if 1024 ≤ (h.psn - t.expect).toNat then s3.fabricStat 4
      else if op = opNotify then
        let held := t.notifies.any (fun k => (Header.decode k).psn == h.psn)
        let s4 := if held then s3 else s3.setPeer p ((s3.peer p).setStream h.cls { t with notifies := t.notifies ++ [x] })
        s4.releaseNotifies p h.cls (t.notifies.length + 1)
      else
        let s4 := match s3.exportedAt h with
          | none => s3.refuseRequest p h
          | some a => s3.applyRequest p h a payload
        let u := (s4.peer p).stream h.cls
        let s5 := if u.bitmap.isEmpty then s4 else s4.sendAck p h.cls
        s5.releaseNotifies p h.cls (u.notifies.length + 1)

/-- FABRIC_READ (R323). -/
def execFabricRead (header : BitVec 384) (s : State) : Host.Outcome State Fault Refusal := .next (s.request opRead header [])

/-- FABRIC_WRITE (R323). -/
def execFabricWrite (header : BitVec 384) (payload : List Byte) (s : State) : Host.Outcome State Fault Refusal :=
  .next (s.request opWrite header payload)

/-- FETCH_ADD (R323). -/
def execFetchAdd (header : BitVec 384) (s : State) : Host.Outcome State Fault Refusal := .next (s.request opFetchAdd header [])

/-- SWAP (R323). -/
def execSwap (header : BitVec 384) (s : State) : Host.Outcome State Fault Refusal := .next (s.request opSwap header [])

/-- CAS (R323). -/
def execCas (header : BitVec 384) (s : State) : Host.Outcome State Fault Refusal := .next (s.request opCas header [])

/-- NOTIFY (R329). -/
def execNotify (header : BitVec 384) (s : State) : Host.Outcome State Fault Refusal := .next (s.request opNotify header [])

/-! ### Replies, acknowledgements, keepalives, resets (R324, R337, R338, R340) -/

/-- The operation a reply answers: by its RequestId, or for a WRITE or NOTIFY, which have none, the oldest one sent of that
opcode and class. (DEDUCED, assumption 97) -/
def Peer.answered (x : Peer) (h : Header) : Option FabricOp :=
  if opReplies h.opcode then x.ops.find? (fun o => o.sent && o.request == h.request && o.opcode.toNat == h.opcode)
  else x.ops.find? (fun o => o.sent && o.opcode.toNat == h.opcode && o.cls == h.cls)

/-- A REPLY completes its request (R337). -/
def effReplyRx (x : BitVec 384) (payload : List Byte) (s : State) : State :=
  let h := Header.decode x
  match s.packetFrom x 1 with
  | (s1, none) => s1
  | (s1, some p) =>
    let s2 := s1.receipt p h
    let s3 := match (s2.peer p).answered h with
      | none => s2
      | some o =>
        let s4 := if h.status = stUnknown then s2.remoteEvent h.source stUnknown false else s2
        s4.completeOp p o h.status h.operand1 (if h.poison then h.operand1 else 0) payload
    s3.ackStream p h false

/-- REPLY_RX (R337). -/
def execReplyRx (header : BitVec 384) (payload : List Byte) (s : State) : Host.Outcome State Fault Refusal :=
  .next (effReplyRx header payload s)

/-- An ACK releases packets up to AckPsn, and its SACK may lead to retransmission (R324, R327). -/
def effAckRx (x : BitVec 384) (s : State) : State :=
  let h := Header.decode x
  match s.packetFrom x 2 with
  | (s1, none) => s1
  | (s1, some p) => (s1.receipt p h).ackStream p h true

/-- ACK_RX (R324). -/
def execAckRx (header : BitVec 384) (s : State) : Host.Outcome State Fault Refusal := .next (effAckRx header s)

/-- A KEEPALIVE is a receipt (R338). -/
def effKeepaliveRx (x : BitVec 384) (s : State) : State :=
  let h := Header.decode x
  match s.packetFrom x 3 with
  | (s1, none) => s1
  | (s1, some p) => (s1.receipt p h).ackStream p h false

/-- KEEPALIVE_RX (R338). -/
def execKeepaliveRx (header : BitVec 384) (s : State) : Host.Outcome State Fault Refusal := .next (effKeepaliveRx header s)

/-- A RESET ends the incomplete operations toward its sender, resets the streams, and clears the reply cache (R340). -/
def effResetRx (x : BitVec 384) (s : State) : State :=
  let h := Header.decode x
  match s.packetFrom x 4 with
  | (s1, none) => s1
  | (s1, some p) =>
    let s2 := (s1.receipt p h).loseOps p
    s2.setPeer p (s2.peer p).resetStreams

/-- RESET_RX (R340). -/
def execResetRx (header : BitVec 384) (s : State) : Host.Outcome State Fault Refusal := .next (effResetRx header s)

/-! ### Timers (R327, R337, R338, R339) -/

/-- RetransmitTimeout has passed since a packet was last sent, without its acknowledgement: it is sent again (R327).
(DESIGN CHOICE, assumption 3) -/
def effRetransmitTimeout (p : BitVec 12) (cls : BitVec 2) (psn : BitVec 32) (s : State) : State :=
  match ((s.peer p).stream cls).unacked.find? (fun k => k.psn == psn) with
  | none => s
  | some k => if s.elapsed k.sentAt (s.act 0x8050 1 0) then s.retransmit p cls psn else s

/-- RETRANSMIT_TIMEOUT (R327). -/
def execRetransmitTimeout (peer : BitVec 12) (cls : BitVec 2) (psn : BitVec 32) (s : State) : Host.Outcome State Fault Refusal :=
  .next (effRetransmitTimeout peer cls psn s)

/-- An acknowledged READ or atomic with no reply is sent again: same RequestId, Retry set, a new PSN (R337). -/
def effReplyRetry (p : BitVec 12) (request : BitVec 16) (s : State) : State :=
  match (s.peer p).ops.find? (fun o => o.sent && o.acked && o.request == request && opReplies o.opcode.toNat &&
      s.elapsed o.issuedAt (s.act 0x8050 1 0)) with
  | none => s
  | some o =>
    match s.sendRequest p { s.opHeader p o with retry := true } o.payload with
    | (_, none) => s
    | (s1, some psn) =>
      let x := s1.peer p
      s1.setPeer p { x with ops := x.ops.map (fun q => if q.id = o.id then { q with acked := false, psn } else q) }

/-- REPLY_RETRY (R337). -/
def execReplyRetry (peer : BitVec 12) (request : BitVec 16) (s : State) : Host.Outcome State Fault Refusal :=
  .next (effReplyRetry peer request s)

/-- A KEEPALIVE goes to a peer with an UP port of its spray set, the ports in rotation (R338). -/
def effKeepaliveTimer (p : BitVec 12) (s : State) : State :=
  if peerSpray (s.act 0x8010 0 p.toNat) = 0 ∨ s.elapsed (s.peer p).lastSent (s.act 0x8050 2 0) = false then s
  else
    let x := s.peer p
    let ports := s.sprayPorts p
    match (ports.filter (fun n => x.nextPort.toNat ≤ n)) ++ ports with
    | [] => s
    | n :: _ =>
      let s1 := s.setPeer p { x with nextPort := BitVec.ofNat 5 (if n = 19 then 0 else n + 1) }
      s1.queuePacket p n 2 (s1.headerTo p 3 2) []

/-- KEEPALIVE_TIMER (R338). -/
def execKeepaliveTimer (peer : BitVec 12) (s : State) : Host.Outcome State Fault Refusal := .next (effKeepaliveTimer peer s)

/-- The event of a peer SILENT or DEAD. -/
def State.peerEvent (s : State) (p : BitVec 12) : State :=
  s.raise { area := 0x80, kind := 0x21, detail := [(16, peerModule (s.act 0x8010 0 p.toNat))] }

/-- No receipt for 4 × KeepaliveInterval: an UP peer is SILENT (R338). -/
def effPeerSilent (p : BitVec 12) (s : State) : State :=
  if peerSpray (s.act 0x8010 0 p.toNat) = 0 ∨ (s.peer p).liveness ≠ .up ∨
      s.elapsed (s.peer p).lastReceipt (4 * s.act 0x8050 2 0) = false then s
  else (s.setPeer p { s.peer p with liveness := .silent }).peerEvent p

/-- PEER_SILENT (R338). -/
def execPeerSilent (peer : BitVec 12) (s : State) : Host.Outcome State Fault Refusal := .next (effPeerSilent peer s)

/-- No receipt for DeadTimeout: the peer is DEAD, its operations end, and mirrors to it break (R338, R339, R342). -/
def effPeerDead (p : BitVec 12) (s : State) : State :=
  if peerSpray (s.act 0x8010 0 p.toNat) = 0 ∨ (s.peer p).liveness = .dead ∨
      s.elapsed (s.peer p).lastReceipt (s.act 0x8050 3 0) = false then s
  else
    let s1 := (s.setPeer p { s.peer p with liveness := .dead }).peerEvent p
    let s2 := s1.loseOps p
    let broken := (List.range (s.act 0x8041 0 0)).filter (fun i =>
      mirEnable (s.act 0x8040 0 i) && mirPartner (s.act 0x8040 0 i) == peerModule (s.act 0x8010 0 p.toNat))
    (broken.foldl (fun s i => s.breakMirror i) s2).settleStreams

/-- PEER_DEAD (R339). -/
def execPeerDead (peer : BitVec 12) (s : State) : Host.Outcome State Fault Refusal := .next (effPeerDead peer s)

/-- DeadTimeout has passed since an operation was issued and its reply has not come: it ends as one acknowledged (R339). -/
def effOperationDeadTimeout (p : BitVec 12) (request : BitVec 16) (s : State) : State :=
  match (s.peer p).ops.find? (fun o => o.request == request && opReplies o.opcode.toNat &&
      s.elapsed o.issuedAt (s.act 0x8050 3 0)) with
  | none => s
  | some o => if o.opcode = 1 then s.loseOpAs p o stRemoteTimeout false else s.loseOpAs p o stUnknown true

/-- OPERATION_DEAD_TIMEOUT (R339). -/
def execOperationDeadTimeout (peer : BitVec 12) (request : BitVec 16) (s : State) : Host.Outcome State Fault Refusal :=
  .next (effOperationDeadTimeout peer request s)

/-! ### MIRROR_RESTART (R342) -/

/-- RESTART returns a BROKEN record to ACTIVE for writes applied from now on. -/
def effMirrorRestart (record : BitVec 16) (s : State) : State :=
  if s.act 0x8041 0 0 ≤ record.toNat then s
  else { s with fabric := { s.fabric with mirrors := Tab.set .active s.fabric.mirrors record.toNat .active } }

/-- MIRROR_RESTART (R342). -/
def execMirrorRestart (record : BitVec 16) (s : State) : Host.Outcome State Fault Refusal := .next (effMirrorRestart record s)

end Sys2Proof.Machine
end

