-- ==== Sys2Proof/Machine/RadioTime.lean ====
section
/-!
DEFINITION. Radio instants and the cell records: slots and symbols on the air, links and their rates, the fill lead, the layout of
the RAN-reserved region, and the segmentation of transport blocks (R62, R63, R210 to R212, R216, R238, R263, R309, R310).
-/

namespace Sys2Proof.Machine

/-! ### Cell records (R210, R211) -/

def clNum (r : Nat) : Nat := match bits r 246 245 with | 0 => 0 | 1 => 1 | _ => 3
def clPrbs (r : Nat) : Nat := bits r 244 236
def clUlStreams (r : Nat) : Nat := bits r 235 230
def clDlStreams (r : Nat) : Nat := bits r 229 224
def clCategoryB (r : Nat) : Bool := bit r 223
def clLink (r : Nat) : Nat := bits r 221 216
def clUlMantissa (r : Nat) : Nat := bits r 215 211
def clDlMantissa (r : Nat) : Nat := bits r 210 206
def clBfwMantissa (r : Nat) : Nat := bits r 205 201
def clRepeat (r : Nat) : Bool := bit r 200
def clEaxcBase (r : Nat) : Nat := bits r 199 184
def clDlAdvanceMax (r : Nat) : Nat := bits r 183 168 * 100
def clDlAdvanceMin (r : Nat) : Nat := bits r 167 152 * 100
def clCplaneLead (r : Nat) : Nat := bits r 151 136 * 100
def clUlArriveMin (r : Nat) : Nat := bits r 135 120 * 100
def clUlArriveMax (r : Nat) : Nat := bits r 119 104 * 100
def clPlanLead (r : Nat) : Nat := bits r 103 88 * 1000
def clUlResultDeadline (r : Nat) : Nat := bits r 87 72 * 1000
def clReceiver (r : Nat) : Nat := bits r 71 70
def clChart (r : Nat) : Nat := bits r 69 66
def clSoftMiB (r : Nat) : Nat := bits r 55 40
def clMaxIterations (r : Nat) : Nat := bits r 39 34
def clRuTrx (r : Nat) : Nat := bits r 33 25

/-- The number of cells a version declares, and the record of a cell. -/
def cellCount (t : Tab Nat) : Nat := getRec t 0x5000 0 0
def cellRec (t : Tab Nat) (n : Nat) : Nat := getRec t 0x5001 0 n
def State.cellOf (s : State) (c : CellId) : Nat := cellRec s.vers.active c.toNat

/-- Whether a cell is declared. -/
def State.hasCell (s : State) (c : CellId) : Bool := decide (c.toNat < cellCount s.vers.active)

/-- The port of a cell's fronthaul link. -/
def linkPort (link : Nat) : Fin 84 := ⟨link % 64, by omega⟩

/-! ### Air instants (R62, R63) in units of 2^-16 ns -/

/-- Slots of a frame at numerology μ. -/
def slotsPerFrame (mu : Nat) : Nat := 10 * 2 ^ mu

/-- Start of symbol g of a frame, counted from the frame's first symbol, in units of 2^-16 ns from the frame boundary. -/
def symbolStart (mu g : Nat) : Nat :=
  let per := 7 * 2 ^ mu
  let k := g % per
  let tc := if k = 0 then 0 else 1024 + k * 140288 / 2 ^ mu
  g / per * (500000 * 65536) + (tc * 3125 * 65536 * 2 + 6144) / (2 * 6144)

/-- The frame boundary at which frame count F begins, in units of 2^-16 ns of the time base. -/
def frameStart (f : Nat) : Nat := (f + 31596481900) * (10 ^ 7 * 65536)

/-- Air start of symbol k (0 to 14) of slot n (R214) at numerology μ. -/
def airStart (mu n k : Nat) : Nat := frameStart (n / slotsPerFrame mu) + symbolStart mu (n % slotsPerFrame mu * 14 + k)

/-- The time now in units of 2^-16 ns. -/
def State.now16 (s : State) : Nat := s.time.units / 65536

/-- Nanoseconds in units of 2^-16 ns. -/
def ns16 (n : Nat) : Nat := n * 65536

/-- The slot in which an instant, in units of 2^-16 ns, falls; none before the GPS epoch. -/
def slotAt (mu t : Nat) : Option Nat :=
  let frame := 10 ^ 7 * 65536
  let f := t / frame
  if f < 31596481900 then none
  else
    let into := t % frame
    let n := slotsPerFrame mu
    some ((f - 31596481900) * n + ((List.range n).filter (fun i => decide (symbolStart mu (14 * i) ≤ into))).length - 1)

/-! ### Links (R263, R238) -/

/-- Rate of a fronthaul link in Gb/s under a version's divisions, 0 where the division has no such link. -/
def linkRate (t : Tab Nat) (link : Nat) : Nat :=
  let d := bits (getRec t 0x6000 0 (link / 8)) 63 62
  if link % 8 < 2 ^ d then 400 / 2 ^ d else 0

/-- Whether a link or fabric port is enabled in a version. -/
def portEnabled (t : Tab Nat) (p : Nat) : Bool :=
  if p < 64 then bit (getRec t 0x6000 0 (p / 8)) (54 + p % 8) && linkRate t p != 0
  else bit (getRec t 0x6002 0 (p - 64)) 79

/-- Bits of one PRB at a mantissa width: 24m + 8, or 24 × 16 without compression (R212). -/
def prbBits (m : Nat) : Nat := if m = 0 then 24 * 16 else 24 * m + 8

/-- U-plane bits of one symbol of a link's downlink streams (R238). -/
def linkBits (t : Tab Nat) (link : Nat) : Nat :=
  ((List.range (cellCount t)).map (cellRec t)).foldl (fun a r =>
    if clLink r = link then a + clDlStreams r * clPrbs r * prbBits (clDlMantissa r) else a) 0

/-- FillLead of a link in units of 2^-16 ns: 1,000 ns + (1.06 × B + 72,000 bits) / rate (R238). (DEDUCED, assumption 68) -/
def fillLead16 (t : Tab Nat) (link : Nat) : Nat :=
  if linkRate t link = 0 then 0
  else ns16 1000 + (106 * linkBits t link + 7200000) * 65536 / (100 * linkRate t link)

/-! ### The RAN-reserved region (R309, R310) -/

/-- Bytes of a cell's sample area (R310). -/
def sampleBytes (r : Nat) : Nat := ceilDiv (clPrbs r * 168 * 4 * (3 * clUlStreams r + 2 * clDlStreams r)) 4096 * 4096

/-- The sample areas' offsets: even cells from 64 MiB upward, odd ones from half the region, in cell order (R309). -/
def sampleOffset (t : Tab Nat) (cell : Nat) : Nat :=
  let start := if cell % 2 = 0 then 64 * 2 ^ 20 else getRec t 0x7020 0 0 * 2 ^ 19
  ((List.range cell).filter (fun i => i % 2 = cell % 2)).foldl (fun a i => a + sampleBytes (cellRec t i)) start

/-- Offset of a cell's soft-buffer area in the RAN-reserved region (R309). -/
def softOffset (t : Tab Nat) (cell : Nat) : Nat :=
  (List.range cell).foldl (fun a i => a + clSoftMiB (cellRec t i) * 2 ^ 20)
    ((getRec t 0x7020 0 0 - getRec t 0x7021 0 0) * 2 ^ 20)

/-- Write bytes at an offset of the RAN-reserved region, which may lie in either half. -/
def State.writeRan (s : State) (offset : Nat) (bytes : List Byte) (u : UnitId) : State :=
  let n := if offset < s.ranHalf then min bytes.length (s.ranHalf - offset) else bytes.length
  let s1 := (s.writeBytes (s.ranAddress offset) (bytes.take n) false u 0).1
  if n < bytes.length then (s1.writeBytes (s.ranAddress (offset + n)) (bytes.drop n) false u 0).1 else s1

/-- Read bytes at an offset of the RAN-reserved region; the statuses of its lines other than DONE. -/
def State.readRan (s : State) (offset length : Nat) (u : UnitId) : State × List Byte × List (BitVec 8) :=
  s.readSpan (s.ranAddress offset) length u 0

/-- Offset of the sample of one PRB within its cell's area: slot by slot, stream by stream, symbol by symbol. -/
def sampleAt (r slot stream symbol prb : Nat) : Nat :=
  ((slot % 3 * clUlStreams r + stream) * 14 + symbol) * (clPrbs r * 48) + prb * 48

/-! ### PDU records (R216) -/

def pdType (r : Nat) : Nat := bits r 511 508
def pdStart (r : Nat) : Nat := bits r 507 504
def pdSymbols (r : Nat) : Nat := bits r 503 500
def pdPrb (r : Nat) : Nat := bits r 499 491
def pdPrbs (r : Nat) : Nat := bits r 490 482
def pdLayers (r : Nat) : Nat := bits r 481 478 + 1
def pdRnti (r : Nat) : Nat := bits r 477 462
def pdDataId (r : Nat) : Nat := bits r 461 452
def pdDmrsId (r : Nat) : Nat := bits r 451 436
def pdDmrsType2 (r : Nat) : Bool := bit r 417
def pdDmrsSymbols (r : Nat) : Nat := bits r 435 422
def pdFirstPort (r : Nat) : Nat := bits r 421 418
def pdTransform (r : Nat) : Bool := bit r 416
def pdMod (r : Nat) : Nat := bits r 415 412
def pdRv (r : Nat) : Nat := bits r 411 410
def pdNewData (r : Nat) : Bool := bit r 409
def pdLbrm (r : Nat) : Bool := bit r 408
def pdTbs (r : Nat) : Nat := bits r 407 388
def pdRate (r : Nat) : Nat := bits r 387 378
def pdDetail (r : Nat) : Nat := bits r 377 372
def pdDetail2 (r : Nat) : Nat := bits r 371 352
def pdSoft (r : Nat) : Nat := bits r 351 320
def pdData (r : Nat) : W64 := BitVec.ofNat 64 (bits r 319 256)
def pdAux (r : Nat) : W64 := BitVec.ofNat 64 (bits r 255 192)
def pdBeam (r : Nat) : Nat := bits r 191 177
def pdPrg (r : Nat) : Nat := bits r 176 175
def pdBfMode (r : Nat) : Nat := bits r 174 173

/-- Whether a PDU is uplink: PUSCH, PUCCH, SRS or PRACH. -/
def pdUplink (r : Nat) : Bool := pdType r == 0 || pdType r == 2 || pdType r == 6 || pdType r == 7

/-- Whether a symbol lies in a PDU. -/
def pdHas (r k : Nat) : Bool := decide (pdStart r ≤ k ∧ k < pdStart r + pdSymbols r)

/-! ### Segmentation (R216: per TS 38.212) -/

/-- The lifting sizes of TS 38.212 in rising order. -/
def liftingSizes : List Nat :=
  [2, 3, 4, 5, 6, 7, 8, 9, 10, 11, 12, 13, 14, 15, 16, 18, 20, 22, 24, 26, 28, 30, 32, 36, 40, 44, 48, 52, 56, 60, 64, 72, 80,
   88, 96, 104, 112, 120, 128, 144, 160, 176, 192, 208, 224, 240, 256, 288, 320, 352, 384]

/-- Code blocks of a transport block and their shape: count, lifting size, base graph 2, full circular buffer, the bits of a block before its
fillers, and with them (TS 38.212). -/
structure Segmentation where
  count : Nat
  z : Nat
  graph2 : Bool
  n : Nat
  bits : Nat
  k : Nat
deriving DecidableEq, Repr

/-- Segmentation of a transport block of a number of bytes at a target rate in 1/1,024 (TS 38.212, clauses 5.2.2 and 7.2.2).
(PRESUMED, assumption 64) -/
def segmentation (bytes rate : Nat) : Segmentation :=
  let a := 8 * bytes
  let g2 := decide (a ≤ 292 ∨ (a ≤ 3824 ∧ 100 * rate ≤ 67 * 1024) ∨ 4 * rate ≤ 1024)
  let b := a + (if 3824 < a then 24 else 16)
  let kcb := if g2 then 3840 else 8448
  let c := if b ≤ kcb then 1 else ceilDiv b (kcb - 24)
  let k := ceilDiv (b + (if c = 1 then 0 else 24 * c)) c
  let kb := if g2 then (if 640 < b then 10 else if 560 < b then 9 else if 192 < b then 8 else 6) else 22
  let z := (liftingSizes.find? (fun z => decide (k ≤ kb * z))).getD 384
  { count := c, z, graph2 := g2, n := if g2 then 50 * z else 66 * z, bits := k, k := if g2 then 10 * z else 22 * z }

/-- The precoding groups of a PDU: 2 or 4 PRBs each on the carrier's grid, or one for all (R216, R234). -/
def pdGroups (r : Nat) : Nat :=
  if pdPrbs r = 0 then 0
  else
    let p := if pdPrg r = 0 then 2 else 4
    if pdPrg r = 2 then 1 else (pdPrb r + pdPrbs r - 1) / p - pdPrb r / p + 1

/-- The bytes of a PDU's weights at AuxAddress: RuTrx complex 16-bit weights per layer per precoding group (R234). -/
def weightBytes (cell r : Nat) : Nat := clRuTrx cell * 4 * pdLayers r * pdGroups r

/-- The circular buffer of a PUSCH's code blocks; with limited-buffer rate matching its reference size is an open value. -/
def circularBuffer (r reference : Nat) : Nat :=
  let g := segmentation (pdTbs r) (pdRate r)
  if pdLbrm r then min g.n (Nat.max 1 reference) else g.n

end Sys2Proof.Machine
end

