-- ==== Sys2Proof/Machine/Fronthaul.lean ====
section
/-!
DEFINITION. Fronthaul messages: block floating point, U-plane and C-plane frames, their queues, and the reception of U-plane
messages (R221 to R225, R238 to R241, R273).
-/

namespace Sys2Proof.Machine

/-! ### Block floating point (R223, R224) -/

/-- Bit-pack codes of m bits, most significant bit first, into whole bytes. -/
def packMsb (m : Nat) (codes : List Nat) : List Byte :=
  let n := ceilDiv (m * codes.length) 8
  beBytes n (codes.foldl (fun a c => a * 2 ^ m + c % 2 ^ m) 0 * 2 ^ (8 * n - m * codes.length))

/-- Read count codes of m bits, most significant bit first. -/
def unpackMsb (m count : Nat) (bytes : List Byte) : List Nat :=
  let total := 8 * bytes.length
  let x := ofBeBytes bytes
  (List.range count).map (fun i => x / 2 ^ (total - m * (i + 1)) % 2 ^ m)

/-- The I and Q values of REs stored as 4 bytes each, I in the lower half (R244). -/
def iqValues (bytes : List Byte) : List Int :=
  (List.range (bytes.length / 2)).map (fun i => toSigned 16 (ofLeBytes ((bytes.drop (2 * i)).take 2)))

/-- Values stored as REs. -/
def iqBytes (vs : List Int) : List Byte := vs.flatMap (fun v => leBytes 2 (ofSigned 16 v))

/-- v divided by 2^e, rounded half up (R224). -/
def shiftRound (v : Int) (e : Nat) : Int := if e = 0 then v else (v + 2 ^ (e - 1)) / 2 ^ e

/-- Limit a value to m signed bits. -/
def clampBits (m : Nat) (v : Int) : Int := max (-(2 ^ (m - 1))) (min (2 ^ (m - 1) - 1) v)

/-- The exponent of a PRB: the smallest from 0 to 15 at which every value fits, else 15 (R224). -/
def bfpExponent (m : Nat) (vs : List Int) : Nat :=
  ((List.range 16).find? (fun e => vs.all (fun v => shiftRound v e == clampBits m (shiftRound v e)))).getD 15

/-- One PRB as it is sent at mantissa width m: exponent byte and mantissas, or 16-bit values (R224). -/
def compressPrb (m : Nat) (bytes : List Byte) : List Byte :=
  let vs := iqValues bytes
  if m = 0 then vs.flatMap (fun v => beBytes 2 (ofSigned 16 v))
  else
    let e := bfpExponent m vs
    BitVec.ofNat 8 e :: packMsb m (vs.map (fun v => ofSigned m (clampBits m (shiftRound v e))))

/-- Bytes of one PRB on the wire. -/
def prbWire (m : Nat) : Nat := prbBits m / 8

/-- One received PRB as Q1.15, and how many values saturated (R223). -/
def decompressPrb (m : Nat) (bytes : List Byte) : List Byte × Nat :=
  if m = 0 then (iqBytes ((unpackMsb 16 24 (bytes.take 48)).map (toSigned 16)), 0)
  else
    let e := ((bytes.headD 0).toNat) % 16
    let vs := (unpackMsb m 24 ((bytes.drop 1).take (3 * m))).map (fun c => toSigned m c * 2 ^ e)
    (iqBytes (vs.map (clampBits 16)), (vs.filter (fun v => v ≠ clampBits 16 v)).length)

/-! ### Plans and their sections -/

/-- Change a slot's plan on a cell. -/
def State.updPlan (s : State) (c : CellId) (slot : Nat) (f : SlotPlan → SlotPlan) : State :=
  let x := s.cell c
  s.setCell c { x with plans := x.plans.map (fun p => if p.slot = slot then f p else p) }

/-- Change a PDU of a plan. -/
def SlotPlan.updPdu (p : SlotPlan) (i : Nat) (f : Pdu → Pdu) : SlotPlan :=
  match p.pdus[i]? with
  | none => p
  | some d => { p with pdus := p.pdus.set i (f d) }

/-- Whether a PDU takes part in its slot. -/
def Pdu.live (d : Pdu) : Bool := !d.skipped && !d.empty

/-- Streams a PDU has sections on: a category B PDU's layers, else every stream of its direction (R234). (DEDUCED, assumption 60) -/
def pduStreams (cell r : Nat) : List Nat :=
  if pdUplink r then List.range (clUlStreams cell)
  else if clCategoryB cell then (List.range (clDlStreams cell)).filter (fun i => i < pdLayers r)
  else List.range (clDlStreams cell)

/-- The PRB sections (first, count) of a downlink eAxC-symbol, in PDU order. -/
def SlotPlan.dlSections (p : SlotPlan) (cell k stream : Nat) : List (Nat × Nat) :=
  p.pdus.filterMap (fun d =>
    let r := d.record.toNat
    if d.live ∧ pdUplink r = false ∧ pdHas r k ∧ (pduStreams cell r).contains stream then some (pdPrb r, pdPrbs r) else none)

/-- The downlink streams with sections in symbol k (R239). -/
def SlotPlan.dlStreams (p : SlotPlan) (cell k : Nat) : List Nat :=
  (List.range (clDlStreams cell)).filter (fun i => !(p.dlSections cell k i).isEmpty)

/-! ### Frames (R225, R239, R273) -/

/-- Ethernet header of a fronthaul frame: addresses, the link's tag where it has one, EtherType 0xAEFE. -/
def State.fronthaulHeader (s : State) (cell : Nat) (uplane : Bool) : List Byte :=
  let l := s.act 0x6001 0 (clLink cell)
  let vlan := bits l 79 68
  let pcp := if uplane then bits l 67 65 else bits l 64 62
  beBytes 6 (Config.radioUnitMac (clLink cell)).toNat ++ beBytes 6 (bits l 127 80) ++
  (if vlan = 0 then [] else beBytes 2 0x8100 ++ beBytes 2 (pcp * 8192 + vlan)) ++ beBytes 2 0xAEFE

/-- eCPRI header with its payload identifiers: version 1, type, size, eAxC, sequence number. (PRESUMED, assumption 59) -/
def ecpriHeader (type size eaxc seq : Nat) : List Byte :=
  beBytes 1 0x10 ++ beBytes 1 type ++ beBytes 2 size ++ beBytes 2 eaxc ++ beBytes 1 seq ++ beBytes 1 0x80

/-- The radio application header: direction (1 downlink), frame, subframe, slot and symbol. -/
def radioHeader (down : Bool) (mu slot k : Nat) : List Byte :=
  let f := slot / slotsPerFrame mu
  let i := slot % slotsPerFrame mu
  beBytes 4 (b2n down * 2 ^ 31 + 2 ^ 28 + f % 256 * 2 ^ 16 + i / 2 ^ mu * 2 ^ 12 + i % 2 ^ mu * 2 ^ 6 + k)

/-- udCompHdr of a mantissa width: width and method 1, or zero (R209, R211). -/
def compHeader (m : Nat) : Nat := if m = 0 then 0 else m % 16 * 16 + 1

/-- A section header with a section's PRBs as it is sent. -/
def sectionBytes (id first count m : Nat) (prbs : List (List Byte)) : List Byte :=
  beBytes 4 (id * 2 ^ 20 + first * 2 ^ 8 + (if 255 < count then 0 else count)) ++ beBytes 1 (compHeader m) ++ [0] ++
  prbs.flatMap (compressPrb m)

/-- Cut sections into pieces of at most n PRBs. -/
def cutSections (n : Nat) : List (Nat × Nat) → List (Nat × Nat)
  | [] => []
  | (a, c) :: r => ((List.range (ceilDiv c (Nat.max 1 n))).map (fun i => (a + i * n, min n (c - i * n)))) ++ cutSections n r

/-- The 48-byte samples of each piece, taken from the samples of all sections in order. -/
def takeSamples : List (Nat × Nat) → List Byte → List ((Nat × Nat) × List (List Byte))
  | [], _ => []
  | p :: ps, bs => (p, (List.range p.2).map (fun i => ((bs.drop (48 * i)).take 48 ++ List.replicate 48 0).take 48)) :: takeSamples ps (bs.drop (48 * p.2))

/-- The frames of one downlink eAxC-symbol: one eCPRI message each, as large as MaxFrame lets it be. -/
def State.uplaneFrames (s : State) (cell : Nat) (p : SlotPlan) (k stream seq : Nat) (samples : List Byte) : List (List Byte) :=
  let m := clDlMantissa cell
  let head := s.fronthaulHeader cell true
  let max := bits (s.act 0x6001 0 (clLink cell)) 61 48
  let n := (max - (head.length + 12 + 6 + 4)) / prbWire m
  (takeSamples (cutSections n (p.dlSections cell k stream)) samples).zipIdx.map (fun q =>
    let body := radioHeader true (clNum cell) p.slot k ++ sectionBytes q.2 q.1.1.1 q.1.1.2 m q.1.2
    head ++ ecpriHeader 0 (4 + body.length) (clEaxcBase cell + stream) seq ++ body)

/-- Insert a frame behind those of no later order (R273). -/
def insertFrame (f : Frame) : List Frame → List Frame
  | [] => [f]
  | g :: gs => if f.order < g.order then f :: g :: gs else g :: insertFrame f gs

/-- Put a radio frame in its place in queue 6 or 7 of its link. -/
def State.queueRadio (s : State) (p : Fin 84) (q : Nat) (bytes : List Byte) (origin : FrameOrigin) (order : Nat) : State :=
  let x := s.port p
  let f : Frame := { bytes, origin, queuedAt := s.ns, order }
  s.setPort p { x with queues := Tab.set [] x.queues q (insertFrame f (Tab.get [] x.queues q)) }

/-- The deadline D(k) of a symbol, in units of 2^-16 ns (R238). -/
def State.dlDeadline (s : State) (cell slot k : Nat) : Nat :=
  airStart (clNum cell) slot k - ns16 (clDlAdvanceMin cell) - fillLead16 s.vers.active (clLink cell)

/-- Queue one downlink eAxC-symbol as payload or fill (R239). The sequence number of a message is an open value. -/
def State.queueUplane (s : State) (c : CellId) (p : SlotPlan) (k stream : Nat) (samples : List Byte) : State :=
  let cell := s.cellOf c
  let d := s.draw
  let order := (s.dlDeadline cell p.slot k * 512 + c.toNat) * 32 + stream
  (d.2.uplaneFrames cell p k stream (d.1 % 256) samples).foldl (fun s f =>
    s.queueRadio (linkPort (clLink cell)) 6 f (.uplane c p.slot (BitVec.ofNat 4 k) (BitVec.ofNat 5 stream)) order) d.2

/-- A downlink eAxC-symbol of a plan. -/
def SlotPlan.dlSym (p : SlotPlan) (k stream : Nat) : DlSymbol := Tab.get {} p.dl (32 * k + stream)
def SlotPlan.setDlSym (p : SlotPlan) (k stream : Nat) (v : DlSymbol) : SlotPlan := { p with dl := Tab.set {} p.dl (32 * k + stream) v }

/-- Count fills of a slot (R240, R241, R242). -/
def State.countFill (s : State) (c : CellId) (slot n : Nat) : State :=
  if n = 0 then s
  else
    let s1 := s.updPlan c slot (fun p => { p with fillCount := p.fillCount + BitVec.ofNat 16 n,
                                                  statuses := if p.statuses.contains stFill then p.statuses else p.statuses ++ [stFill] })
    { s1 with radio := { s1.radio with fillTotal := s1.radio.fillTotal + BitVec.ofNat 32 n } }

/-- Advance a counter of 0x5020 FhRxStats: 0 early, 1 late, 2 malformed, 3 unknown eAxC, 4 late payload discarded (R242). -/
def State.fhStat (s : State) (link place : Nat) : State :=
  { s with radio := { s.radio with rxStats := Tab.upd 0 s.radio.rxStats (5 * link + place) (· + 1) } }

/-! ### Received U-plane messages (R221 to R223) -/

/-- A section of a U-plane message: first PRB, count, udCompHdr, the bytes of its PRBs. -/
structure UplaneSection where
  first : Nat
  count : Nat
  comp : Nat
  data : List Byte

/-- The sections of a message body; none where it is malformed. `fuel` bounds their number. -/
def parseSections (prbs m : Nat) (bytes : List Byte) : Nat → Option (List UplaneSection)
  | 0 => none
  | fuel + 1 =>
    if bytes.isEmpty then some []
    else if bytes.length < 6 then none
    else
      let h := ofBeBytes (bytes.take 4)
      let n := if bits h 7 0 = 0 then prbs else bits h 7 0
      let first := bits h 17 8
      let comp := ofBeBytes ((bytes.drop 4).take 1)
      let len := n * prbWire m
      let rest := bytes.drop 6
      if bits h 19 18 ≠ 0 ∨ rest.length < len ∨ n = 0 then none
      else
        match parseSections prbs m (rest.drop len) fuel with
        | none => none
        | some r => some ({ first, count := n, comp, data := rest.take len } :: r)

/-- The cell of an uplink eAxC identity on a link, with the stream. -/
def State.eaxcCell (s : State) (link eaxc : Nat) : Option (CellId × Nat) :=
  ((List.range (cellCount s.vers.active)).find? (fun n =>
    let r := cellRec s.vers.active n
    clLink r == link && decide (clEaxcBase r ≤ eaxc ∧ eaxc < clEaxcBase r + clUlStreams r))).map (fun n =>
      (BitVec.ofNat 9 n, eaxc - clEaxcBase (cellRec s.vers.active n)))

/-- The uplink PDU of a plan that a section of symbol k belongs to: its C-plane has been sent (R221). -/
def SlotPlan.ulPdu (p : SlotPlan) (k first count : Nat) : Option Nat :=
  ((p.pdus.zipIdx).find? (fun q =>
    let r := q.1.record.toNat
    q.1.live && q.1.cplaneSent && pdUplink r && pdHas r k && decide (pdPrb r ≤ first ∧ first + count ≤ pdPrb r + pdPrbs r))).map (·.2)

/-- Store one received section: its PRBs as Q1.15 in the cell's sample area, marked as arrived (R222, R223). -/
def State.storeSection (s : State) (c : CellId) (slot k stream : Nat) (x : UplaneSection) : State :=
  let cell := s.cellOf c
  let m := clUlMantissa cell
  let base := sampleOffset s.vers.active c.toNat
  (List.range x.count).foldl (fun s i =>
    let q := decompressPrb m ((x.data.drop (i * prbWire m)).take (prbWire m))
    let s1 := s.writeRan (base + sampleAt cell slot stream k (x.first + i)) q.1 (portUnit (linkPort (clLink cell)))
    let s2 := { s1 with radio := { s1.radio with saturations := s1.radio.saturations + q.2 } }
    s2.updPlan c slot (fun p => { p with ul := Tab.set false p.ul ((32 * k + stream) * 512 + x.first + i) true })) s

/-- The symbol whose air end bounds a section's arrival: the symbol's own, or for PRACH the occasion's last (R222). -/
def arrivalSymbol (r k : Nat) : Nat := if pdType r = 7 then pdStart r + pdSymbols r - 1 else k

/-- The symbol count of an instant: its slot's count times 14, and the symbol it falls in. -/
def symbolAt (mu t : Nat) : Option Nat :=
  (slotAt mu t).map (fun n => 14 * n + ((List.range 13).filter (fun k => decide (airStart mu n (k + 1) ≤ t))).length)

/-- The signed difference b − a of two counts over a cycle; none where it is half of the cycle (R66). -/
def cycleDiff (w a b : Nat) : Option Int :=
  let d := (b + w - a % w) % w
  if 2 * d = w then none else if 2 * d < w then some (d : Int) else some ((d : Int) - (w : Int))

/-- The symbol count of a radio position (frameId, slot in frame, symbol), nearest to that of now: positions are compared as one counter over 256
frames, and 128 frames away cannot be represented (R66). -/
def positionSymbol (mu now frameId slot k : Nat) : Option Nat :=
  (cycleDiff (256 * slotsPerFrame mu * 14) now ((frameId * slotsPerFrame mu + slot) * 14 + k)).map (fun v => ((now : Int) + v).toNat)

/-- The sections of a U-plane message for symbol k of slot n / 14 of a cell that arrived at t: malformed, early, late, or stored
(R221, R222). -/
def State.uplaneArrives (s : State) (link : Nat) (c : CellId) (stream down k n inFrame : Nat) (message : List Byte) (t : Nat) : State :=
  let cell := s.cellOf c
  let mu := clNum cell
  let plan := (s.cell c).plans.find? (fun p => p.slot == n / 14)
  match plan, parseSections (clPrbs cell) (clUlMantissa cell) message (message.length + 13) with
  | some p, some xs =>
    let pdus := xs.map (fun x => p.ulPdu k x.first x.count)
    if down = 1 ∨ xs.isEmpty ∨ 13 < k ∨ slotsPerFrame mu ≤ inFrame ∨ xs.any (fun x => x.comp ≠ compHeader (clUlMantissa cell)) ∨
       pdus.any Option.isNone then s.fhStat link 2
    else
      let last := fun (i : Option Nat) => arrivalSymbol (((i.bind (fun i => p.pdus[i]?)).map (·.record.toNat)).getD 0) k
      let e := fun (i : Option Nat) => airStart mu p.slot (last i + 1)
      if pdus.any (fun i => decide (t < e i + ns16 (clUlArriveMin cell))) then s.fhStat link 0
      else if pdus.any (fun i => p.ulClosed.getLsbD (last i) || decide (e i + ns16 (clUlArriveMax cell) < t)) then s.fhStat link 1
      else xs.foldl (fun s x => s.storeSection c p.slot k stream x) s
  | _, _ => s.fhStat link 2

/-- An eCPRI message received on a link: checked against its eAxC, compression header, C-plane and arrival window, then stored,
or dropped and counted (R221, R222); a position 128 frames away is flagged and not interpreted (R66). Message type 2 is accepted, and nothing
is stored for it. `t` is the corrected ingress time in units of 2^-16 ns. -/
def State.ecpriRx (s : State) (link : Nat) (body : List Byte) (t : Nat) : State :=
  let h := ofBeBytes (body.take 4)
  let eaxc := ofBeBytes ((body.drop 4).take 2)
  if body.length < 12 ∨ bits h 31 28 ≠ 1 ∨ bit h 24 ∨ (bits h 23 16 ≠ 0 ∧ bits h 23 16 ≠ 2) ∨ body.length < 4 + bits h 15 0 then s.fhStat link 2
  else
    match s.eaxcCell link eaxc with
    | none => s.fhStat link 3
    | some (c, stream) =>
      let cell := s.cellOf c
      let mu := clNum cell
      let a := ofBeBytes ((body.drop 8).take 4)
      let inFrame := bits a 15 12 * 2 ^ mu + bits a 11 6
      let k := bits a 5 0
      if bits h 23 16 = 2 then s
      else
        match (symbolAt mu s.now16).map (fun now => positionSymbol mu now (bits a 23 16) inFrame (k % 14)) with
        | none => s.fhStat link 2
        | some none => (s.fhStat link 2).raise { area := 0x50, kind := 0x10, unit := portUnit (linkPort link) }
        | some (some n) =>
          s.uplaneArrives link c stream (bits a 31 31) k n inFrame (((body.drop 4).take (bits h 15 0)).drop 8) t

end Sys2Proof.Machine
end

