-- ==== Sys2Proof/Machine/RadioStages.lean ====
section
/-!
DEFINITION. What the stages of the radio chains compute that the manual states: frequency offset, least-squares estimates, one-tap equalisation,
max-log demapping with descrambling, and scrambling, modulation and layer mapping (R226 to R228, R230, R233).
-/

namespace Sys2Proof.Machine

/-- The samples of an area: I and Q of each RE, 4 bytes each (R226). -/
def samplesOf (bytes : List Byte) : List (Int × Int) :=
  (List.range (bytes.length / 4)).map (fun i =>
    (toSigned 16 (ofLeBytes ((bytes.drop (4 * i)).take 2)), toSigned 16 (ofLeBytes ((bytes.drop (4 * i + 2)).take 2))))

/-- The bytes of samples. -/
def sampleList (xs : List (Int × Int)) : List Byte := xs.flatMap (fun v => leBytes 2 (ofSigned 16 v.1) ++ leBytes 2 (ofSigned 16 v.2))

/-- conj(a) × b. -/
def conjMul (a b : Int × Int) : Int × Int := (a.1 * b.1 + a.2 * b.2, a.1 * b.2 - a.2 * b.1)

/-- |a|². -/
def normSq (a : Int × Int) : Int := a.1 * a.1 + a.2 * a.2

def addC (a b : Int × Int) : Int × Int := (a.1 + b.1, a.2 + b.2)

/-! ### Frequency offset (R227) -/

/-- Σ conj(h1) × h2 over REs of a PDU's first two DMRS symbols. -/
def offsetSum (h1 h2 : List (Int × Int)) : Int × Int := ((h1.zip h2).map (fun p => conjMul p.1 p.2)).foldl addC (0, 0)

/-- The DMRS symbols of a PDU, in order. -/
def dmrsSymbols (r : Nat) : List Nat := (List.range 14).filter (fun k => bit (pdDmrsSymbols r) (13 - k))

/-- The time between the starts of a PDU's first two DMRS symbols, in units of 2^-16 ns. -/
def dmrsSpacing (mu slot r : Nat) : Nat :=
  match dmrsSymbols r with
  | a :: b :: _ => airStart mu slot b - airStart mu slot a
  | _ => 0

/-- The offset a PDU's result carries: none where it has a single DMRS symbol, or where no estimate of it has been made. -/
def Pdu.offset (d : Pdu) (mu slot : Nat) : Option (BitVec 16) :=
  if d.foDisabled ∨ d.foSeen = false then none else some (Config.phaseRate d.foSum (dmrsSpacing mu slot d.record.toNat))

/-- A sample of symbol k rotated by a PDU's estimate: exp(−j 2π f t), t from the start of its first DMRS symbol. -/
def derotate (mu slot r k : Nat) (f : BitVec 16) (v : Int × Int) : Int × Int :=
  let w := Config.rotate f (airStart mu slot k - airStart mu slot ((dmrsSymbols r).headD 0)) v
  (clampBits 16 w.1, clampBits 16 w.2)

/-! ### ONE_TAP (R228) -/

/-- The least-squares estimate of a DMRS RE from what was received and the reference: conj(x) × y in Q1.15, saturating. -/
def lsEstimate (y x : Int × Int) : Int × Int :=
  let h := conjMul x y
  (clampBits 16 (shiftRound h.1 15), clampBits 16 (shiftRound h.2 15))

/-- One RE equalised over the receive streams, each (h, y), by maximum ratio: Σ conj(h) × y / Σ |h|² in Q1.15, saturating; with no channel at all
the quotient is an open value. -/
def oneTap (streams : List ((Int × Int) × (Int × Int))) (free : Int × Int) : Int × Int :=
  let num := (streams.map (fun q => conjMul q.1 q.2)).foldl addC (0, 0)
  let den := (streams.map (fun q => normSq q.1)).foldl (· + ·) 0
  if den = 0 then (clampBits 16 free.1, clampBits 16 free.2)
  else
    let part := fun (v : Int) => clampBits 16 ((2 * v * 32768 + den) / (2 * den))
    (part num.1, part num.2)

/-! ### Constellations (TS 38.211, clause 5.1) -/

/-- The amplitude of one axis for its bits, in units of the smallest: 1 − 2b for the last, and (1 − 2b)(2^n − the rest) before. (PRESUMED,
assumption 168) (PRESUMED, assumption 168) -/
def axisLevel : List Nat → Int
  | [] => 0
  | [b] => 1 - 2 * (b : Int)
  | b :: bs => (1 - 2 * (b : Int)) * (2 ^ bs.length - axisLevel bs)

/-- All bit strings of a length, as lists. -/
def bitStrings : Nat → List (List Nat)
  | 0 => [[]]
  | n + 1 => (bitStrings n).flatMap (fun b => [0 :: b, 1 :: b])

/-- The least value of a list. -/
def leastInt : List Int → Int
  | [] => 0
  | v :: vs => vs.foldl min v

/-- The max-log metric d of bit i of one axis at a value: the least squared distance to a point whose bit is 1, less that to one whose bit is 0,
so that a positive value favours bit 0 (R230). -/
def axisMetric (n amplitude i : Nat) (y : Int) : Int :=
  let near := fun (v : Nat) =>
    leastInt (((bitStrings n).filter (fun b => b.getD i 0 == v)).map (fun b => (y - (amplitude : Int) * axisLevel b) ^ 2))
  near 1 - near 0

/-- The LLR of a metric: round(s × d), half up, saturated to ±127 (R230). -/
def llrOf (s : Nat × Nat) (d : Int) : Int :=
  let den : Int := Nat.max 1 s.2
  max (-127) (min 127 ((2 * (s.1 : Int) * d + den) / (2 * den)))

/-- The LLRs of one symbol, bit by bit: even bits from I, odd ones from Q; π/2-BPSK turns every other symbol back first (R230). `index` is the
symbol's place in its layer. -/
def demapSymbol (modulation index : Nat) (variance : W32) (y : Int × Int) : List Int :=
  let s := Config.demapScale modulation variance
  let a := Config.amplitude modulation
  if modulation = 1 then
    let v := if index % 2 = 0 then y else (y.2, -y.1)
    [llrOf s (4 * (a : Int) * (v.1 + v.2))]
  else
    (List.range modulation).map (fun b => llrOf s (axisMetric (modulation / 2) a (b / 2) (if b % 2 = 0 then y.1 else y.2)))

/-! ### Scrambling (TS 38.211, clause 5.2.1) -/

/-- One step of the two shift registers of the scrambling sequence. -/
def goldStep (x : BitVec 31 × BitVec 31) : BitVec 31 × BitVec 31 :=
  let b1 := x.1.getLsbD 3 ^^ x.1.getLsbD 0
  let b2 := x.2.getLsbD 3 ^^ x.2.getLsbD 2 ^^ x.2.getLsbD 1 ^^ x.2.getLsbD 0
  (x.1 >>> 1 ||| (if b1 then 2 ^ 30 else 0), x.2 >>> 1 ||| (if b2 then 2 ^ 30 else 0))

/-- A number of steps. -/
def goldSkip : Nat → BitVec 31 × BitVec 31 → BitVec 31 × BitVec 31
  | 0, x => x
  | n + 1, x => goldSkip n (goldStep x)

/-- Bits of the sequence from a state. -/
def goldBits : Nat → BitVec 31 × BitVec 31 → List Bool
  | 0, _ => []
  | n + 1, x => (x.1.getLsbD 0 ^^ x.2.getLsbD 0) :: goldBits n (goldStep x)

/-- Bits from, from + 1, … of the scrambling sequence of an initial value. -/
def scrambling (init from' count : Nat) : List Bool := goldBits count (goldSkip (1600 + from') (1, BitVec.ofNat 31 init))

/-- The initial value of a PDU's scrambling: its RNTI and its scrambling identity (R216). -/
def pdScramblingInit (r : Nat) : Nat := pdRnti r * 2 ^ 15 + pdDataId r

/-- LLRs of a PDU descrambled and stored as INT8: the sign turns where the sequence is 1. `from'` LLRs of the PDU come before them. -/
def descramble (r from' : Nat) (llrs : List Int) : List Byte :=
  (llrs.zip (scrambling (pdScramblingInit r) from' llrs.length)).map (fun q => BitVec.ofInt 8 (if q.2 then -q.1 else q.1))

/-! ### Scrambling, modulation and layer mapping of the downlink (R233) -/

/-- One symbol's bits as I and Q (TS 38.211, clause 5.1), at the modulation order's amplitude. -/
def mapSymbol (modulation index : Nat) (bits : List Nat) : Int × Int :=
  let a : Int := Config.amplitude modulation
  if modulation = 1 then
    let v := a * (1 - 2 * (bits.headD 0 : Int))
    if index % 2 = 0 then (v, v) else (-v, v)
  else
    let axis := fun (k : Nat) => clampBits 16 (a * axisLevel ((List.range (modulation / 2)).map (fun i => bits.getD (2 * i + k) 0)))
    (axis 0, axis 1)

/-- The symbols of a codeword's scrambled bits. -/
def modulate (r : Nat) (bits : List Nat) : List (Int × Int) :=
  let q := Nat.max 1 (pdMod r)
  let coded := (bits.zip (scrambling (pdScramblingInit r) 0 bits.length)).map (fun p => if p.2 then 1 - p.1 % 2 else p.1 % 2)
  (List.range (coded.length / q)).map (fun i => mapSymbol q i ((coded.drop (q * i)).take q))

/-- The symbols of one layer: every v-th symbol (TS 38.211, clause 7.3.1.3). -/
def layerSymbols (layers l : Nat) (symbols : List (Int × Int)) : List (Int × Int) :=
  (symbols.zipIdx.filter (fun q => q.2 % Nat.max 1 layers == l)).map (·.1)

/-! ### The results of kernels (R258) -/

/-- The noise variance of symbol i of n, from a job's Y input, over which the variances are spread evenly. -/
def varianceOf (y : List Byte) (i n : Nat) : W32 :=
  BitVec.ofNat 32 (ofLeBytes ((y.drop (4 * (i * (y.length / 4) / Nat.max 1 n))).take 4))

/-- What a job of a stage gives its PDU: estimates, equalised symbols, LLRs, or modulated layers. X holds what was received, Y what it is taken
with: references, channel estimates stream by stream within each unit, variances. (DEDUCED, assumption 169) -/
def stageBytes (kernel : Nat) (j : Job) (d : Pdu) (free : Nat) : List Byte :=
  let r := d.record.toNat
  let xs := samplesOf j.xIn
  let ys := samplesOf j.yIn
  let units := j.request.units.toNat
  let done := Tab.get [] d.stages kernel
  if kernel = 0x03 then sampleList ((xs.zip ys).map (fun p => lsEstimate p.1 p.2))
  else if kernel = 0x04 then
    let per := xs.length / Nat.max 1 units
    let pairs := ys.zip xs
    sampleList ((List.range (8 * units)).map (fun i =>
      oneTap ((List.range (per / 8)).filterMap (fun k => pairs[i / 8 * per + 8 * k + i % 8]?)) ((free : Int), (free : Int))))
  else if kernel = 0x05 then
    let q := Nat.max 1 (pdMod r)
    let before := done.length
    descramble r before ((xs.zipIdx).flatMap (fun v => demapSymbol q (before / q + v.2) (varianceOf j.yIn v.2 xs.length) v.1))
  else if kernel = 0x08 then
    let coded := (List.range d.cbTotal).flatMap (fun i => (Tab.get [] d.bits i).map (·.toNat % 2))
    let symbols := modulate r coded
    (List.range (pdLayers r)).flatMap (fun l => sampleList (layerSymbols (pdLayers r) l symbols))
  else []

/-- The stages whose result a PDU keeps for the next one; layer mapping, done over the whole PDU, replaces, the others append. -/
def Pdu.stageDone (d : Pdu) (j : Job) (free : Nat) : Pdu :=
  let k := j.request.kernel.toNat
  if k = 0x01 then
    if d.foFrozen then d
    else { d with foSum := addC d.foSum (offsetSum (samplesOf j.xIn) (samplesOf j.yIn)), foSeen := true }
  else if k = 0x02 then { d with foFrozen := true }
  else
    let out := stageBytes k j d free
    if out.isEmpty then d
    else { d with stages := Tab.set [] d.stages k (if k = 0x08 then out else Tab.get [] d.stages k ++ out) }

end Sys2Proof.Machine
end

