-- ==== Sys2Proof/Machine/Radio.lean ====
section
/-!
DEFINITION. The radio pipeline: slot plans, C-plane and U-plane windows, the deadline watchdog, uplink windows and receiver
charts, results and completions (R213 to R220, R225, R229, R232, R238 to R241).
-/

namespace Sys2Proof.Machine

/-! ### Slot plans (R213 to R217, R233) -/

def planBase (r : Nat) : Nat := bits r 127 64
def planOrder (r : Nat) : Nat := bits r 63 60
def planEnabled (r : Nat) : Bool := bit r 59

/-- Direction of a symbol in a plan: 0 none, 1 downlink, 2 uplink (R215). -/
def planDirection (directions : Nat) (k : Nat) : Nat := bits directions (27 - 2 * k) (26 - 2 * k)

/-- Whether a PDU's fields hold a code that is reserved or unsupported (R209, R216, R234). -/
def pduReserved (cell r : Nat) : Bool :=
  let t := pdType r
  decide (7 < t ∨ 13 < pdStart r ∨ 14 < pdSymbols r ∨ 11 < pdFirstPort r ∨ pdPrg r = 3 ∨ pdBfMode r = 3 ∨ bits r 172 0 ≠ 0) ||
  (decide (t = 0 ∨ t = 1) && !([1, 2, 4, 6, 8, 10].contains (pdMod r))) || (t == 0 && (pdMod r == 10 || decide (4 < pdLayers r) || (pdTransform r && decide (1 < pdLayers r)))) ||
  (t == 2 && decide (4 < pdDetail r)) || (t == 3 && !([1, 2, 4, 8, 16].contains (pdDetail r))) || (t == 7 && decide (10 < pdDetail r)) ||
  (!clCategoryB cell && decide (pdBfMode r ≠ 0))

/-- Whether a PDU is refused under R217; `reference` is the open size of limited-buffer rate matching. -/
def pduRefused (cell directions r reference : Nat) : Bool :=
  let want := if pdUplink r then 2 else 1
  let g := segmentation (pdTbs r) (pdRate r)
  pduReserved cell r || decide (clPrbs cell < pdPrb r + pdPrbs r) || decide (14 < pdStart r + pdSymbols r) ||
  (List.range 14).any (fun k => pdHas r k && planDirection directions k != want) ||
  (pdType r == 0 && decide (clSoftMiB cell * 16384 < pdSoft r + g.count * ceilDiv (circularBuffer r reference) 64)) ||
  (pdType r == 0 && clReceiver cell == 0 && decide (1 < pdLayers r))

/-- A PDU of a fetched plan. UCI of at most 11 bits has no polar block (R209). -/
def mkPdu (cell directions reference : Nat) (x : BitVec 512) : Pdu :=
  let r := x.toNat
  let empty := decide (pdPrbs r = 0 ∨ pdSymbols r = 0)
  let bad := pduRefused cell directions r reference
  { record := x, empty := empty && !bad, skipped := bad, tb := if bad then .refused else .pending,
    cbTotal := if pdType r = 0 ∨ pdType r = 1 then (segmentation (pdTbs r) (pdRate r)).count
      else if pdType r = 2 ∧ pdTbs r ≤ 11 then 0 else 1,
    foDisabled := pdType r == 0 && decide (((List.range 14).filter (fun k => bit (pdDmrsSymbols r) (13 - k))).length < 2) }

/-- The bytes a downlink PDU has read at DataAddress: a transport block, or a payload of bits (R216, R233). -/
def payloadBytes (r : Nat) : Nat :=
  match pdType r with
  | 1 => pdTbs r
  | 3 => ceilDiv (pdTbs r) 8
  | 4 => 4
  | _ => 0

/-- Read the payloads of downlink PDUs that have not been asked for, while the host port has tags (R233, R345). -/
def State.askPayloads (s : State) (c : CellId) (slot : Nat) : State :=
  match (s.cell c).plans.find? (fun p => p.slot == slot) with
  | none => s
  | some p =>
    (p.pdus.zipIdx).foldl (fun (s : State) q =>
      let n := payloadBytes q.1.record.toNat
      if q.1.live ∧ q.1.asked = false ∧ n ≠ 0 ∧ s.host.reads.length < 1024 ∧ s.linkUp ∧ s.ideBlocked = false then
        (s.issueRead .provider (pdData q.1.record.toNat).toNat n (.payload c slot (BitVec.ofNat 7 q.2))).updPlan c slot
          (fun p => p.updPdu q.2 (fun d => { d with asked := true }))
      else s) s

/-- Offset, in the fixed area of the RAN-reserved region, of the copy of a slot's plan, of its PUSCH records, of its argument
block, and of its cell record: the manual gives the area and not the places (R229, R309). -/
def planCopy (cell slot : Nat) : Nat := 16 * 2 ^ 20 + (cell * 4 + slot % 4) * 8192
def pduCopies (cell slot : Nat) : Nat := 32 * 2 ^ 20 + (cell * 4 + slot % 4) * 8192
def argumentBlock (cell slot : Nat) : Nat := 48 * 2 ^ 20 + (cell * 4 + slot % 4) * 64
def cellCopy (cell : Nat) : Nat := 49 * 2 ^ 20 + cell * 32

/-- A slot's plan is kept if its header is valid, or the slot runs as one without a plan (R217); a header whose SFN or slot R11 cannot order
with the slot's own is flagged. -/
def State.keepPlan (s : State) (c : CellId) (n : Nat) (good : Bool) (header : BitVec 512) (pdus : List (BitVec 512)) : State :=
  let x := s.cell c
  let cell := s.cellOf c
  let mu := clNum cell
  let h := header.toNat
  let sfn := n / slotsPerFrame mu % 1024
  let inFrame := n % slotsPerFrame mu
  let count := bits h 466 460
  let off := wrapDiff 10 sfn (bits h 511 502)
  let slotOff := wrapDiff 7 inFrame (bits h 501 495)
  let valid := good && off == some 0 && slotOff == some 0 && bits h 427 0 == 0 && decide (count ≤ pdus.length)
  let d := s.draw
  let base : SlotPlan := { slot := n, sfn := BitVec.ofNat 10 sfn, slotInFrame := BitVec.ofNat 7 inFrame, directions := 0, tag := 0,
                           missing := true, pdus := [] }
  let ps := (pdus.take count).map (mkPdu cell (bits h 494 467) d.1)
  let p := if valid then
      { base with directions := BitVec.ofNat 28 (bits h 494 467), tag := BitVec.ofNat 32 (bits h 459 428), missing := false, pdus := ps,
                  statuses := if ps.any (·.skipped) then [stInvalid] else [] }
    else base
  let s1 := (d.2.setCell c { x with fetching := x.fetching.erase n, plans := x.plans ++ [p] }).raiseIf
    (good && (off.isNone || slotOff.isNone)) { area := 0x50, kind := 0x10, detail := [(16, c.toNat)] }
  if valid then
    (s1.writeRan (planCopy c.toNat n) (leBytes 64 h ++ (pdus.take count).flatMap (fun r => leBytes 64 r.toNat)) hostUnit).askPayloads c n
  else s1

/-- A plan read returns, if its slot still waits for it. -/
def State.planArrived (s : State) (c : CellId) (n : Nat) (good : Bool) (header : BitVec 512) (pdus : List (BitVec 512)) : State :=
  if (s.cell c).fetching.contains n then s.keepPlan c n good header pdus else s

/-- The plan of a slot is read, once, in rising order; a slot whose plan cannot be fetched, for want of the ring, the link or a tag, runs as if it
were missing (R214, R217, R357, R472). (DEDUCED, assumption 57) -/
def State.fetchPlan (s : State) (c : CellId) (n : Nat) : State :=
  let x := s.cell c
  let ring := s.obj 0x5010 0 c.toNat
  if (match x.lastSlot with | some m => decide (n ≤ m) | none => false) then s
  else if planEnabled ring = false ∨ s.linkUp = false ∨ s.ideBlocked ∨ 1024 ≤ s.host.reads.length then
    (s.setCell c { x with lastSlot := some n }).keepPlan c n false 0 []
  else
    (s.setCell c { x with fetching := x.fetching ++ [n], lastSlot := some n }).issueRead .provider
      (planBase ring + n % 2 ^ planOrder ring * 8192) 8192 (.plan c n)

/-- The plan of the slot whose fetch instant has come is read, once (R214). Nothing is read before RadioReady or while
TimeQuality is UNSET (R56, R441); where the host port cannot read, the slot runs without a plan (R357, R429). -/
def effPlanFetch (c : CellId) (s : State) : State :=
  let cell := s.cellOf c
  if s.hasCell c = false ∨ s.noWork ∨ s.time.quality = .unset ∨ s.host.radioReady = false then s
  else (slotAt (clNum cell) (s.now16 + ns16 (clPlanLead cell))).elim s (fun n => s.fetchPlan c n)

/-- PLAN_FETCH (R214). -/
def execPlanFetch (cell : CellId) (s : State) : Host.Outcome State Fault Refusal := .next (effPlanFetch cell s)

/-- The oldest plan read of a cell completes (R217, R347). -/
def effPlanReadComplete (c : CellId) (result : ReadResult) (header : BitVec 512) (pdus : List (BitVec 512)) (s : State) : State :=
  match (s.cell c).fetching with
  | [] => s
  | n :: _ =>
    match s.findRead (.plan c n) with
    | none => s
    | some (tag, _) => (s.endRead tag).planArrived c n (result == .good) header pdus

/-- PLAN_READ_COMPLETE (R217). -/
def execPlanReadComplete (cell : CellId) (result : ReadResult) (header : BitVec 512) (pdus : List (BitVec 512)) (s : State) :
    Host.Outcome State Fault Refusal := .next (effPlanReadComplete cell result header pdus s)

/-- An offset of the RAN-reserved region where a stage's bytes go whose place the manual does not give: an open value (R226, R233). -/
def State.ranPlace (s : State) (pick : Nat) : Nat := pick % Nat.max 1 (2 * s.ranHalf)

/-- A downlink payload has been read: its bytes go to the RAN-reserved region; one that failed leaves its symbols to be filled (R233, R239).
(DEDUCED, assumption 67) -/
def State.payloadArrived (s : State) (c : CellId) (slot i : Nat) (good : Bool) (data : List Byte) : State :=
  let q := s.draw
  let s1 := if good ∧ 0 < s.ranHalf then q.2.writeRan (s.ranPlace q.1) data hostUnit else q.2
  (s1.updPlan c slot (fun p => p.updPdu i (fun d => { d with payload := if good then some data else none }))).askPayloads c slot

/-! ### C-plane (R225, R240) -/

/-- Whether radio traffic may be sent on a cell's link, or is treated as on a link that is down (R241, R265). -/
def State.linkUpFor (s : State) (cell : Nat) : Bool := (s.port (linkPort (clLink cell))).state == .up

/-- Whether the radio pipeline runs: nothing is sent, filled or completed while TimeQuality is UNSET (R241). -/
def State.radioRuns (s : State) : Bool := s.time.quality != .unset && !s.noWork

/-- The section type of a PDU's C-plane message: 3 for PRACH, 6 for channel information, else 1 (R225). -/
def cplaneSection (r : Nat) : Nat := if pdType r = 7 then 3 else if pdBfMode r = 2 then 6 else 1

/-- Weight vectors as extension 1 carries them: one exponent and the mantissas of BfwMantissa bits for each vector, or 16-bit values (R224, R225).
`fuel` bounds the vectors. -/
def packVectors (m n : Nat) (bytes : List Byte) : Nat → List Byte
  | 0 => []
  | fuel + 1 => if bytes.isEmpty then [] else compressPrb m (bytes.take n) ++ packVectors m n (bytes.drop n) fuel

/-- The weights of a PDU, packed. -/
def packWeights (m n : Nat) (bytes : List Byte) : List Byte := packVectors m (Nat.max 1 n) bytes (bytes.length + 1)

/-- A PDU's C-plane window has opened: one message per stream is queued, with its weights or channel information; weights that
are not in place are replaced by the beam's last ones or by zeros, and counted (R225, R240). -/
def effCplaneWindowOpen (c : CellId) (i : BitVec 7) (weights : Option (List Byte)) (s : State) : State :=
  let cell := s.cellOf c
  let mu := clNum cell
  let x := s.cell c
  match x.plans.find? (fun p => match p.pdus[i.toNat]? with | some d => d.live && !d.cplaneSent | none => false) with
  | none => s
  | some p =>
    match p.pdus[i.toNat]? with
    | none => s
    | some d =>
      let r := d.record.toNat
      let a := airStart mu p.slot (pdStart r)
      if s.radioRuns = false ∨ s.now16 + ns16 (clDlAdvanceMax cell + clCplaneLead cell) < a then s
      else
        let s1 := s.updPlan c p.slot (fun p => p.updPdu i.toNat (fun d => { d with cplaneSent := true }))
        if s.linkUpFor cell = false then s1.updPlan c p.slot (fun p => { p with linkDown := true })
        else
          let mode := pdBfMode r
          let need := weightBytes cell r
          -- a read at AuxAddress that the host link cannot make brings nothing
          let weights := if s.linkUp ∧ s.ideBlocked = false then weights.map (fun w => (w ++ List.replicate need 0).take need) else none
          let kept := if clRepeat cell then (Tab.get [] x.weights (pdBeam r)) else []
          let w := if mode = 0 then [] else match weights with | some w => w | none => if kept.isEmpty then List.replicate need 0 else kept
          let s2 := if mode = 1 ∧ weights.isNone then s1.countFill c p.slot 1 else s1
          let x2 := s2.cell c
          let s3 := if mode = 1 then s2.setCell c { x2 with weights := Tab.set [] x2.weights (pdBeam r) w } else s2
          (pduStreams cell r).foldl (fun s stream =>
            let q := s.draw
            let body := Config.cplaneBody (cplaneSection r) cell r p.slot stream (if mode = 1 then packWeights (clBfwMantissa cell) (4 * clRuTrx cell) w else w)
            let f := q.2.fronthaulHeader cell false ++ ecpriHeader 2 (4 + body.length) (clEaxcBase cell + stream) (q.1 % 256) ++ body
            q.2.queueRadio (linkPort (clLink cell)) 7 f (.cplane c p.slot) a) s3

/-- CPLANE_WINDOW_OPEN (R225). -/
def execCplaneWindowOpen (cell : CellId) (pdu : BitVec 7) (weights : Option (List Byte)) (s : State) : Host.Outcome State Fault Refusal :=
  .next (effCplaneWindowOpen cell pdu weights s)

/-! ### Downlink U-plane (R238, R239, R241) -/

/-- A downlink eAxC-symbol's payload is complete in the block's buffer: kept until its window opens, sent when it is open, or
discarded and counted after its deadline was judged (R239). -/
def effDlPayloadComplete (c : CellId) (k : BitVec 4) (stream : BitVec 5) (samples : List Byte) (s : State) : State :=
  let cell := s.cellOf c
  match (s.cell c).plans.find? (fun p => (p.dlStreams cell k.toNat).contains stream.toNat && !(p.dlSym k.toNat stream.toNat).complete) with
  | none => s
  | some p =>
    let v := p.dlSym k.toNat stream.toNat
    let put := fun (s : State) (v : DlSymbol) => s.updPlan c p.slot (fun p => p.setDlSym k.toNat stream.toNat v)
    if v.judged then (put s { v with complete := true }).fhStat (clLink cell) 4
    else if p.windowOpen.getLsbD k.toNat ∧ s.linkUpFor cell ∧ s.radioRuns then
      (put s { v with complete := true, queued := true }).queueUplane c p k.toNat stream.toNat samples
    else put s { v with complete := true, payload := samples }

/-- DL_PAYLOAD_COMPLETE (R239). -/
def execDlPayloadComplete (cell : CellId) (symbol : BitVec 4) (stream : BitVec 5) (samples : List Byte) (s : State) :
    Host.Outcome State Fault Refusal := .next (effDlPayloadComplete cell symbol stream samples s)

/-- Queue every complete payload of a symbol that has not been queued. -/
def State.queueComplete (s : State) (c : CellId) (slot k : Nat) : State :=
  let cell := s.cellOf c
  match (s.cell c).plans.find? (fun p => p.slot == slot) with
  | none => s
  | some p =>
    (p.dlStreams cell k).foldl (fun s i =>
      let v := p.dlSym k i
      if v.complete ∧ v.queued = false ∧ v.judged = false then
        (s.updPlan c slot (fun p => p.setDlSym k i { v with queued := true, payload := [] })).queueUplane c p k i v.payload
      else s) s

/-- The U-plane send window of a symbol opens: what is complete is sent (R238). -/
def effUplaneWindowOpen (c : CellId) (k : BitVec 4) (s : State) : State :=
  let cell := s.cellOf c
  match (s.cell c).plans.find? (fun p => k.toNat < 14 && !p.windowOpen.getLsbD k.toNat && !(p.dlStreams cell k.toNat).isEmpty) with
  | none => s
  | some p =>
    if s.radioRuns = false ∨ s.now16 + ns16 (clDlAdvanceMax cell) < airStart (clNum cell) p.slot k.toNat then s
    else
      let s1 := s.updPlan c p.slot (fun p => { p with windowOpen := p.windowOpen ||| BitVec.ofNat 14 (2 ^ k.toNat) })
      if s.linkUpFor cell then s1.queueComplete c p.slot k.toNat else s1

/-- UPLANE_WINDOW_OPEN (R238). -/
def execUplaneWindowOpen (cell : CellId) (symbol : BitVec 4) (s : State) : Host.Outcome State Fault Refusal :=
  .next (effUplaneWindowOpen cell symbol s)

/-- One eAxC-symbol is judged at its deadline: queued payload stands, what is not complete is filled, and on a link that is down
nothing is sent and it counts as fill (R239, R241). -/
def State.judge (s : State) (c : CellId) (p : SlotPlan) (k i : Nat) : State :=
  let cell := s.cellOf c
  let v := (((s.cell c).plans.find? (fun q => q.slot == p.slot)).getD p).dlSym k i
  let put := fun (s : State) (v : DlSymbol) => s.updPlan c p.slot (fun p => p.setDlSym k i { v with judged := true })
  if s.linkUpFor cell = false then
    if v.sent then put s v
    else (put s { v with sent := true, payload := [] }).countFill c p.slot 1
  else if v.queued then put s v
  else if v.complete then (put s { v with queued := true, payload := [] }).queueUplane c p k i v.payload
  else
    let zeros := List.replicate (48 * (p.dlSections cell k i).foldl (fun a q => a + q.2) 0) 0
    ((put s { v with queued := true }).queueUplane c p k i zeros).countFill c p.slot 1

/-- The watchdog judges a downlink symbol at its deadline, once (R239). -/
def effDeadlineWatchdog (c : CellId) (k : BitVec 4) (s : State) : State :=
  let cell := s.cellOf c
  match (s.cell c).plans.find? (fun p => k.toNat < 14 && !p.judged.getLsbD k.toNat && !(p.dlStreams cell k.toNat).isEmpty) with
  | none => s
  | some p =>
    if s.radioRuns = false ∨ s.now16 < s.dlDeadline cell p.slot k.toNat then s
    else
      let s1 := s.updPlan c p.slot (fun p => { p with judged := p.judged ||| BitVec.ofNat 14 (2 ^ k.toNat),
                                                      linkDown := p.linkDown || !s.linkUpFor cell })
      (p.dlStreams cell k.toNat).foldl (fun s i => s.judge c p k.toNat i) s1

/-- DEADLINE_WATCHDOG (R239). -/
def execDeadlineWatchdog (cell : CellId) (symbol : BitVec 4) (s : State) : Host.Outcome State Fault Refusal :=
  .next (effDeadlineWatchdog cell symbol s)

/-! ### Uplink windows and receiver charts (R222, R229) -/

/-- The PRBs of a PDU that have not arrived in a symbol, as (stream, PRB). -/
def SlotPlan.missingPrbs (p : SlotPlan) (cell k r : Nat) : List (Nat × Nat) :=
  (pduStreams cell r).flatMap (fun i => ((List.range (pdPrbs r)).map (pdPrb r + ·)).filter (fun b =>
    !(Tab.get false p.ul ((32 * k + i) * 512 + b))) |>.map (fun b => (i, b)))

def chContext (r : Nat) : ContextId := BitVec.ofNat 10 (bits r 127 118)
def chLearned (r : Nat) : Bool := bit r 117
def chSteps (r : Nat) : Nat := bits r 116 101
def chList (r : Nat) : W64 := BitVec.ofNat 64 (bits r 63 0)

/-- The Gallery issues the receiver chart of a slot's PUSCH: the argument block and the copies of their records are written, and
the chart's step list becomes a batch of its context (R229). Where its output and noise buffers lie is an open value.
(DESIGN CHOICE, assumption 62) -/
def State.issueReceiver (s : State) (c : CellId) (p : SlotPlan) : State :=
  let cell := s.cellOf c
  let chart := s.act 0x5005 0 (clChart cell)
  let pusch := p.pdus.filter (fun d => d.live && pdType d.record.toNat == 0)
  let o := s.draw
  let v := o.2.draw
  let n := c.toNat
  let args := [s.ranAddress (sampleOffset s.vers.active n + sampleAt cell p.slot 0 0 0), s.ranAddress (pduCopies n p.slot), pusch.length, o.1, v.1,
               s.ranAddress (cellCopy n), p.slot, 0]
  let s1 := v.2.writeRan (pduCopies n p.slot) (pusch.flatMap (fun d => leBytes 64 d.record.toNat)) controlUnit
  let s2 := (s1.writeRan (cellCopy n) (leBytes 32 cell) controlUnit).writeRan (argumentBlock n p.slot) (args.flatMap (leBytes 8)) controlUnit
  let b : Batch := { id := s2.nextBatch, origin := .receiver c, context := chContext chart, generation := 0, stepCount := chSteps chart,
                     tag := 0, msix := false, listAddress := chList chart,
                     argument := BitVec.ofNat 64 (s2.ranAddress (argumentBlock n p.slot)), input := 0, output := 0 }
  { s2 with batches := s2.batches ++ [b], nextBatch := s2.nextBatch + 1 }.updPlan c p.slot (fun p => { p with receiverIssued := true })

/-- An uplink symbol's window closes: PRBs that have not arrived are zero samples, and the PDUs they touch say so (R222). After
the last symbol of the slot's PUSCH, the cell's receiver chart is issued (R229). -/
def effUlWindowClose (c : CellId) (k : BitVec 4) (s : State) : State :=
  let cell := s.cellOf c
  let mu := clNum cell
  let k := k.toNat
  match (s.cell c).plans.find? (fun p => k < 14 && !p.ulClosed.getLsbD k && planDirection p.directions.toNat k == 2) with
  | none => s
  | some p =>
    if s.radioRuns = false ∨ s.now16 < airStart mu p.slot (k + 1) + ns16 (clUlArriveMax cell) then s
    else
      let s1 := s.updPlan c p.slot (fun p => { p with ulClosed := p.ulClosed ||| BitVec.ofNat 14 (2 ^ k) })
      let base := sampleOffset s.vers.active c.toNat
      let s2 := (p.pdus.zipIdx).foldl (fun s q =>
        let r := q.1.record.toNat
        -- a PRACH occasion closes as a whole, at its end
        let ks := if q.1.live = false ∨ pdUplink r = false then []
          else (List.range 14).filter (fun m => pdHas r m && decide (arrivalSymbol r m = k))
        let gone := ks.flatMap (fun m => (p.missingPrbs cell m r).map (fun g => (m, g)))
        if gone.isEmpty then s
        else
          let s1 := gone.foldl (fun s g => s.writeRan (base + sampleAt cell p.slot g.2.1 g.1 g.2.2) (List.replicate 48 0)
            (portUnit (linkPort (clLink cell)))) s
          s1.updPlan c p.slot (fun p => { p.updPdu q.2 (fun d => { d with samplesMissing := true }) with samplesMissing := true })) s1
      let closed := fun (n : Nat) => n == k || p.ulClosed.getLsbD n
      let pusch := p.pdus.filter (fun d => d.live && pdType d.record.toNat == 0)
      let last := !pusch.isEmpty && pusch.all (fun d => closed (pdStart d.record.toNat + pdSymbols d.record.toNat - 1))
      if last ∧ p.receiverIssued = false ∧ clReceiver cell ≠ 0 then
        match (s2.cell c).plans.find? (fun q => q.slot == p.slot) with
        | some q => s2.issueReceiver c q
        | none => s2
      else s2

/-- UL_WINDOW_CLOSE (R222). -/
def execUlWindowClose (cell : CellId) (symbol : BitVec 4) (s : State) : Host.Outcome State Fault Refusal :=
  .next (effUlWindowClose cell symbol s)

/-! ### Results and completions (R218 to R220, R232) -/

/-- Whether a PDU's result is known. -/
def Pdu.decided (d : Pdu) : Bool := d.tb != .pending

/-- Whether a PDU has a result record: every PUSCH and PUCCH that is not empty (R220). -/
def Pdu.hasResult (d : Pdu) : Bool := !d.empty && (pdType d.record.toNat == 0 || pdType d.record.toNat == 2)

/-- The deadline of a slot's uplink results has passed: a block with code blocks not started reads NOT_DECODED (R232). -/
def effUlResultDeadline (c : CellId) (s : State) : State :=
  let cell := s.cellOf c
  let mu := clNum cell
  let waits := fun (d : Pdu) => d.hasResult && !d.decided && decide (d.cbStarted < d.cbTotal ∨ d.cbTotal = 0)
  match (s.cell c).plans.find? (fun p => p.pdus.any waits) with
  | none => s
  | some p =>
    if s.radioRuns = false ∨ s.now16 < airStart mu p.slot 14 + ns16 (clUlResultDeadline cell) then s
    else s.updPlan c p.slot (fun p => { p with pdus := p.pdus.map (fun d => if waits d then { d with tb := .notDecoded } else d) })

/-- UL_RESULT_DEADLINE (R232). -/
def execUlResultDeadline (cell : CellId) (s : State) : Host.Outcome State Fault Refusal := .next (effUlResultDeadline cell s)

/-- The number TbState is written with (R220). -/
def TbState.code : TbState → Nat
  | .pending | .crcPass => 0
  | .crcFail => 1
  | .notDecoded => 2
  | .refused => 3

/-- The decoded bytes of a PDU: its code blocks in order. -/
def Pdu.decoded (d : Pdu) : List Byte := ((List.range d.cbTotal).flatMap (fun i => Tab.get [] d.bits i))

/-- The result record of an uplink PDU (R220); the SINR, and the offset of a PDU
that is not corrected, are open values. -/
def Pdu.result (d : Pdu) (sinr offset : Nat) : List Byte :=
  leBytes 16 (d.tb.code * 2 ^ 120 + d.iterations.toNat * 2 ^ 112 + d.cbFailed.toNat * 2 ^ 96 + d.cbTotal % 65536 * 2 ^ 80 +
    b2n d.softLost * 2 ^ 79 + b2n d.samplesMissing * 2 ^ 78 + b2n d.foDisabled * 2 ^ 77 + sinr % 65536 * 2 ^ 48 + offset % 65536 * 2 ^ 32)

/-- A PDU's result record is written at AuxAddress, after its decoded block at DataAddress (R220). (DEDUCED, assumption 65) -/
def effUlResultRecordWrite (c : CellId) (i : BitVec 7) (s : State) : State :=
  match (s.cell c).plans.find? (fun p => match p.pdus[i.toNat]? with | some d => d.hasResult && d.decided && !d.resultWritten | none => false) with
  | none => s
  | some p =>
    match p.pdus[i.toNat]? with
    | none => s
    | some d =>
      if s.radioRuns = false then s
      else
        let r := d.record.toNat
        let a := s.draw
        let b := a.2.draw
        let n := if pdType r = 0 then pdTbs r else ceilDiv (pdTbs r) 8
        let s1 := if d.tb = .crcPass then
            b.2.post { source := .provider, address := pdData r, bytes := d.decoded.take n, purpose := .radio }
          else b.2
        let offset := match d.offset (clNum (s.cellOf c)) p.slot with | some f => f.toNat | none => b.1
        (s1.post { source := .provider, address := pdAux r, bytes := d.result a.1 offset, purpose := .radio }).updPlan c p.slot
          (fun p => p.updPdu i.toNat (fun d => { d with resultWritten := true }))

/-- UL_RESULT_RECORD_WRITE (R220). -/
def execUlResultRecordWrite (cell : CellId) (pdu : BitVec 7) (s : State) : Host.Outcome State Fault Refusal :=
  .next (effUlResultRecordWrite cell pdu s)

/-- Whether a slot is finished: its last downlink symbol has been sent, and every uplink block has its result (R219). -/
def SlotPlan.finished (p : SlotPlan) (cell : Nat) : Bool :=
  (List.range 14).all (fun k => (p.dlStreams cell k).all (fun i => (p.dlSym k i).sent)) &&
  p.pdus.all (fun d => !d.hasResult || d.resultWritten)

/-- The 32-byte radio completion record (R219). -/
def SlotPlan.completion (p : SlotPlan) (c : CellId) (phase overflow : Bool) (time : BitVec 96) : Nat :=
  let count := fun (f : Pdu → Bool) => (p.pdus.filter (fun d => pdType d.record.toNat == 0 && f d)).length
  c.toNat * 2 ^ 247 + p.sfn.toNat * 2 ^ 237 + p.slotInFrame.toNat * 2 ^ 230 + b2n phase * 2 ^ 224 + p.tag.toNat * 2 ^ 192 + (carried p.statuses).toNat * 2 ^ 184 +
  b2n p.missing * 2 ^ 183 + b2n p.samplesMissing * 2 ^ 182 + b2n p.linkDown * 2 ^ 181 + b2n overflow * 2 ^ 180 + p.fillCount.toNat * 2 ^ 160 +
  count (fun d => d.tb == .crcPass) % 65536 * 2 ^ 144 + count (fun d => d.tb == .crcFail || d.tb == .notDecoded) % 65536 * 2 ^ 128 + time.toNat

/-- The completion of a cell's oldest slot that is finished goes to the radio ring; where there is no room or no ring it is
dropped and counted (R219). -/
def effRadioCompletionWrite (c : CellId) (s : State) : State :=
  let cell := s.cellOf c
  let x := s.cell c
  match x.plans.find? (fun p => p.finished cell) with
  | none => s
  | some p =>
    if s.radioRuns = false ∧ s.integ.fenced = false then s
    else
      let base := s.obj 0x5011 1 0
      let size := 2 ^ s.obj 0x5011 2 0
      let w := s.radio.ringWritten.toNat
      let used := (s.radio.ringWritten - s.radio.ringConsumed.setWidth 32).toNat
      let s1 := (s.setCell c { x with plans := x.plans.filter (fun q => q.slot ≠ p.slot) }).raiseConditions p.statuses none none
      if base = 0 ∨ size ≤ used then
        { s1 with radio := { s1.radio with dropped := s1.radio.dropped + 1, overflow := s1.radio.overflow || base != 0 } }
      else
        let rec' := p.completion c (phaseAt w size) s.radio.overflow s.now
        let s2 := s1.post { source := .provider, address := BitVec.ofNat 64 (base + 32 * (w % size)), bytes := leBytes 32 rec', purpose := .radio }
        let s3 := { s2 with radio := { s2.radio with ringWritten := s2.radio.ringWritten + 1, overflow := false } }
        if s.obj 0x5011 3 0 = 0xFFFF then s3 else s3.msix .provider (s.obj 0x5011 3 0)

/-- RADIO_COMPLETION_WRITE (R219). -/
def execRadioCompletionWrite (cell : CellId) (s : State) : Host.Outcome State Fault Refusal := .next (effRadioCompletionWrite cell s)

end Sys2Proof.Machine
end

