-- ==== Sys2Proof/Machine/Coding.lean ====
section
/-!
DEFINITION. Coding units: admission with the cycle counts of R237, soft buffers, the completion of operations (R228, R231, R232,
R235, R237). What the codes and transforms compute is TS 38.212's and the configuration's; what is done with it is the manual's.
-/

namespace Sys2Proof.Machine

/-! ### Cycle counts (R237) -/

/-- Logarithm to base 2, rounded down. -/
def log2 (n : Nat) : Nat := Nat.log2 n

/-- Cycles of one decoder iteration over Q rows. -/
def iterationCycles (q z : Nat) : Nat := q * (4 + 4 * ceilDiv z 128)

/-- Rows used, from the number of circular-buffer positions that hold an LLR. -/
def rowsUsed (b : CodeBlock) (positions : Nat) : Nat :=
  let n := ceilDiv positions (Nat.max 1 b.z.toNat)
  if b.baseGraph2 then min 42 (Nat.max 4 (n - 8)) else min 46 (Nat.max 4 (n - 20))

/-- C of a decode with I iterations over Q rows. -/
def decodeC (b : CodeBlock) (i q : Nat) : Nat := 64 + ceilDiv b.e.toNat 64 + i * iterationCycles q b.z.toNat + ceilDiv b.k.toNat 128
def decodeInterval (b : CodeBlock) (i q : Nat) : Nat := 32 + Nat.max (ceilDiv b.e.toNat 64) (i * iterationCycles q b.z.toNat)
def encodeC (b : CodeBlock) : Nat := 31 + ceilDiv b.k.toNat 128 + ceilDiv b.e.toNat 1024
def polarDecodeC (n : Nat) : Nat := 96 + n * log2 n / 4
def polarEncodeC (n : Nat) : Nat := 16 + n / 64
def dftC (m : Nat) : Nat := 48 + 5 * ceilDiv m 8
def interpolationC (m : Nat) : Nat := 24 + ceilDiv m 16
def prachC (roots length : Nat) : Nat := 64 + roots * (2 * ceilDiv length 8 + 32)

/-- The largest iteration limit, from the cell's downward, whose C fits a MaxPass limit; none where not even one does (R237). -/
def iterationLimit (b : CodeBlock) (q maxPass : Nat) : Nat → Option Nat
  | 0 => none
  | i + 1 => if decodeC b (i + 1) q ≤ maxPass then some (i + 1) else iterationLimit b q maxPass i

/-! ### Units -/

def ldUnit (u : Fin 24) : UnitId := unitId 7 u.val
def leUnit (u : Fin 8) : UnitId := unitId 8 u.val
def plUnit (u : Fin 4) : UnitId := unitId 9 u.val
def tuUnit (u : Fin 8) : UnitId := unitId 0x0A u.val
def pcUnit (u : Fin 8) : UnitId := unitId 0x0B u.val

def State.unit (s : State) (u : UnitId) : CodingUnit := Tab.get {} s.radio.units u.toNat
def State.setUnit (s : State) (u : UnitId) (x : CodingUnit) : State :=
  { s with radio := { s.radio with units := Tab.set {} s.radio.units u.toNat x } }

/-- The oldest slot of a cell in which a PDU of a code block is live and not decided, with the PDU. (DEDUCED, assumption 66) -/
def State.blockPdu (s : State) (b : CodeBlock) (want : Pdu → Bool) : Option (SlotPlan × Pdu) :=
  (s.cell b.cell).plans.findSome? (fun p =>
    match p.pdus[b.pdu.toNat]? with
    | some d => if d.live && want d then some (p, d) else none
    | none => none)

/-- Whether a unit may start an operation of C cycles on cycle n: an open RAN window that names it, the conditions of R78, its
issue interval, and no late work of the window before (R78, R80, R82, R237). -/
def State.mayStartUnit (s : State) (u : UnitId) (c n : Nat) : Bool :=
  let x := s.unit u
  s.mayStart && !x.stopped && decide (x.freeAt ≤ n) && !(s.island u).waitsForLate &&
  (match s.openWindow u with
   | none => false
   | some l => winClass l.win == 0 && l.fits c n)

/-- An operation starts on a unit. -/
def State.startUnit (s : State) (u : UnitId) (n c interval : Nat) (o : CodingOp) : State :=
  let x := s.unit u
  s.setUnit u { x with ops := x.ops ++ [{ o with cycles := c, ends := ((n + c : Nat) : Int) }], freeAt := n + interval }

/-! ### LDPC (R231, R232, R237) -/

/-- Where transmission starts in the circular buffer, by redundancy version (TS 38.212, table 5.4.2.1-2). -/
def startPosition (b : CodeBlock) (rv : Nat) : Nat :=
  let z := b.z.toNat
  let f := fun (num den : Nat) => num * b.ncb.toNat / (den * Nat.max 1 z) * z
  if b.baseGraph2 then (match rv with | 0 => 0 | 1 => f 13 50 | 2 => f 25 50 | _ => f 43 50)
  else (match rv with | 0 => 0 | 1 => f 17 66 | 2 => f 33 66 | _ => f 56 66)

/-- The fillers of a code block in its circular buffer: first and count (TS 38.212, clause 5.4.2.1: they carry no bit). -/
def fillers (b : CodeBlock) (bits : Nat) : Nat × Nat :=
  let n := b.ncb.toNat
  let first := min n (bits - 2 * b.z.toNat)
  (first, min n (b.k.toNat - 2 * b.z.toNat) - first)

/-- Circular-buffer positions of E received LLRs: from the start on, wrapping and past the fillers, in the order of the bit de-interleaver
(TS 38.212). `bits` counts the block's bits before its fillers. -/
def receivedPositions (b : CodeBlock) (bits rv mod' : Nat) : List Nat :=
  let e := b.e.toNat
  let q := Nat.max 1 mod'
  let cols := Nat.max 1 (e / q)
  let f := fillers b bits
  let usable := Nat.max 1 (b.ncb.toNat - f.2)
  let k0 := startPosition b rv
  let start := if k0 ≤ f.1 then k0 else if k0 < f.1 + f.2 then f.1 else k0 - f.2
  (List.range e).map (fun t =>
    let u := (start + t / cols + t % cols * q) % usable
    if u < f.1 then u else u + f.2)

/-- Saturating sum of two INT8 LLRs, at ±127 (R231). -/
def addLlr (a b : Byte) : Byte := BitVec.ofInt 8 (max (-127) (min 127 (a.toInt + b.toInt)))

/-- The soft buffer after a transmission: overwritten, with zeros where nothing was received, or added to (R231). -/
def combineLlrs (old : Tab Byte) (newData : Bool) (positions : List Nat) (llrs : List Byte) : Tab Byte :=
  (positions.zip llrs).foldl (fun t q => Tab.set 0 t q.1 (addLlr (Tab.get 0 t q.1) q.2)) (if newData then [] else old)

/-- Offset of a code block's soft buffer in the RAN-reserved region (R231). -/
def State.softAt (s : State) (b : CodeBlock) (r : Nat) : Nat :=
  softOffset s.vers.active b.cell.toNat + 64 * (pdSoft r + b.index.toNat * ceilDiv b.ncb.toNat 64)

/-- Whether a code block's shape is that of its PDU's segmentation (R216, TS 38.212). -/
def blockFits (b : CodeBlock) (r : Nat) : Bool :=
  let g := segmentation (pdTbs r) (pdRate r)
  b.baseGraph2 == g.graph2 && b.z.toNat == g.z && b.k.toNat == g.k && decide (b.index.toNat < g.count) &&
  (if pdLbrm r then decide (b.ncb.toNat ≤ g.n) else b.ncb.toNat == g.n)

/-- Whether the LLRs of a PUSCH have been demapped and blocks of it are still to be started. -/
def Pdu.waitsForDecoder (d : Pdu) : Bool :=
  d.live && pdType d.record.toNat == 0 && !d.decided && decide (d.cbStarted < d.cbTotal) && !(Tab.get [] d.stages 0x05).isEmpty

/-- Whether a block of another PDU comes first: by the instant of its UlResultDeadline, then by cell, then by PDU (R231). -/
def State.earlierBlock (s : State) (b : CodeBlock) (slot : Nat) : Bool :=
  let due := fun (cell n : Nat) => let r := cellRec s.vers.active cell; airStart (clNum r) n 14 + ns16 (clUlResultDeadline r)
  let mine := due b.cell.toNat slot
  s.radio.cells.any (fun q => q.2.plans.any (fun p => (p.pdus.zipIdx).any (fun d => d.1.waitsForDecoder &&
    (let theirs := due q.1 p.slot
     decide (theirs < mine ∨ (theirs = mine ∧ (q.1 < b.cell.toNat ∨ (q.1 = b.cell.toNat ∧ p.slot = slot ∧ d.2 < b.pdu.toNat))))))))

/-- A code block is admitted to a decoder: its soft buffer is combined and written back, and decoding starts (R231, R232, R237).
Blocks of a PDU start in order, and PDUs in that of R231; one of a block that was decided does not start. The LLRs are those the demapper
wrote for the PDU, or where a chart wrote them, those read from its buffer. -/
def effLdpcDecode (u : UnitId) (b : CodeBlock) (read : List Byte) (n : Nat) (s : State) : State :=
  match s.blockPdu b (fun d => pdType d.record.toNat == 0 && !d.decided && decide (d.cbStarted < d.cbTotal)) with
  | none => s
  | some (p, d) =>
    let r := d.record.toNat
    let at' := s.softAt b r
    let demapped := Tab.get [] d.stages 0x05
    let llrs := if demapped.isEmpty then read else demapped.take b.e.toNat
    let q := if pdNewData r then (s, [], []) else s.readRan at' b.ncb.toNat u
    let lost := q.2.2.contains stDataLost
    let old : Tab Byte := if lost then [] else (q.2.1.zipIdx).foldl (fun t v => Tab.set 0 t v.2 v.1) []
    let pos := receivedPositions b (segmentation (pdTbs r) (pdRate r)).bits (pdRv r) (pdMod r)
    let t := combineLlrs old (pdNewData r || lost) pos llrs
    let held := ((List.range b.ncb.toNat).filter (fun i => pos.contains i || Tab.get 0 t i ≠ 0)).length
    let rows := rowsUsed b held
    match (s.openWindow u).bind (fun l => iterationLimit b rows l.maxPass (clMaxIterations (s.cellOf b.cell))) with
    | none => s
    | some i =>
      let c := decodeC b i rows
      if s.mayStartUnit u c n = false ∨ b.index.toNat ≠ d.cbStarted ∨ blockFits b r = false ∨ s.earlierBlock b p.slot then s
      else
        let bytes := Tab.readBytes t 0 b.ncb.toNat
        let s1 := q.1.writeRan at' bytes u
        let y := Config.ldpcDecode bytes b.baseGraph2 b.z.toNat b.k.toNat (d.cbTotal == 1) i
        let s2 := s1.updPlan b.cell p.slot (fun p => p.updPdu b.pdu.toNat (fun d =>
          { d with cbStarted := d.cbStarted + 1, softLost := d.softLost || lost, stages := Tab.set [] d.stages 0x05 (demapped.drop b.e.toNat) }))
        s2.startUnit u n c (decodeInterval b i rows)
          { kind := .ldpcDecode, block := b, slot := p.slot, cycles := c, ends := 0, limit := i, input := [], result := y.1,
            used := min y.2.1 i, good := y.2.2 }

/-- LDPC_DECODE (R237). -/
def execLdpcDecode (unit : Fin 24) (block : CodeBlock) (llrs : List Byte) (cycle : BitVec 40) (s : State) :
    Host.Outcome State Fault Refusal := .next (effLdpcDecode (ldUnit unit) block llrs cycle.toNat s)

/-- An operation with no state of its own starts on a unit for a live PDU. -/
def State.startPlain (s : State) (u : UnitId) (b : CodeBlock) (want : Nat → Bool) (kind : CodingKind) (c interval n : Nat)
    (result : Pdu → List Byte × Bool) : State :=
  match s.blockPdu b (fun d => want d.record.toNat) with
  | none => s
  | some (p, d) =>
    if s.mayStartUnit u c n = false then s
    else
      let y := result d
      s.startUnit u n c interval
        { kind, block := b, slot := p.slot, cycles := c, ends := 0, limit := 0, input := [], result := y.1, used := 0, good := y.2 }

/-- The code block of a downlink PDU as its encoder takes it: the PDU's payload and the block's index. -/
def Pdu.encoderInput (d : Pdu) (b : CodeBlock) : List Byte := b.index :: (d.payload.getD [])

/-- LDPC_ENCODE (R237): only once the transport block has been read (R233). -/
def execLdpcEncode (unit : Fin 8) (block : CodeBlock) (cycle : BitVec 40) (s : State) : Host.Outcome State Fault Refusal :=
  .next (match s.blockPdu block (fun d => pdType d.record.toNat == 1 && d.payload.isSome) with
    | none => s
    | some _ => s.startPlain (leUnit unit) block (fun r => pdType r == 1) .ldpcEncode (encodeC block) (encodeC block - 24) cycle.toNat
        (fun d => (Config.ldpcEncode (d.encoderInput block) block.e.toNat, true)))

/-! ### Polar, transforms, PRACH (R228, R235, R237) -/

/-- POLAR_DECODE (R237): UCI of a PUCCH. -/
def execPolarDecode (unit : Fin 4) (block : CodeBlock) (llrs : List Byte) (cycle : BitVec 40) (s : State) : Host.Outcome State Fault Refusal :=
  .next (match s.blockPdu block (fun d => pdType d.record.toNat == 2 && !d.decided && d.cbStarted == 0 && decide (d.cbTotal = 1)) with
    | none => s
    | some (p, _) =>
      let c := polarDecodeC block.ncb.toNat
      -- a decoder takes N up to 1,024
      if 1024 < block.ncb.toNat ∨ s.mayStartUnit (plUnit unit) c cycle.toNat = false then s
      else (s.startPlain (plUnit unit) block (fun r => pdType r == 2) .polarDecode c c cycle.toNat
          (fun d => let demapped := Tab.get [] d.stages 0x05
                    Config.polarDecode (if demapped.isEmpty then llrs else demapped) block.ncb.toNat)).updPlan block.cell p.slot
            (fun p => p.updPdu block.pdu.toNat (fun d => { d with cbStarted := 1 })))

/-- POLAR_ENCODE (R237): PDCCH and PBCH. -/
def execPolarEncode (unit : Fin 4) (block : CodeBlock) (cycle : BitVec 40) (s : State) : Host.Outcome State Fault Refusal :=
  let c := polarEncodeC block.ncb.toNat
  .next (s.startPlain (plUnit unit) block (fun r => pdType r == 3 || pdType r == 4) .polarEncode c c cycle.toNat
    (fun d => (Config.polarEncode (d.encoderInput block) block.e.toNat, true)))

/-- DFT (R237): a DFT or inverse DFT over the PDU's subcarriers; transform decoding takes the equalised symbols (R226). -/
def execDft (unit : Fin 8) (block : CodeBlock) (inverse : Bool) (samples : List Byte) (cycle : BitVec 40) (s : State) :
    Host.Outcome State Fault Refusal :=
  .next (match s.blockPdu block (fun _ => true) with
    | none => s
    | some (_, d) =>
      let m := 12 * pdPrbs d.record.toNat
      s.startPlain (tuUnit unit) block (fun _ => true) .dft (dftC m) (dftC m) cycle.toNat (fun d =>
        let symbols := Tab.get [] d.stages 0x04
        (Config.dft inverse m (if pdUplink d.record.toNat && !symbols.isEmpty then symbols else samples), true)))

/-- INTERPOLATION of the PDU's least-squares estimates to every subcarrier (R228, R237). -/
def execInterpolation (unit : Fin 8) (block : CodeBlock) (subcarriers : BitVec 12) (samples : List Byte) (cycle : BitVec 40) (s : State) :
    Host.Outcome State Fault Refusal :=
  let c := interpolationC subcarriers.toNat
  .next (s.startPlain (tuUnit unit) block (fun _ => true) .interpolation c c cycle.toNat
    (fun d =>
      let estimates := Tab.get [] d.stages 0x03
      (Config.interpolate subcarriers.toNat (if estimates.isEmpty then samples else estimates), true)))

/-- Length of a PRACH sequence by format code: formats 0 to 3 are long (R235). -/
def prachLength (format : Nat) : Nat := if format ≤ 3 then 839 else 139

/-- The report of a PRACH occasion: the count, and up to 64 records of 8 bytes (R235). -/
def prachReport (found : List (Nat × Nat × Nat)) : List Byte :=
  let fs := found.take 64
  leBytes 4 fs.length ++ fs.flatMap (fun f => leBytes 8 (f.1 % 64 * 2 ^ 58 + f.2.1 % 65536 * 2 ^ 42 + f.2.2 % 65536 * 2 ^ 26))

/-- PRACH_CORRELATION of one stream of an occasion (R235, R237). -/
def execPrachCorrelation (unit : Fin 8) (block : CodeBlock) (roots : BitVec 6) (samples : List Byte) (cycle : BitVec 40) (s : State) :
    Host.Outcome State Fault Refusal :=
  .next (match s.blockPdu block (fun d => pdType d.record.toNat == 7) with
    | none => s
    | some (_, d) =>
      let f := pdDetail d.record.toNat
      let c := prachC roots.toNat (prachLength f)
      s.startPlain (pcUnit unit) block (fun r => pdType r == 7) .prach c c cycle.toNat
        (fun _ => (samples, true)))

/-- The report of a PRACH occasion every uplink stream of which has been searched: the detection over all of them.
(DESIGN CHOICE, assumption 175) -/
def State.prachOccasion (s : State) (cell : CellId) (d : Pdu) : List Byte :=
  let f := pdDetail d.record.toNat
  let streams := (List.range (clUlStreams (s.cellOf cell))).map (Tab.get [] d.bits)
  prachReport (Config.prachDetect streams f (s.act 0x5006 0 f))

/-! ### CODING_OP_COMPLETE -/

/-- What an operation's end does to its PDU: code blocks and iterations are counted, and the last block of a transport block
decides its CRC (R220, R232). -/
def Pdu.opDone (d : Pdu) (o : CodingOp) : Pdu :=
  let d1 := { d with bits := Tab.set [] d.bits o.block.index.toNat o.result }
  match o.kind with
  | .ldpcDecode =>
    let d2 := { d1 with cbDone := d1.cbDone + 1, cbFailed := if o.good then d1.cbFailed else d1.cbFailed + 1,
                        iterations := BitVec.ofNat 8 (Nat.max d1.iterations.toNat o.used) }
    if d2.cbDone.toNat = d2.cbTotal ∧ d2.decided = false then { d2 with tb := if Config.tbCrcGood d2.decoded then .crcPass else .crcFail } else d2
  | .prach => { d1 with cbDone := d1.cbDone + 1 }
  | .polarDecode => if d1.decided then d1 else { d1 with cbDone := 1, tb := if o.good then .crcPass else .crcFail }
  | _ => d1

/-- The oldest operation of a coding unit ends: its result is there, a PRACH report goes to AuxAddress once every uplink
stream of its occasion has been searched, a late one marks its slot with WINDOW_OVERRUN, and a window that waited for late work no longer
does (R82, R232, R235, R237). -/
def effCodingOpComplete (u : UnitId) (s : State) : State :=
  let x := s.unit u
  match x.ops with
  | [] => s
  | o :: rest =>
    if x.stopped ∨ s.noWork then s
    else
      let s1 := s.setUnit u { x with ops := rest }
      let s2 := if rest.isEmpty then s1.setIsland u { s1.island u with waitsForLate := false } else s1
      let s3 := s2.updPlan o.block.cell o.slot (fun p =>
        { p.updPdu o.block.pdu.toNat (fun d => d.opDone o) with statuses := if o.late then p.statuses ++ [stOverrun] else p.statuses })
      match o.kind, (s3.cell o.block.cell).plans.find? (fun p => p.slot == o.slot) with
      | .prach, some p =>
        match p.pdus[o.block.pdu.toNat]? with
        | some d =>
          if d.cbDone.toNat ≠ clUlStreams (s.cellOf o.block.cell) then s3
          else s3.post { source := .provider, address := pdAux d.record.toNat, bytes := s.prachOccasion o.block.cell d, purpose := .radio }
        | none => s3
      | _, _ => s3

/-- CODING_OP_COMPLETE (R237). -/
def execCodingOpComplete (unit : UnitId) (s : State) : Host.Outcome State Fault Refusal := .next (effCodingOpComplete unit s)

end Sys2Proof.Machine
end

