-- ==== Sys2Proof/Machine/BootFlash.lean ====
section
/-!
DEFINITION. The boot flash: image slots and their verification, the choice of a slot, the rollback fuses, and the firmware commands
(R430, R432 to R438).
-/

namespace Sys2Proof.Machine

/-! ### Fields of an image (R433) -/

/-- A field held most significant byte first within a little-endian record. -/
def beField (v hi lo : Nat) : Nat := ofBeBytes (leBytes ((hi + 1 - lo) / 8) (bits v hi lo))

/-- Bytes of a slot; an erased byte reads 0xFF. (DESIGN CHOICE, assumption 7) -/
def ImageSlot.bytes (i : ImageSlot) (a n : Nat) : List Byte := (List.range n).map (fun k => Tab.get 0xFF i.content (a + k))

/-- The slot header. -/
def ImageSlot.header (i : ImageSlot) : Nat := ofLeBytes (i.bytes 0 1024)

def ihMagic (h : Nat) : Nat := bits h 8191 8160
def ihFormat (h : Nat) : Nat := bits h 8159 8152
def ihSecurityVersion (h : Nat) : Nat := bits h 8151 8144
def ihFirmwareVersion (h : Nat) : Nat := bits h 8143 8112
def ihSections (h : Nat) : Nat := bits h 8111 8108
def ihSigner (h : Nat) : Nat := bits h 8107 8106
def ihSection (h i : Nat) : Nat := bits h (8063 - 640 * i) (7424 - 640 * i)
def scKind (e : Nat) : Nat := bits e 639 632
def scOffset (e : Nat) : Nat := bits e 631 600
def scLength (e : Nat) : Nat := bits e 599 568
def scDigest (e : Nat) : Nat := bits e 567 56

/-- Whether a slot holds a header at all. -/
def ImageSlot.hasHeader (i : ImageSlot) : Bool := ihMagic i.header == 0x54534C39

/-- The state of a slot: codes R434 does not name read as EMPTY. -/
def ImageSlot.stateCode (i : ImageSlot) : Nat := if i.state.toNat ≤ 3 then i.state.toNat else 0

/-- What a header's signature signs: the header with the Signature field zero. -/
def signedHeader (h : Nat) : List Byte := leBytes 1024 (setBits h 2943 1888 0)

/-- The rollback counter: the index of the highest blown fuse plus one, 0 when none is blown (R437). -/
def fuseCounter (fuses : W64) : Nat := if fuses = 0 then 0 else Nat.log2 fuses.toNat + 1

/-- Whether a slot verifies (R435). -/
def State.slotVerifies (s : State) (i : ImageSlot) : Bool :=
  let h := i.header
  let key := Config.trewidonKey (ihSigner h)
  ihMagic h == 0x54534C39 && ihFormat h == 1 && !s.start.revoked.getLsbD (ihSigner h) &&
  decide (fuseCounter s.start.fuses ≤ ihSecurityVersion h) &&
  Config.ecdsaVerify key.1 key.2 (Config.sha512 (signedHeader h)).toNat (beField h 2943 2416) (beField h 2415 1888)

/-- The section entries of an image that its count covers. -/
def ImageSlot.sections (i : ImageSlot) : List Nat := (List.range (min 8 (ihSections i.header))).map (ihSection i.header)

/-- The bytes of a section. -/
def ImageSlot.section' (i : ImageSlot) (e : Nat) : List Byte := i.bytes (scOffset e) (scLength e)

/-- Whether a section's bytes have its Digest. -/
def ImageSlot.digestGood (i : ImageSlot) (e : Nat) : Bool := (Config.sha512 (i.section' e)).toNat == scDigest e

/-- Whether the STAGE1 section has its Digest: otherwise the slot counts as one that does not verify. -/
def ImageSlot.stage1Good (i : ImageSlot) : Bool :=
  match i.sections.find? (fun e => scKind e == 1) with
  | some e => decide (scLength e ≤ 4 * 2 ^ 20) && i.digestGood e
  | none => false

/-- Whether the count of sections is one to eight, the entries beyond it are zero, and the sections hold at most 48 MiB (R433). -/
def ImageSlot.countGood (i : ImageSlot) : Bool :=
  let h := i.header
  decide (1 ≤ ihSections h ∧ ihSections h ≤ 8) && (List.range 8).all (fun k => decide (k < ihSections h) || ihSection h k == 0) &&
  decide (i.sections.foldl (fun a e => a + scLength e) 0 ≤ 48 * 2 ^ 20)

/-- Whether an image holds the sections R433 asks for, and each further one has its Digest or its integrator signature. -/
def State.sectionsGood (s : State) (i : ImageSlot) : Bool :=
  let n := fun (k : Nat) => (i.sections.filter (fun e => scKind e == k)).length
  i.countGood && n 1 == 1 && n 2 == 1 && n 3 + n 5 == 1 && i.sections.all (fun e =>
    scOffset e % 4096 == 0 &&
    (match scKind e with
     | 1 | 2 | 3 => i.digestGood e
     | 5 => s.start.integratorLocked && Config.integratorSigned s.start.integratorDigest (i.section' e)
     | _ => false))

/-! ### The choice of a slot (R435) -/

/-- A slot of the boot flash. -/
def Startup.image (t : Startup) (k : Nat) : ImageSlot := Tab.get {} t.images k
def State.setImage (s : State) (k : Nat) (i : ImageSlot) : State :=
  { s with start := { s.start with images := Tab.set {} s.start.images k i } }

/-- A slot found not to verify is REJECTED. -/
def State.rejectImage (s : State) (k : Nat) : State := s.setImage k { s.start.image k with state := 3 }

/-- One slot tried: it boots when it verifies and its STAGE1 has its Digest; a trial counts the attempt. -/
def State.trySlot (s : State) (k : Nat) : State × Option Nat :=
  let i := s.start.image k
  if i.stateCode = 2 ∧ i.attempts = 2 then (s.rejectImage k, none)
  else if s.slotVerifies i ∧ i.stage1Good then
    (s.setImage k { i with attempts := if i.stateCode = 2 then i.attempts + 1 else i.attempts, verified := true }, some k)
  else (s.rejectImage k, none)

/-- The slots tried in order until one boots. -/
def State.trySlots (s : State) : List Nat → State × Option Nat
  | [] => (s, none)
  | k :: ks =>
    let r := s.trySlot k
    match r.2 with
    | some n => (r.1, some n)
    | none => r.1.trySlots ks

/-- The order in which the boot ROM tries the slots: those in TRIAL, then those that are VALID, higher ConfirmSeq first.
(DEDUCED, assumption 140) -/
def State.bootOrder (s : State) : List Nat :=
  let is := fun (c k : Nat) => (s.start.image k).stateCode == c
  let newest := if (s.start.image 0).confirmSeq.toNat < (s.start.image 1).confirmSeq.toNat then [1, 0] else [0, 1]
  [0, 1].filter (is 2) ++ newest.filter (is 1)

/-- The boot ROM's choice; a failure stage 1 finds in a further section rejects the slot and begins again. `fuel` bounds how often.
None is recovery (R436). -/
def State.chooseSlot (s : State) : Nat → State × Option Nat
  | 0 => (s, none)
  | fuel + 1 =>
    let r := s.trySlots s.bootOrder
    match r.2 with
    | none => r
    | some k => if r.1.sectionsGood (r.1.start.image k) then r else (r.1.rejectImage k).chooseSlot fuel

/-! ### The signal-core image (R258) -/

def kernelIdOf (r : Nat) : Nat := bits r 127 120

/-- Whether a kernel's inputs and output fit a half of the data memories, 64 KiB. -/
def kernelFits (r : Nat) : Bool :=
  let units := bits r 73 58
  decide (1 ≤ units ∧ bits r 57 46 * units ≤ 65536 ∧ bits r 45 34 * units ≤ 65536 ∧
    4 * bits r 21 8 + 4 * bits r 7 0 + bits r 33 22 * units ≤ 65536)

/-- Whether a signal-core image is accepted: it has a record for every kernel, and all of them fit. -/
def signalImageGood (kernels : List (BitVec 128)) : Bool :=
  ((List.range 12).all (fun k => kernels.any (fun r => kernelIdOf r.toNat == k + 1))) && kernels.all (fun r => kernelFits r.toNat)

/-- The signal-core body of an image, who signed it (0 Trewidon, 1 the integrator), and its version (0x5040). -/
def ImageSlot.signalBody (i : ImageSlot) : Option (List Byte × BitVec 8 × Nat) :=
  match i.sections.find? (fun e => scKind e == 3) with
  | some e => some (i.section' e, 0, ihFirmwareVersion i.header)
  | none =>
    match i.sections.find? (fun e => scKind e == 5) with
    | some e => some ((i.section' e).drop 1024, 1, ihFirmwareVersion (ofLeBytes ((i.section' e).take 1024)))
    | none => none

/-- The image loaded into every core's program memory; one that is refused leaves the cores without kernels and program (R258). -/
def State.loadSignalImage (s : State) (k : Nat) : State :=
  match (s.start.image k).signalBody with
  | none => s
  | some (body, signer, version) =>
    let kernels := Config.signalKernels body
    let good := signalImageGood kernels
    let program := (Config.signalProgram body).zipIdx.foldl (fun (t : Tab W32) q => Tab.set 0 t q.2 q.1) []
    let named := { s.start with scImageAccepted := good, scSigner := signer, scVersion := BitVec.ofNat 32 version }
    if good = false then { s with start := named } else
    { s with
      start := { named with
        handlerEntry := Config.signalHandlerEntry body,
        kernels := kernels.zipIdx.foldl (fun (t : Tab (BitVec 128)) q => Tab.set 0 t q.2 q.1) [] },
      cores := (List.range 48).foldl (fun (t : Tab SignalCore) n => Tab.upd {} t n (fun c => { c with program })) s.cores }

/-! ### Firmware commands (R437) -/

/-- The slot the commands act on: the one not booted, slot 0 in recovery. -/
def State.otherSlot (s : State) : Nat := if s.start.recovery then 0 else 1 - s.start.bootedSlot.toNat

/-- ERASE_INACTIVE. -/
def State.eraseInactive (s : State) : State × BitVec 8 :=
  if [0, 1].any (fun k => (s.start.image k).stateCode == 2) then (s, rsState) else (s.setImage s.otherSlot {}, rsNone)

/-- ARM_TRIAL: the slot is verified as the boot ROM would. -/
def State.armTrial (s : State) : State × BitVec 8 :=
  let i := s.start.image s.otherSlot
  if i.stateCode ≠ 0 ∨ i.written = false then (s, rsState)
  else if s.slotVerifies i ∧ i.stage1Good then (s.setImage s.otherSlot { i with state := 2, attempts := 0 }, rsNone)
  else (s, rsCheck)

/-- CONFIRM_RUNNING. -/
def State.confirmRunning (s : State) : State × BitVec 8 :=
  let k := s.start.bootedSlot.toNat
  let i := s.start.image k
  if s.start.recovery ∨ i.stateCode ≠ 2 then (s, rsState)
  else (s.setImage k { i with state := 1, confirmSeq := (s.start.image (1 - k)).confirmSeq + 1 }, rsNone)

/-- ADVANCE_ROLLBACK: fuses are blown, and the other slot rejected when it has fallen below the counter. -/
def State.advanceRollback (s : State) : State × BitVec 8 :=
  let k := s.start.bootedSlot.toNat
  let i := s.start.image k
  let v := ihSecurityVersion i.header
  if s.start.recovery ∨ i.stateCode ≠ 1 ∨ v ≤ fuseCounter s.start.fuses then (s, rsState)
  else
    let fuses := s.start.fuses ||| BitVec.ofNat 64 (2 ^ v - 1)
    let s1 := { s with start := { s.start with fuses } }
    let o := s.start.image (1 - k)
    (if o.hasHeader ∧ ihSecurityVersion o.header < fuseCounter fuses then s1.rejectImage (1 - k) else s1, rsNone)

/-- The four firmware commands (0xB012). -/
def State.firmwareCommand (s : State) (code : Nat) : State × BitVec 8 :=
  match code with
  | 1 => s.eraseInactive
  | 2 => s.armTrial
  | 3 => s.confirmRunning
  | 4 => s.advanceRollback
  | _ => (s, rsRange)

/-- A write of ImageWrite: whole 4 KiB records into the slot not booted. -/
def State.writeImage (s : State) (offset : Nat) (data : List Byte) : State × BitVec 8 :=
  if offset % 4096 ≠ 0 ∨ data.length % 4096 ≠ 0 ∨ data.isEmpty ∨ 16384 * 4096 < offset + data.length then (s, rsSize)
  else
    let i := s.start.image s.otherSlot
    let content := data.zipIdx.foldl (fun (t : Tab Byte) q => Tab.set 0xFF t (offset + q.2) q.1) i.content
    (s.setImage s.otherSlot { i with content, written := true }, rsNone)

/-- A write of IntegratorKeyDigest, once (R438). -/
def State.writeIntegratorDigest (s : State) (digest : BitVec 512) : State × BitVec 8 :=
  if s.start.integratorLocked then (s, rsState)
  else ({ s with start := { s.start with integratorDigest := digest, integratorLocked := true } }, rsNone)

/-- A write of ResetCommand: the reset begins 1 ms after it completes (R430). -/
def State.orderReset (s : State) (value : Nat) : State × BitVec 8 :=
  if value ≠ 1 ∧ value ≠ 2 then (s, rsRange)
  else if s.start.resetDue.isSome then (s, rsNone)
  else ({ s with start := { s.start with resetDue := some (value == 1, s.time.ticks + ticksOfUs 1000) } }, rsNone)

end Sys2Proof.Machine
end

