-- ==== Sys2Proof/Machine/TimeBase.lean ====
section
/-!
DEFINITION. The time base, its registers and the time pads (R46 to R67).
-/

namespace Sys2Proof.Machine

/-- The nominal increment, 1.28 ns in units of 2^-32 ns (R47). -/
def nominalIncrement : Nat := 0x147AE147B

/-- A change of TimeQuality, which raises an event (R55). -/
def State.setQuality (s : State) (q : TimeQuality) : State :=
  if s.time.quality = q then s
  else { s with time := { s.time with quality := q } }.raise { area := 0x20, kind := 0x10, unit := timeUnit }

/-- The increment this tick advances by, and what its check finds: 0 the active pair is good, 1 the previous copy serves,
2 both copies failed (R51). -/
def TimeBase.increment (t : TimeBase) : Nat × Nat :=
  if pairGood 64 t.incActive.toNat t.incActiveC.toNat then (t.incActive.toNat, 0)
  else if pairGood 64 t.incPrev.toNat t.incPrevC.toNat then (t.incPrev.toNat, 1)
  else (nominalIncrement, 2)

/-- PPS_OUT after a tick: it rises when the accumulator wraps and stays high for PpsOutWidth (R67). `inc` and `acc` are
the increment and the accumulator after the tick, `wrapped` whether Seconds advanced. -/
def TimeBase.ppsTick (t : TimeBase) (width inc : Nat) (wrapped : Bool) : TimeBase :=
  if wrapped then { t with ppsOut := true, ppsOutLeft := width * 2 ^ 32 - t.acc }
  else if t.ppsOutLeft ≤ inc then { t with ppsOut := false, ppsOutLeft := 0 }
  else { t with ppsOutLeft := t.ppsOutLeft - inc }

/-- The accumulator and Seconds advanced by an increment (R47). -/
def TimeBase.advance (t : TimeBase) (inc : Nat) : TimeBase :=
  if t.acc + inc < secondUnits then { t with acc := t.acc + inc }
  else { t with acc := t.acc + inc - secondUnits, seconds := t.seconds + 1 }

/-- HoldoverElapsed and the interval counters after a tick: 781,250,000 ticks to the second, in HOLDOVER and
HOLDOVER_EXPIRED only (R55). -/
def TimeBase.holdoverTick (t : TimeBase) : TimeBase :=
  let t := { t with ticks := t.ticks + 1, sinceRefresh := t.sinceRefresh + 1 }
  if t.quality = .holdover ∨ t.quality = .expired then
    if t.holdoverTicks + 1 < 781250000 then { t with holdoverTicks := t.holdoverTicks + 1 }
    else { t with holdoverTicks := 0, holdoverElapsed := t.holdoverElapsed + 1 }
  else t

/-- One tick of the time-base island (R47, R51, R55, R67). -/
def effTimeBaseTick (s : State) : State :=
  let i := s.time.increment
  let t1 := s.time.advance i.1
  let t2 := t1.ppsTick (s.obj 0x2042 0 0) i.1 (t1.acc < s.time.acc)
  let s1 := { s with time := t2.holdoverTick }
  if i.2 = 0 then s1
  else if i.2 = 1 then s1.raise { area := 0x20, kind := 0x08, unit := timeUnit }
  else (s1.raise { area := 0x20, kind := 0x09, unit := timeUnit }).setQuality .fault

/-- TIME_BASE_TICK (R47). -/
def execTimeBaseTick (s : State) : Host.Outcome State Fault Refusal := .next (effTimeBaseTick s)

/-- The level of REF10M_OUT: high in the first half of every 100 ns (R67). (DESIGN CHOICE, assumption 13) -/
def TimeBase.ref10mOut (t : TimeBase) : Bool := decide (t.units / 2 ^ 32 % 100 < 50)

/-- Whether the link that SynceSource selects is UP (R61). -/
def State.synceLinkUp (s : State) : Bool :=
  if h : s.obj 0x2030 0 0 < 64 then (s.port ⟨s.obj 0x2030 0 0, by omega⟩).state == .up else false

/-- Whether SYNCE_CLK_OUT carries a recovered clock: a link is selected, is up and holds lock; otherwise the output is held low (R61). -/
def State.synceOut (s : State) : Bool := s.synceLinkUp && s.links.synceLocked

/-- What a refresh does to the holdover timers (R50, R55). -/
def TimeBase.refresh (t : TimeBase) : TimeBase :=
  { t with sinceRefresh := 0, refreshed := true, holdoverElapsed := 0, holdoverTicks := 0 }

/-- TimeQuality after a refresh (R55). -/
def TimeBase.qualityAfterRefresh (t : TimeBase) : TimeQuality :=
  match t.quality with
  | .holdover | .expired => .tracking
  | .fault => if t.setSinceReset then .tracking else .unset
  | q => q

/-- The range of an increment: nominal ± 200 ppm (R50). -/
def incrementInRange (v : Nat) : Bool := decide (0x1479D4D84 ≤ v ∧ v ≤ 0x147BEDB72)

/-- The copies an accepted increment write leaves (R51). -/
def TimeBase.accept (t : TimeBase) (value : W64) : TimeBase :=
  let prev := if pairGood 64 t.incActive.toNat t.incActiveC.toNat then t.incActive else value
  { t with incActive := value, incActiveC := ~~~value, incPrev := prev, incPrevC := ~~~prev }

/-- A write of 0x2001 TimeIncrement: refused, or accepted as a refresh that also clears FAULT (R50, R51, R55). -/
def State.writeIncrement (s : State) (value comp : W64) : State × BitVec 8 :=
  if comp ≠ ~~~value then (s, rsComplement)
  else if incrementInRange value.toNat = false then (s, rsRange)
  else
    let q := s.time.qualityAfterRefresh
    ({ s with time := (s.time.accept value).refresh }.setQuality q, rsNone)

/-- TIME_INCREMENT_WRITE (R50). -/
def execTimeIncrementWrite (value complement : BitVec 64) (s : State) : Host.Outcome State Fault Refusal :=
  .next (s.writeIncrement value complement).1

/-- What an accepted load does at once: the Characteristic treats the current window as ending in an eclipse, and nothing
new starts until the first period boundary in the new time (R53). (DEDUCED, assumption 14) -/
def State.beginLoad (s : State) (l : TimeLoad) : State :=
  { s with time := { s.time with load := some l },
           chr := { s.chr with suspended := true, eclipse := true, pollOpen := none,
                               islands := Tab.mapAll {} (fun _ i => { i with current := none, emittedEarly := 0 }) s.chr.islands } }

/-- Whether a phase step exceeds PhaseStepLimit (R52). -/
def State.stepTooLarge (s : State) (step : W64) : Bool := decide (s.act 0x2007 0 0 * 65536 < step.toInt.natAbs)

/-- Whether a step that exceeded PhaseStepLimit is held to be applied when every admitted operation has ended (R53). -/
def TimeBase.stepHeld (t : TimeBase) : Bool := match t.load with | some (.step _) => true | _ => false

/-- PhaseStepPending: a step awaits its application (R48). -/
def TimeBase.stepAwaits (t : TimeBase) : Bool := t.stepPending.isSome || t.stepHeld

/-- A write of 0x2002 TimePhaseStep (R52, R53). -/
def State.writePhaseStep (s : State) (step : W64) : State × BitVec 8 :=
  if s.time.stepAwaits then (s, rsState)
  else if s.stepTooLarge step then
    if hasRanWindow s.vers.active then (s, rsRange) else (s.beginLoad (.step step), rsNone)
  else ({ s with time := { s.time with stepPending := some step } }, rsNone)

/-- TIME_PHASE_STEP_WRITE (R52). -/
def execTimePhaseStepWrite (step : BitVec 64) (s : State) : Host.Outcome State Fault Refusal := .next (s.writePhaseStep step).1

/-- The time stepped by a signed number of units of 2^-16 ns, modulo the 2^48 seconds the time base counts. -/
def TimeBase.step (t : TimeBase) (step : W64) : TimeBase :=
  t.setUnits (((t.units : Int) + step.toInt * 65536) % ((2 ^ 48 * secondUnits : Nat) : Int)).toNat

/-- Whether the final eclipse of the period in progress has begun: P − FinalEclipse has been reached (R97). -/
def State.finalEclipse (s : State) : Bool :=
  decide (s.periodFrames * 10 ^ 7 ≤ s.time.intoPeriod s.periodFrames + s.act 0x3003 0 0)

/-- The pending step applied on the tick at which the final eclipse begins (R52, R97). -/
def effPhaseStepApply (s : State) : State :=
  match s.time.stepPending with
  | none => s
  | some d => if s.finalEclipse then { s with time := { s.time.step d with stepPending := none } } else s

/-- PHASE_STEP_APPLY (R52). -/
def execPhaseStepApply (s : State) : Host.Outcome State Fault Refusal := .next (effPhaseStepApply s)

/-- Whether a refresh has occurred within HoldoverDetectInterval (R55). -/
def State.refreshRecent (s : State) : Bool :=
  s.time.refreshed && decide (s.time.sinceRefresh ≤ s.obj 0x2004 0 0 * 781250)

/-- A write of 0x2006 TimeSet (R53, R55). -/
def State.writeTimeSet (s : State) (value : BitVec 96) : State × BitVec 8 :=
  if 10 ^ 9 ≤ value.toNat / 65536 % 2 ^ 32 then (s, rsRange)
  else if s.time.quality ≠ .unset ∧ hasRanWindow s.vers.active then (s, rsState)
  else
    let q := if s.time.quality = .unset then (if s.refreshRecent then .tracking else .holdover) else s.time.quality
    let s1 := s.beginLoad (.absolute value)
    ({ s1 with time := { s1.time with setSinceReset := true } }.setQuality q, rsNone)

/-- TIME_SET_WRITE (R53). -/
def execTimeSetWrite (value : BitVec 96) (s : State) : Host.Outcome State Fault Refusal := .next (s.writeTimeSet value).1

/-- Whether every operation already admitted on any island has ended: passes, abandoned ones that run again, and the chain work after them,
that of held bands too, VECTOR tiles, jobs, coding operations and frames started (R53). -/
def State.quiet (s : State) : Bool :=
  s.engines.all (fun p => p.2.arrays.all (fun a => a.2.flight.isEmpty && a.2.drains.isEmpty && a.2.reruns.isEmpty) && p.2.vuPass.isNone &&
    p.2.vu.tile.isEmpty && p.2.contexts.all (fun c => c.2.runs.all (fun r => r.heldTiles.isEmpty || decide (r.heldTiles.length < tilesN r.step.descriptor.toNat)))) &&
  s.cores.all (fun p => p.2.job.isNone) && s.radio.units.all (fun p => p.2.ops.isEmpty) &&
  s.ports.all (fun p => p.2.wire.isNone)

/-- The state with a new time: the first period boundary in it is awaited, which is now when the new time stands on one (R53). -/
def State.loadTime (s : State) (t : TimeBase) : State :=
  let n := t.periodCount s.periodFrames
  let at' := t.intoPeriod s.periodFrames == 0 && decide (t.acc % 2 ^ 32 = 0)
  { s with time := t, chr := { s.chr with periodCount := if at' then n - 1 else n } }

/-- The time base loaded, or stepped, once every admitted operation has ended (R53). -/
def effTimeSetLoad (s : State) : State :=
  if s.quiet then
    match s.time.load with
    | none => s
    | some (.absolute v) => s.loadTime { s.time.setUnits (unitsOfStamp v * 65536) with load := none }
    | some (.step d) => s.loadTime { s.time.step d with load := none }
  else s

/-- TIME_SET_LOAD (R53). -/
def execTimeSetLoad (s : State) : Host.Outcome State Fault Refusal := .next (effTimeSetLoad s)

/-- HoldoverDetectInterval has passed with no refresh: TRACKING becomes HOLDOVER (R55). -/
def effHoldoverDetectExpiry (s : State) : State :=
  if s.time.quality = .tracking ∧ s.obj 0x2004 0 0 * 781250 ≤ s.time.sinceRefresh then s.setQuality .holdover else s

/-- HOLDOVER_DETECT_EXPIRY (R55). -/
def execHoldoverDetectExpiry (s : State) : Host.Outcome State Fault Refusal := .next (effHoldoverDetectExpiry s)

/-- HoldoverElapsed has reached HoldoverLimit: HOLDOVER becomes HOLDOVER_EXPIRED (R55). -/
def effHoldoverLimitExpiry (s : State) : State :=
  if s.time.quality = .holdover ∧ s.obj 0x2005 0 0 ≤ s.time.holdoverElapsed.toNat then s.setQuality .expired else s

/-- HOLDOVER_LIMIT_EXPIRY (R55). -/
def execHoldoverLimitExpiry (s : State) : Host.Outcome State Fault Refusal := .next (effHoldoverLimitExpiry s)

/-- A rising edge of PPS_IN: the time is latched and counted (R67). -/
def effPpsInEdge (s : State) : State :=
  { s with time := { s.time with ppsCapture := s.now, ppsCount := s.time.ppsCount + 1 } }

/-- PPS_IN_EDGE (R67). -/
def execPpsInEdge (s : State) : Host.Outcome State Fault Refusal := .next (effPpsInEdge s)

/-- The 10,000,000th edge of REF10M_IN since the last sample: Ref10mDrift takes the elapsed time less 1 s, in units of
2^-16 ns rounded half up; what it takes where that falls outside 32 bits is open (R67). (DESIGN CHOICE, assumption 12) -/
def effRef10mDriftSample (s : State) : State :=
  match s.time.ref10mStart with
  | none => { s with time := { s.time with ref10mStart := some s.time.units } }
  | some t0 =>
    let d := ((s.time.units : Int) - t0 - secondUnits + 32768) / 65536
    if -2147483648 ≤ d ∧ d < 2147483648 then
      { s with time := { s.time with ref10mStart := some s.time.units, ref10mDrift := BitVec.ofInt 32 d } }
    else
      let q := s.draw
      { q.2 with time := { q.2.time with ref10mStart := some s.time.units, ref10mDrift := BitVec.ofNat 32 q.1 } }

/-- REF10M_DRIFT_SAMPLE (R67). -/
def execRef10mDriftSample (s : State) : Host.Outcome State Fault Refusal := .next (effRef10mDriftSample s)

/-- REF10M_IN_LOSS: Ref10mDrift reads 0x8000_0000 while no input is present (R67). -/
def execRef10mInLoss (s : State) : Host.Outcome State Fault Refusal :=
  .next { s with time := { s.time with ref10mStart := none, ref10mDrift := 0x80000000#32 } }

/-- SYNCE_LOCK_LOSS: the output is held low (R61). -/
def execSynceLockLoss (s : State) : Host.Outcome State Fault Refusal :=
  .next { s with links := { s.links with synceLocked := false } }

/-- The lock of the recovered clock goes with the selected link (R61). -/
def State.loseSynce (s : State) : State :=
  { s with links := { s.links with synceLocked := s.links.synceLocked && s.synceLinkUp } }

/-- SYNCE_LOCK_REGAIN: the recovered clock of the selected link is carried again while that link is up (R61). -/
def execSynceLockRegain (s : State) : Host.Outcome State Fault Refusal :=
  .next { s with links := { s.links with synceLocked := s.synceLinkUp } }

end Sys2Proof.Machine
end

