-- ==== Sys2Proof/Machine/Catalogue.lean ====
section
/-!
DEFINITION. The dictionary's objects (R16 to R19, R374, R376): each row gives the index, the range of subindices, the type, the
access class with the requesters it admits, and for what software writes the fields of one record with the values each may take.
-/

namespace Sys2Proof.Machine

/-! ### Fields (R9, R375, R376) -/

/-- A field of a record: its bits, the ranges its value may lie in (none stated: any value), and what it must be a multiple of. -/
structure Field where
  hi : Nat
  lo : Nat
  allowed : List (Nat × Nat) := []
  mult : Nat := 1
deriving DecidableEq, Repr

/-- A field of any value, a reserved one, one within a range, one within several, and an aligned one. -/
def fAny (hi lo : Nat) : Field := { hi, lo }
def fZero (hi lo : Nat) : Field := { hi, lo, allowed := [(0, 0)] }
def fIn (hi lo a b : Nat) : Field := { hi, lo, allowed := [(a, b)] }
def fOneOf (hi lo : Nat) (rs : List (Nat × Nat)) : Field := { hi, lo, allowed := rs }
def fMult (hi lo m : Nat) : Field := { hi, lo, mult := m }

/-- Whether a record's field holds a value it may take. -/
def Field.good (f : Field) (v : Nat) : Bool :=
  let x := bits v f.hi f.lo
  (f.allowed.isEmpty || f.allowed.any (fun r => decide (r.1 ≤ x ∧ x ≤ r.2))) && x % f.mult == 0

/-- The lowest bit of the first field at fault. -/
def firstFault (fs : List Field) (v : Nat) : Option Nat := (fs.find? (fun f => !f.good v)).map (·.lo)

/-! ### Rows (R17, R18) -/

/-- The type of an object: a number of n bytes, a value of n bytes with its complement, a string, bytes, or records of `rec` bytes,
at most `most` of them. -/
inductive ObjType where
  | number (n : Nat)
  | pair (n : Nat)
  | text
  | blob (n : Nat)
  | table (rec most : Nat)
deriving DecidableEq, Repr

/-- The access class (R18). -/
inductive ObjClass where
  | const | ro | rw | stage | wo
deriving DecidableEq, Repr

/-- The requesters a class admits besides MANAGER orders: ADMIN only, an instance for every byte or for its own record, or an
order signed by managers. -/
inductive Admits where
  | admin | everyone | ownRecord | manager
deriving DecidableEq, Repr

/-- One object. `half` is the width of the value half of a record followed by its complement, 0 where it has none. -/
structure ObjInfo where
  index : Nat
  first : Nat := 0
  last : Nat := 0
  type : ObjType
  cls : ObjClass
  who : Admits := .admin
  fields : List Field := []
  half : Nat := 0
deriving DecidableEq, Repr

/-- A row with one subindex, or with several. -/
def row (index sub : Nat) (type : ObjType) (cls : ObjClass) (fields : List Field := []) : ObjInfo :=
  { index, first := sub, last := sub, type, cls, fields }
def rows (index first last : Nat) (type : ObjType) (cls : ObjClass) (fields : List Field := []) : ObjInfo :=
  { index, first, last, type, cls, fields }

/-- A row that admits every instance, and one of which an instance reaches its own record. -/
def ObjInfo.open' (o : ObjInfo) : ObjInfo := { o with who := .everyone }
def ObjInfo.own (o : ObjInfo) : ObjInfo := { o with who := .ownRecord }

/-- The size of one record, or of the value. -/
def ObjInfo.unit (o : ObjInfo) : Nat :=
  match o.type with
  | .number n => n
  | .pair n => 2 * n
  | .text => 1
  | .blob n => n
  | .table rec _ => rec

/-! ### The configuration version (STAGE) -/

/-- A window entry (R69). -/
def windowFields : List Field :=
  [fAny 255 192, fAny 191 144, fAny 143 120, fAny 119 112, fAny 111 108, fAny 107 100, fAny 99 92, fIn 91 90 0 2, fAny 89 89,
   fZero 88 88, fOneOf 87 76 [(0, 0x3FF), (0xFFE, 0xFFF)], fAny 75 46, fAny 45 16, fAny 15 8, fAny 7 0]

/-- A mantissa width: 0, or 6 to 16 (R211). -/
def mantissa (hi lo : Nat) : Field := fOneOf hi lo [(0, 0), (6, 16)]

/-- A cell record (R211). The lower limit of Prbs at μ = 3 relates two fields and is left to COMMIT. -/
def cellFields : List Field :=
  [fZero 255 247, fIn 246 245 0 2, fIn 244 236 1 273, fIn 235 230 0 32, fIn 229 224 0 32, fAny 223 223, fZero 222 222,
   fAny 221 216, mantissa 215 211, mantissa 210 206, mantissa 205 201, fAny 200 200, fAny 199 184, fAny 183 168, fAny 167 152,
   fAny 151 136, fAny 135 120, fAny 119 104, fIn 103 88 100 10000, fIn 87 72 100 20000, fIn 71 70 0 2, fAny 69 66,
   fIn 65 56 0 1007, fAny 55 40, fIn 39 34 1 32, fIn 33 25 0 256, fZero 24 0]

/-- The objects of the Characteristic, contexts and engines. -/
def stageCore : List ObjInfo :=
  [row 0x2007 0 (.number 4) .stage [fIn 31 0 0 1000],
   row 0x3000 0 (.number 2) .stage [fIn 15 0 1 64],
   row 0x3001 0 (.number 2) .stage [fIn 15 0 0 8192],
   { row 0x3002 0 (.table 64 8192) .stage windowFields with half := 256 },
   row 0x3003 0 (.number 4) .stage [fIn 31 0 400 100000],
   row 0x3020 0 (.table 8 1024) .stage [fOneOf 63 50 [(0, 0), (10, 10000)], fIn 49 42 1 255, fIn 41 35 0 64, fZero 34 0],
   row 0x3030 0 (.table 8 1024) .stage [fAny 63 54, fIn 53 52 0 2, fAny 51 51, fAny 50 41, fAny 40 40, fZero 39 0],
   { row 0x3031 0 (.table 16 1024) .stage
       [fAny 63 54, fAny 53 48, fAny 47 44, fIn 43 39 0 16, fAny 38 28, fZero 27 0] with half := 64 },
   row 0x4030 0 (.table 1 8) .stage [fIn 7 0 0 2],
   row 0x4031 0 (.number 2) .stage [fIn 15 8 1 255, fIn 7 0 1 255],
   row 0x4033 0 (.number 4) .stage [fIn 31 0 50 100000],
   row 0xA030 0 (.table 1 8) .stage [fOneOf 7 0 [(0, 20), (0xFF, 0xFF)]],
   row 0xA031 0 (.number 4) .stage [fIn 31 0 60 2592000],
   row 0xA032 0 (.number 2) .stage [fIn 15 0 0 0xFFF],
   row 0xC003 0 (.table 1 8) .stage [fIn 7 0 0 3]]

/-- The objects of the radio and the Ethernet ports. -/
def stagePorts : List ObjInfo :=
  [row 0x5000 0 (.number 2) .stage [fIn 15 0 0 512],
   row 0x5001 0 (.table 32 512) .stage cellFields,
   row 0x5005 0 (.table 16 16) .stage [fAny 127 118, fAny 117 117, fAny 116 101, fZero 100 64, fAny 63 0],
   row 0x5006 0 (.table 2 11) .stage,
   row 0x6000 0 (.table 8 8) .stage [fAny 63 62, fAny 61 54, fZero 53 0],
   row 0x6001 0 (.table 16 64) .stage
     [fAny 127 80, fAny 79 68, fAny 67 65, fAny 64 62, fIn 61 48 64 9000, fAny 47 42, fAny 41 41, fZero 40 0],
   row 0x6002 0 (.table 16 20) .stage [fAny 127 80, fAny 79 79, fAny 78 73, fZero 72 0],
   rows 0x6010 0 0x3F (.table 4 1024) .stage,
   rows 0x6010 0x40 0x53 (.table 4 1024) .stage [fZero 31 28, fAny 27 24, fAny 23 0],
   row 0x6011 0 (.table 8 84) .stage [fIn 63 53 0 1024, fAny 52 23, fZero 22 0],
   row 0x6020 0 (.table 8 672) .stage [fAny 63 40, fAny 39 20, fAny 19 19, fZero 18 0],
   row 0x6030 0 (.table 16 256) .stage
     [fAny 127 104, fAny 103 80, fAny 79 60, fAny 59 40, fAny 39 34, fAny 33 33, fAny 32 32, fIn 31 30 0 2, fIn 29 28 0 2,
      fIn 27 26 0 2, fZero 25 0],
   row 0x6050 0 (.table 16 84) .stage
     [fAny 127 64, fAny 63 63, fAny 62 61, fAny 60 60, fAny 59 59, fAny 58 57, fIn 56 26 0 (2 ^ 30), fZero 25 0]]

/-- The objects of memory and the fabric. -/
def stageMemory : List ObjInfo :=
  [{ row 0x7010 0 (.table 32 4096) .stage
       [fAny 127 96, fIn 95 64 1 (2 ^ 32 - 1), fIn 63 62 0 1, fAny 61 52, fAny 51 51, fAny 50 50, fZero 49 0] with half := 128 },
   row 0x7011 0 (.number 2) .stage [fIn 15 0 0 4096],
   row 0x7013 0 (.number 1) .stage [fIn 7 0 1 100],
   row 0x7020 0 (.number 4) .stage [{ hi := 31, lo := 0, allowed := [(128, 32768)], mult := 128 }],
   row 0x7021 0 (.number 4) .stage,
   row 0x7042 0 (.number 4) .stage [fIn 31 0 50 100000],
   row 0x8000 0 (.number 2) .stage,
   row 0x8010 0 (.table 16 4096) .stage [fAny 127 112, fAny 111 92, fAny 91 44, fZero 43 0],
   row 0x8011 0 (.number 2) .stage [fIn 15 0 0 4096],
   row 0x8040 0 (.table 8 256) .stage [fAny 63 63, fAny 62 51, fAny 50 35, fAny 34 23, fZero 22 0],
   row 0x8041 0 (.number 2) .stage [fIn 15 0 0 256],
   row 0x8050 1 (.number 4) .stage [fIn 31 0 2 1000],
   row 0x8050 2 (.number 4) .stage [fIn 31 0 10 1000],
   row 0x8050 3 (.number 4) .stage [fIn 31 0 50 100000],
   row 0x8050 4 (.number 4) .stage [fIn 31 0 100 200000],
   row 0x8050 5 (.number 4) .stage [fIn 31 0 50 1000000],
   rows 0x8051 1 4 (.number 2) .stage [fIn 15 0 1 1024]]

/-- The objects of a configuration version. -/
def stageObjects : List ObjInfo := stageCore ++ stagePorts ++ stageMemory

/-! ### What software writes at any time (RW) -/

/-- A physical-function vector, 0 to 63, or none (R351). -/
def vectorField (hi lo : Nat) : Field := fOneOf hi lo [(0, 63), (0xFFFF, 0xFFFF)]

/-- The objects of class RW. -/
def rwObjects : List ObjInfo :=
  [row 0x100E 0 (.number 4) .rw [fIn 31 0 1 3600],
   row 0x2001 0 (.pair 8) .rw,
   row 0x2004 0 (.number 4) .rw [fIn 31 0 10 60000],
   row 0x2005 0 (.number 4) .rw [fIn 31 0 1 86400],
   row 0x2010 0 (.table 16 64) .rw [fAny 127 96, fAny 95 64, fAny 63 32, fZero 31 0],
   row 0x2030 0 (.number 1) .rw [fOneOf 7 0 [(0, 63), (0xFF, 0xFF)]],
   row 0x2042 0 (.number 4) .rw [fIn 31 0 100 900000000],
   (row 0x3021 0 (.table 24 1024) .rw).own,
   row 0x3022 0 (.number 8) .rw [fMult 63 0 4096],
   row 0x3024 0 (.table 32 1) .rw,
   row 0x5010 0 (.table 16 512) .rw,
   row 0x5011 1 (.number 8) .rw [fMult 63 0 4096],
   row 0x5011 2 (.number 1) .rw [fIn 7 0 6 16],
   row 0x5011 3 (.number 2) .rw [vectorField 15 0],
   row 0x5011 4 (.number 8) .rw,
   row 0x6040 1 (.number 8) .rw [fMult 63 0 4096],
   row 0x6040 2 (.number 1) .rw [fIn 7 0 4 12],
   row 0x6040 3 (.number 8) .rw,
   row 0x6040 4 (.number 8) .rw [fMult 63 0 4096],
   row 0x6040 5 (.number 1) .rw [fIn 7 0 6 12],
   row 0x6040 6 (.number 8) .rw,
   row 0x6040 7 (.number 2) .rw [vectorField 15 0],
   row 0x6040 8 (.number 1) .rw [fIn 7 0 0 1],
   rows 0x6051 0 0x53 (.table 8 16) .rw,
   row 0x7031 0 (.number 2) .rw [fIn 15 0 0 168],
   row 0x7041 0 (.number 1) .rw [fIn 7 0 0 1],
   row 0x8020 0 (.table 16 4096) .rw [fAny 127 112, fAny 111 96, fIn 95 84 0 4094, fIn 83 82 0 1, fAny 81 72, fAny 71 71, fZero 70 0],
   row 0x8021 0 (.number 2) .rw [fIn 15 0 0 4096],
   row 0x8030 0 (.table 8 4096) .rw [fAny 63 63, fAny 62 51, fZero 50 0]] ++
  [row 0x9020 0 (.table 4 1024) .rw [fAny 31 12, fAny 11 11, fAny 10 10, fZero 9 0],
   row 0x9030 0 (.table 32 16) .rw,
   row 0x9040 1 (.number 2) .rw [fIn 15 0 0 1023],
   row 0x9050 0 (.number 1) .rw [fIn 7 0 0 1],
   row 0xA001 0 (.table 2 256) .rw,
   row 0xA002 0 (.number 2) .rw [fIn 15 0 1 720],
   row 0xA004 0 (.table 4 4) .rw,
   row 0xA010 1 (.number 8) .rw [fMult 63 0 4096],
   row 0xA010 2 (.number 1) .rw [fIn 7 0 6 16],
   row 0xA010 3 (.number 8) .rw,
   row 0xA010 4 (.number 1) .rw [fIn 7 0 0 1],
   row 0xA010 5 (.number 2) .rw [vectorField 15 0],
   row 0xA051 0 (.table 8 1024) .rw [fAny 63 32, fIn 31 22 100 1000, fIn 21 14 1 255, fAny 13 6, fZero 5 0],
   row 0xA061 1 (.number 1) .rw [fIn 7 0 1 6],
   row 0xA061 2 (.table 136 8) .rw [fIn 1087 1080 0 7, fZero 1079 1056, fAny 1055 528, fAny 527 0],
   row 0xB030 0 (.table 64 4) .rw,
   row 0xC001 0 (.number 4) .rw [fIn 31 0 300 900],
   row 0xC002 0 (.number 4) .rw [fIn 31 0 300 1100],
   row 0xD010 0 (.table 32 456) .rw,
   row 0xD0F1 0 (.number 4) .rw [fIn 31 0 0 100000],
   row 0xE003 0 (.number 1) .rw [fOneOf 7 0 [(0, 2), (4, 5)]],
   row 0xE010 0 (.blob 17) .rw [fIn 135 128 0 128],
   row 0xE011 0 (.blob 16) .rw,
   row 0xE012 0 (.number 2) .rw [fIn 15 0 1 65535],
   row 0xE014 0 (.number 4) .rw [fIn 31 0 5 3600]]

/-! ### Commands (WO) -/

/-- The objects of class WO. -/
def woObjects : List ObjInfo :=
  [row 0x100A 0 (.number 8) .wo, row 0x100B 0 (.number 1) .wo [fIn 7 0 1 1], row 0x1020 0 (.number 1) .wo [fIn 7 0 1 2],
   row 0x2002 0 (.number 8) .wo, row 0x2006 0 (.blob 12) .wo, row 0x6052 0 (.blob 64) .wo, row 0x8043 0 (.number 2) .wo,
   row 0x9002 0 (.number 4) .wo [fIn 31 24 1 3, fZero 23 10, fAny 9 0], row 0x9031 0 (.number 1) .wo [fIn 7 0 0 15],
   row 0x9041 0 (.table 64 262144) .wo, row 0xA034 0 (.number 2) .wo,
   { row 0xA060 0 (.blob 1024) .wo with who := .manager },
   row 0xA063 0 (.number 1) .wo [fIn 7 0 1 1], row 0xB011 0 (.table 4096 16384) .wo,
   row 0xB012 0 (.number 8) .wo [fIn 63 56 1 4, fZero 55 0], row 0xB020 0 (.blob 64) .wo, row 0xD0F0 0 (.number 1) .wo [fIn 7 0 1 1]]

/-! ### What the module publishes (CONST, RO) -/

/-- The objects of class CONST. -/
def constObjects : List ObjInfo :=
  [(rows 0x1000 1 2 .text .const).open', (row 0x1000 3 (.number 2) .const).open', (row 0x1000 4 .text .const).open',
   rows 0x4022 1 3 (.number 2) .const, rows 0x4022 4 6 (.number 1) .const,
   row 0x4032 1 (.number 1) .const, row 0x4032 2 (.number 2) .const, rows 0x4032 3 4 (.number 1) .const,
   rows 0x4034 1 5 (.number 1) .const, row 0x4036 0 (.table 8 5) .const,
   row 0xB000 0 (.blob 133) .const, row 0xE000 0 (.number 8) .const]

/-- The objects of class RO of the ranges 0x1000 to 0x5FFF. -/
def roLow : List ObjInfo :=
  [(row 0x1001 1 (.number 4) .ro).open', (row 0x1001 2 (.number 1) .ro).open', (row 0x1008 0 (.pair 4) .ro).open',
   row 0x1009 0 (.pair 4) .ro, row 0x100C 0 (.pair 4) .ro, row 0x100D 0 (.number 8) .ro, row 0x100F 0 (.number 4) .ro,
   row 0x1011 0 (.blob 16) .ro, row 0x1012 0 (.table 8 2) .ro, row 0x1014 0 (.table 4 4) .ro, row 0x1021 0 (.number 1) .ro,
   (row 0x2000 0 (.blob 12) .ro).open', row 0x2002 1 (.number 1) .ro, (row 0x2003 0 (.number 1) .ro).open',
   row 0x2003 1 (.number 4) .ro, row 0x2040 0 (.blob 12) .ro, row 0x2040 1 (.number 4) .ro, row 0x2041 0 (.number 4) .ro,
   (row 0x3004 0 (.number 4) .ro).open', row 0x3005 0 (.number 4) .ro, (row 0x3023 0 (.table 8 1024) .ro).own,
   row 0x3025 0 (.number 8) .ro, row 0x3040 0 (.table 8 192) .ro, (row 0x4010 0 (.table 8 128) .ro).open',
   rows 0x4020 0 0x3F (.table 2 16) .ro, rows 0x4021 0 0x3F (.table 64 256) .ro, row 0x4023 0 (.number 4) .ro,
   rows 0x5002 1 2 (.number 4) .ro, row 0x5003 0 (.table 8 512) .ro, row 0x5004 0 (.table 4 64) .ro, row 0x5011 5 (.number 4) .ro,
   row 0x5020 0 (.table 20 64) .ro, row 0x5021 0 (.number 4) .ro, row 0x5040 1 (.number 4) .ro, row 0x5040 2 (.number 1) .ro,
   row 0x5041 0 (.table 16 256) .ro, row 0x5042 0 (.table 16 48) .ro]

/-- The objects of class RO of the ranges 0x6000 to 0x9FFF. The views 0x9010 and 0x9011 hold only the requesting instance's records. -/
def roMiddle : List ObjInfo :=
  [row 0x6003 0 (.table 8 84) .ro, rows 0x6040 9 10 (.number 4) .ro, rows 0x6053 0 0x53 (.table 8 68) .ro,
   row 0x6060 0 (.table 64 84) .ro, row 0x7000 0 (.table 8 48) .ro, row 0x7001 0 (.table 8 2) .ro, row 0x7012 0 (.table 8 4096) .ro,
   row 0x7030 0 (.table 32 48) .ro, row 0x7040 0 (.table 16 2) .ro, row 0x8001 0 (.number 2) .ro, row 0x8012 0 (.table 8 4096) .ro,
   row 0x8042 0 (.table 1 256) .ro, row 0x8060 0 (.table 8 10) .ro, row 0x9000 0 (.number 4) .ro,
   (row 0x9001 0 (.table 4 1024) .ro).own, (row 0x9003 0 (.table 16 1024) .ro).own, (row 0x9010 0 (.table 16 1024) .ro).open',
   (row 0x9011 0 (.table 64 16384) .ro).open', row 0x9032 0 (.table 8 16) .ro, row 0x9040 0 (.table 64 262144) .ro]

/-- The objects of class RO of the ranges from 0xA000 on. -/
def roHigh : List ObjInfo :=
  [row 0xA000 0 (.table 16 144) .ro, row 0xA003 0 (.number 4) .ro, row 0xA010 6 (.number 4) .ro, row 0xA013 0 (.table 64 256) .ro,
   row 0xA014 0 (.table 64 64) .ro, row 0xA020 0 (.table 16 65536) .ro, row 0xA033 0 (.table 16 128) .ro,
   (row 0xA050 0 (.table 128 1024) .ro).own, row 0xA062 0 (.table 136 8) .ro, row 0xA064 0 (.number 8) .ro,
   row 0xA064 1 (.number 8) .ro, row 0xB001 0 (.blob 65535) .ro, row 0xB010 0 (.table 16 2) .ro, row 0xB013 0 (.number 1) .ro,
   row 0xB021 0 (.number 1) .ro, row 0xC000 0 (.number 4) .ro, row 0xC004 0 (.table 1 8) .ro, row 0xC010 0 (.table 8 10) .ro,
   row 0xC011 0 (.table 2 59) .ro, row 0xC012 0 (.table 12 59) .ro,
   rows 0xD000 0 0x3F (.table 192 2) .ro, rows 0xD100 0 0x3F (.table 192 2) .ro, rows 0xD001 0 0x3F (.table 8 16) .ro,
   rows 0xD101 0 0x3F (.table 8 16) .ro, rows 0xD002 0 7 (.table 16 4) .ro, rows 0xD102 0 7 (.table 16 4) .ro,
   rows 0xD003 0 0x53 (.table 8 16) .ro, rows 0xD103 0 0x53 (.table 8 16) .ro, row 0xD110 0 (.table 32 456) .ro,
   row 0xD011 0 (.table 32 456) .ro, row 0xD111 0 (.table 32 456) .ro, row 0xD0F2 0 (.number 4) .ro,
   row 0xE001 0 (.number 4) .ro, row 0xE015 0 (.table 32 4) .ro, row 0xE016 0 (.table 4 8) .ro]

/-- Every object of the dictionary. -/
def catalogue : List ObjInfo := constObjects ++ roLow ++ roMiddle ++ roHigh ++ stageObjects ++ rwObjects ++ woObjects

/-- The object an index and a subindex name, if any (R375). -/
def findObject (index sub : Nat) : Option ObjInfo :=
  catalogue.find? (fun o => o.index == index && decide (o.first ≤ sub ∧ sub ≤ o.last))

/-! ### Records present (R374) -/

/-- The object that counts a table's records, where one exists. -/
def countObject (index : Nat) : Option Nat :=
  match index with
  | 0x3002 => some 0x3001
  | 0x5001 => some 0x5000
  | 0x7010 => some 0x7011
  | 0x8010 => some 0x8011
  | 0x8040 => some 0x8041
  | _ => none

/-- The records of a table of a version that are present: as its count says, or of a table that is empty until written, those up
to the last one written; of any other all it has (R374). (DEDUCED, assumption 25) -/
def recordsIn (t : Tab Nat) (o : ObjInfo) (sub : Nat) : Nat :=
  match o.type with
  | .table _ most =>
    match countObject o.index with
    | some c => getRec t c 0 0
    | none =>
      if o.index = 0x6010 then bits (getRec t 0x6011 0 sub) 63 53
      else if o.index = 0x3030 ∨ o.index = 0x3031 then (listedRecs t o.index sub).foldl (fun a r => Nat.max a (r + 1)) 0
      else most
  | _ => 1

/-- The fields of a record that are checked: of a window that is skipped, only the reserved bit (R71). -/
def ObjInfo.fieldsOf (o : ObjInfo) (v : Nat) : List Field :=
  if o.index = 0x3002 ∧ winLength v = 0 then [fZero 88 88] else o.fields

/-- The lowest bit of the first fault of one record: a field, or a complement half that is not exact. An exact pair is asked only
of records that hold one. -/
def ObjInfo.recordFault (o : ObjInfo) (v : Nat) : Option Nat :=
  match firstFault (o.fieldsOf v) v with
  | some b => some b
  | none => if o.half ≠ 0 ∧ pairGood o.half (v % 2 ^ o.half) (v >>> o.half) = false then some o.half else none

/-- The Reason for which one record is refused at a write (R376): COMPLEMENT before RANGE, since the fields lie in the value half. -/
def ObjInfo.recordReason (o : ObjInfo) (v : Nat) : BitVec 8 :=
  if o.half ≠ 0 ∧ pairGood o.half (v % 2 ^ o.half) (v >>> o.half) = false then rsComplement
  else if (firstFault (o.fieldsOf v) v).isSome then rsRange else rsNone

end Sys2Proof.Machine
end

