-- ==== Sys2Proof/Machine/HostLink.lean ====
section
/-!
DEFINITION. The host link: what ends a read, instance lifecycle and reset, resets of the link, MSI-X, dirty logs, migration,
IDE (R345 to R366, R472, R473).
-/

namespace Sys2Proof.Machine

/-! ### Reads that end (R347, R473) -/

/-- The 64-byte records of data that has been read. -/
def records64 (data : List Byte) (n : Nat) : List (BitVec 512) :=
  (List.range n).map (fun i => BitVec.ofNat 512 (ofLeBytes ((data.drop (64 * i)).take 64)))

/-- The lines of a tender's read land with what the read returned. -/
def State.landRead (s : State) (e : EngineId) (c : ContextId) (r : HostRead) (result : ReadResult) (data : List Byte) : State :=
  let bytes := if result = .good ∨ result = .poisoned then data else []
  let at' := fun (i : Nat) => (BitVec.ofNat 64 (r.address.toNat + 64 * i) : W64)
  let line := fun (i : Nat) => ((bytes.drop (64 * i)).take 64 ++ List.replicate 64 0xFF).take 64
  (List.range (ceilDiv r.length 64)).foldl (fun s i => s.landSource e c 3 (at' i) (statusOfRead result) (line i)) s

/-- A flush read has come back (R356, R360): an instance's drain is done; harvested logs are complete. -/
def State.flushBack (s : State) (f : Source) : State :=
  match f with
  | .provider => s.completeHarvests.flushLogs
  | .inst n => s.setInst n { s.inst n with flushDone := true, flushIssued := false }

/-- A non-posted read ends (R347): what it was for takes the data or the failure. -/
def State.readEnds (s : State) (tag : Nat) (r : HostRead) (result : ReadResult) (data : List Byte) : State :=
  let good : Bool := result == .good
  let value := ofLeBytes (data.take 8)
  let s1 := s.endRead tag
  match r.purpose with
  | .summary line => effSummaryLineRead line result (BitVec.ofNat 512 (ofLeBytes data)) s
  | .batch f =>
    ((records64 data (ceilDiv r.length 64)).zipIdx).foldl (fun s q =>
      s.batchArrived f tag { r with length := r.length - 64 * q.2 } result q.1) s
  | .plan c n => s1.planArrived c n good (BitVec.ofNat 512 (ofLeBytes (data.take 64))) (records64 (data.drop 64) 127)
  | .payload c slot i => s1.payloadArrived c slot i.toNat good data
  | .radioConsumed => if good then { s1 with radio := { s1.radio with ringConsumed := BitVec.ofNat 64 value } }
                      else s1.countFailed 0x5011 4 0 result
  | .mgmtCounts tx =>
    if good = false then s1.countFailed 0x6040 (if tx then 6 else 3) 0 result
    else if tx then { s1 with mgmt := { s1.mgmt with txCount := BitVec.ofNat 64 value } }
    else { s1 with mgmt := { s1.mgmt with rxConsumed := BitVec.ofNat 64 value } }
  | .eventConsumed => if good then { s1 with integ := { s1.integ with ringConsumed := BitVec.ofNat 64 value } }
                      else s1.countFailed 0xA010 3 0 result
  | .providerCounter => s1.providerCounterRead result value
  | .tender e c => s1.landRead e c r result data
  | .flush f => s1.flushBack f

/-- A completion of a read; one of no outstanding read is dropped and counted (R347). -/
def effHostReadCompletion (tag : Nat) (result : ReadResult) (data : List Byte) (s : State) : State :=
  match Tab.get none s.host.reads tag with
  | none => { s with host := { s.host with lateDropped := s.host.lateDropped + 1 } }
  | some r => (s.readEnds tag r result data).resumeRings

/-- HOST_READ_COMPLETION (R347). -/
def execHostReadCompletion (tag : BitVec 14) (result : ReadResult) (data : List Byte) (s : State) :
    Host.Outcome State Fault Refusal := .next (effHostReadCompletion tag.toNat result data s)

/-- A flush read that has not come back within 100 µs: a reset stalls, and the read is made again (R356). -/
def effFlushReadTimeout (f : Source) (s : State) : State :=
  match s.findRead (.flush f) with
  | none => s
  | some (tag, r) =>
    if s.elapsed r.issuedAt 100 = false then s else
    let s1 := (s.endRead tag).issueRead f r.address.toNat 0 (.flush f)
    match f with
    | .provider => s1
    | .inst n =>
      let i := s1.inst n
      s1.setInst n { i with flushRetries := i.flushRetries + 1, life := if i.life = .resetting then .resetStalled else i.life }

/-- FLUSH_READ_TIMEOUT (R356). -/
def execFlushReadTimeout (function : Source) (s : State) : Host.Outcome State Fault Refusal := .next (effFlushReadTimeout function s)

/-- The timeout of a non-posted read in microseconds, by the Completion Timeout Value of Device Control 2; a code the table does not list
acts as the default (R347). (DESIGN CHOICE, assumption 171) -/
def readTimeoutUs (code : BitVec 4) : Nat :=
  match code.toNat with
  | 1 => 100
  | 5 => 55000
  | 6 => 210000
  | 9 => 900000
  | 10 => 3500000
  | 13 => 13000000
  | 14 => 64000000
  | _ => 10000

/-- A read has had no completion within the timeout (R347). A flush read's is R356's. -/
def effHostReadTimeout (tag : Nat) (s : State) : State :=
  match Tab.get none s.host.reads tag with
  | none => s
  | some r =>
    if s.elapsed r.issuedAt (readTimeoutUs s.host.timeoutCode) = false then s
    else
      match r.purpose with
      | .flush f => effFlushReadTimeout f s
      | _ => s.readEnds tag r .timeout []

/-- HOST_READ_TIMEOUT (R347). -/
def execHostReadTimeout (tag : BitVec 14) (s : State) : Host.Outcome State Fault Refusal := .next (effHostReadTimeout tag.toNat s)

/-! ### Instance reset (R355) -/

/-- The contexts of an instance in the active version. -/
def State.instContexts (s : State) (n : InstanceId) : List ContextId :=
  ((contextRecs s.vers.active).filter (fun r => !ctxProvider r && ctxInstanceOf r == n)).map (fun r => BitVec.ofNat 10 (ctxId r))

/-- Add to an instance's StaleDropped. -/
def State.addStale (s : State) (n : InstanceId) (k : Nat) : State := s.setInst n { s.inst n with stale := (s.inst n).stale + BitVec.ofNat 32 k }

/-- Take an instance's RESET: the generation advances, its partitions are killed, its batches end without completions, its ring
is disabled, and a flush read follows its writes; one while the link carries nothing is skipped (R354, R355, R357). -/
def State.resetInst (s : State) (n : InstanceId) : State :=
  let i := s.inst n
  if i.life = .resetting ∨ i.life = .resetStalled then s
  else
    let g := i.generation + 1
    let cs := s.instContexts n
    let parts := cs.foldl (fun a c => a + (s.enginesOf c).length) 0
    let s1 := cs.foldl (fun s c => s.killContext c stInternal (some n)) s
    let held := s1.batches.filter (fun (b : Batch) => b.origin == BatchOrigin.ring (Source.inst n))
    let s2 := { s1 with batches := s1.batches.filter (fun (b : Batch) => b.origin != BatchOrigin.ring (Source.inst n)),
                        host := { s1.host with reads := Tab.mapAll none (fun _ q => q.filter (fun (h : HostRead) => h.source != Source.inst n)) s1.host.reads,
                                               vectors := Tab.upd {} s1.host.vectors (vectorKey (.inst n) 0) (fun v => { v with pending := false }) } }
    let s3 := s2.setObj 0x3021 0 n.toNat (setBits (s2.obj 0x3021 0 n.toNat) 52 52 0)
    let j := s3.inst n
    let ring : Ring := { j.ring with slots := 0, state := .idle, reading := 0, discardNoted := false }
    let j1 := { j with generation := g, generationC := ~~~g, life := .resetting, ring, flushIssued := false, flushDone := !s.linkUp,
                       disabling := false, importing := none, scrubsLeft := j.scrubsLeft + parts, stale := j.stale + BitVec.ofNat 32 held.length }
    (s3.setInst n j1).flushInst n

/-- INSTANCE_RESET (R355). -/
def execInstanceReset (instanceId : InstanceId) (s : State) : Host.Outcome State Fault Refusal := .next (s.resetInst instanceId)

/-- VF_FLR (R353): a function-level reset of virtual function n + 1 is a RESET of instance n. -/
def execVfFlr (instanceId : InstanceId) (s : State) : Host.Outcome State Fault Refusal := .next (s.resetInst instanceId)

/-- A reset whose flush read and scrubs are done ends (R355 step 6). -/
def effInstanceResetComplete (n : InstanceId) (s0 : State) : State :=
  let s := s0.flushInst n
  let i := s.inst n
  if (i.life = .resetting ∨ i.life = .resetStalled) ∧ i.flushDone ∧ i.scrubsLeft = 0 then
    (s.setInst n { i with life := .idle, flushDone := false, resets := i.resets + 1 }).raise
      { area := 0x90, kind := 0x10, unit := hostUnit, inst := some n }
  else s

/-- INSTANCE_RESET_COMPLETE (R355). -/
def execInstanceResetComplete (instanceId : InstanceId) (s : State) : Host.Outcome State Fault Refusal :=
  .next (effInstanceResetComplete instanceId s)

/-! ### Quiesce and resume (R352, R353) -/

/-- QUIESCE, allowed in ACTIVE. -/
def State.quiesceInst (s : State) (n : InstanceId) : State × BitVec 8 :=
  let i := s.inst n
  if i.life = .active then
    (((s.setInst n { i with life := .quiescing, disabling := false, flushDone := false, flushIssued := false }).flushInst n), rsNone)
  else (s, rsState)

/-- INSTANCE_QUIESCE (R353). -/
def execInstanceQuiesce (instanceId : InstanceId) (s : State) : Host.Outcome State Fault Refusal := .next (s.quiesceInst instanceId).1

/-- RESUME, allowed in QUIESCING and QUIESCED while Enable is 1 (R352, R353). -/
def State.resumeInst (s : State) (n : InstanceId) : State × BitVec 8 :=
  let i := s.inst n
  if (i.life = .quiescing ∨ i.life = .quiesced) ∧ ringEnabled (s.ringRec (.inst n)) then
    (s.setInst n { i with life := .active, flushDone := false }, rsNone)
  else (s, rsState)

/-- INSTANCE_RESUME (R353). -/
def execInstanceResume (instanceId : InstanceId) (s : State) : Host.Outcome State Fault Refusal := .next (s.resumeInst instanceId).1

/-- An instance that quiesces holds no batch and its flush read is done: QUIESCED, or IDLE when its Enable was cleared (R352). -/
def effQuiesceComplete (n : InstanceId) (s0 : State) : State :=
  let s := s0.flushInst n
  let i := s.inst n
  if i.life = .quiescing ∧ i.ring.slots = 0 ∧ i.flushDone then
    s.setInst n { i with life := if i.disabling then .idle else .quiesced, flushDone := false, disabling := false }
  else s

/-- QUIESCE_COMPLETE (R352). -/
def execQuiesceComplete (instanceId : InstanceId) (s : State) : Host.Outcome State Fault Refusal := .next (effQuiesceComplete instanceId s)

/-! ### Migration (R361, R362) -/

/-- The partition records of an instance, by context then engine. -/
def State.instPartitions (s : State) (n : InstanceId) : List (ContextId × EngineId) :=
  (s.instContexts n).flatMap (fun c => (s.enginesOf c).map (fun e => (c, e)))

/-- The head of an export record (R361). -/
def exportHead (kind : Nat) (e : EngineId) (c : ContextId) (index : Nat) : Nat :=
  kind * 2 ^ 508 + e.toNat * 2 ^ 502 + c.toNat * 2 ^ 492 + index * 2 ^ 484

/-- The entries of a partition that are not FREE, with their handles. -/
def State.partitionEntries (s : State) (c : ContextId) (e : EngineId) : List (Nat × Nat) :=
  match (s.engine e).boundsOf c with
  | none => []
  | some r => ((List.range (16 * parCount r)).map (fun h => (h, (Tab.get {} (s.engine e).moorings (16 * parFirst r + h)).value.toNat))).filter
                (fun q => mState q.2 ≠ mFree)

/-- The records of a partition's export. -/
def State.exportPartition (s : State) (c : ContextId) (e : EngineId) : List Nat :=
  let k := s.ectx e c
  let count := match (s.engine e).boundsOf c with | some r => parCount r | none => 0
  let sems := fun (i : Nat) => (List.range 16).foldl (fun a j => a + (Tab.get 0 k.semaphores (16 * i + j)).toNat * 2 ^ (468 - 16 * j)) 0
  [exportHead 1 e c 0 + count * 2 ^ 479, exportHead 2 e c 0 + sems 0, exportHead 2 e c 1 + sems 1] ++
    (s.partitionEntries c e).map (fun q => exportHead 3 e c q.1 + q.2 * 2 ^ 228)

/-- The export of an instance (R361). -/
def State.exportInst (s : State) (n : InstanceId) : List (BitVec 512) :=
  let body := (s.instPartitions n).flatMap (fun q => s.exportPartition q.1 q.2)
  ((exportHead 0 0 0 0 + (s.inst n).generation.toNat * 2 ^ 468 + n.toNat * 2 ^ 458 + (body.length + 1) * 2 ^ 440) :: body).map (BitVec.ofNat 512)

def exKind (r : Nat) : Nat := bits r 511 508
def exEngine (r : Nat) : EngineId := BitVec.ofNat 6 (bits r 507 502)
def exContext (r : Nat) : ContextId := BitVec.ofNat 10 (bits r 501 492)
def exIndex (r : Nat) : Nat := bits r 491 484

/-- Whether the records of one engine and context stand as R361 orders them: a PARTITION, two SEMAPHORES, then MOORING records of
rising handle; `fuel` bounds their number. -/
def exportOrdered : List Nat → Nat → Bool
  | [], _ => true
  | _, 0 => false
  | r :: rs, fuel + 1 =>
    let own := fun (q : Nat) => exEngine q == exEngine r && exContext q == exContext r
    let moors := (rs.drop 2).takeWhile (fun q => exKind q == 3 && own q)
    exKind r == 1 &&
    (match rs with
     | a :: b :: _ => exKind a == 2 && own a && exIndex a == 0 && exKind b == 2 && own b && exIndex b == 1
     | _ => false) &&
    (moors.zip (moors.drop 1)).all (fun q => decide (exIndex q.1 < exIndex q.2)) &&
    exportOrdered ((rs.drop 2).drop moors.length) fuel

/-- Whether an import may be accepted (R362). (DEDUCED, assumption 105) -/
def State.importGood (s : State) (n : InstanceId) (rs : List Nat) : Bool :=
  match rs with
  | [] => false
  | h :: body =>
    (s.inst n).life == .idle && exKind h == 0 && bits h 457 440 == rs.length && exportOrdered body rs.length &&
    body.all (fun r => exKind r != 1 ||
      ((s.instContexts n).contains (exContext r) &&
       (match (s.engine (exEngine r)).boundsOf (exContext r) with
        | some p => bits r 483 479 == parCount p && (s.partitionEntries (exContext r) (exEngine r)).isEmpty
        | none => false)))

/-- An entry installed as MOOR would: State EMPTY, Dirty, WriteSeq and ProducerSerial zero (R133, R134, R362). -/
def importedEntry (v : Nat) : Mooring :=
  let w := setBits (setBits (setBits v 245 243 mEmpty) 241 241 0) 167 136 0
  { value := BitVec.ofNat 256 w, comp := ~~~(BitVec.ofNat 256 w) }

/-- What an accepted import does once its flush read is done (R362). -/
def State.applyImport (s : State) (n : InstanceId) (rs : List Nat) : State :=
  let g : W16 := BitVec.ofNat 16 (bits (rs.headD 0) 483 468)
  let s1 := s.setInst n { s.inst n with generation := g, generationC := ~~~g, importing := none, flushDone := false }
  (rs.drop 1).foldl (fun s r =>
    let e := exEngine r
    let c := exContext r
    match exKind r, (s.engine e).boundsOf c with
    | 2, some _ =>
      let k := s.ectx e c
      let sems := (List.range 16).foldl (fun t j =>
        Tab.set 0 t (16 * exIndex r + j) (BitVec.ofNat 16 (bits r (483 - 16 * j) (468 - 16 * j)))) k.semaphores
      s.setEctx e c { k with semaphores := sems }
    | 3, some p =>
      s.updEngine e (fun x => { x with moorings := Tab.set {} x.moorings (16 * parFirst p + exIndex r) (importedEntry (bits r 483 228)) })
    | _, _ => s) s1

/-- Apply an import whose flush read is done. -/
def State.finishImport (s : State) (n : InstanceId) : State :=
  let i := s.inst n
  match i.importing with
  | none => s
  | some rs => if i.flushDone then s.applyImport n (rs.map (·.toNat)) else s

/-- A write of InstanceImport: refused, or accepted and applied after a flush read of the instance (R362). -/
def State.importInst (s : State) (n : InstanceId) (rs : List (BitVec 512)) : State × BitVec 8 :=
  if s.importGood n (rs.map (·.toNat)) = false then (s, rsState)
  else
    let i := { s.inst n with importing := some rs, flushDone := !s.linkUp, flushIssued := false }
    (((s.setInst n i).flushInst n).finishImport n, rsNone)

/-- INSTANCE_IMPORT (R362). -/
def execInstanceImport (instanceId : InstanceId) (records : List (BitVec 512)) (s : State) : Host.Outcome State Fault Refusal :=
  .next (s.importInst instanceId records).1

/-- A flush read completes; an import that waited for it is applied (R356, R362). -/
def effFlushReadComplete (f : Source) (s : State) : State :=
  match s.findRead (.flush f) with
  | none => s
  | some (tag, _) =>
    let s1 := (s.endRead tag).flushBack f
    match f with
    | .provider => s1
    | .inst n => s1.finishImport n

/-- FLUSH_READ_COMPLETE (R356). -/
def execFlushReadComplete (function : Source) (s : State) : Host.Outcome State Fault Refusal := .next (effFlushReadComplete function s)

/-! ### Resets of the link (R357, R472) -/

/-- Every instance is reset. -/
def State.resetAll (s : State) : State := (List.range 1024).foldl (fun s n => s.resetInst (BitVec.ofNat 10 n)) s

/-- The physical function's DMA objects are disabled, and dirty logs stopped (R357). -/
def State.clearPfObjects (s : State) : State :=
  let s1 := (List.range 512).foldl (fun s c => s.setObj 0x5010 0 c (setBits (s.obj 0x5010 0 c) 59 59 0)) s
  let s2 := (List.range 16).foldl (fun s i => s.setObj 0x9030 0 i (setBits (s.obj 0x9030 0 i) 22 22 0)) s1
  let s3 := (s2.setObj 0x6040 8 0 0).setObj 0xA010 4 0 0
  let s4 := (s3.setObj 0x3024 0 0 (setBits (s3.obj 0x3024 0 0) 52 52 0)).setObj 0x5011 1 0 0
  { s4 with host := { s4.host with dirty := Tab.mapAll {} (fun _ d => { d with harvesting := false, closing := false, flushing := false }) s4.host.dirty } }

/-- PF_FLR (R357). -/
def execPfFlr (s : State) : Host.Outcome State Fault Refusal := .next s.resetAll.clearPfObjects

/-- VF_ENABLE_CHANGE (R357): clearing VF Enable or changing NumVFs resets every instance. -/
def execVfEnableChange (enable : Bool) (numVFs : BitVec 16) (s : State) : Host.Outcome State Fault Refusal :=
  let s1 := { s with host := { s.host with vfEnable := enable, numVFs } }
  .next (if (s.host.vfEnable ∧ enable = false) ∨ s.host.numVFs ≠ numVFs then s1.resetAll else s1)

/-- A posted write that is discarded: a step's ends with REMOTE_TIMEOUT, a record is counted as dropped (R472). -/
def State.settleWrite (s : State) (w : PostedWrite) : State :=
  match w.purpose with
  | .store e c => s.ackTarget e c 3 w.address stRemoteTimeout
  | _ => s.discardPost w

/-- The host port settles everything it holds: reads end with no completion, and posted writes are discarded (R472). -/
def State.settlePort (s : State) : State :=
  let writes := s.host.writes
  let s1 := { s with host := { s.host with writes := [] } }
  let s2 := writes.foldl State.settleWrite s1
  s2.host.reads.foldl (fun s q => match Tab.get none s.host.reads q.1 with
    | some r => s.readEnds q.1 r .timeout []
    | none => s) s2

/-- An IDE stream loses its secure state, raised as an event (R365). -/
def State.loseIde (s : State) (k : Nat) : State :=
  let x := Tab.get {} s.host.ide k
  if x.secure then
    { s with host := { s.host with ide := Tab.set {} s.host.ide k { x with secure := false, keys := [] } } }.raise
      { area := 0x90, kind := 0x10, unit := hostUnit, detail := [(8, k)] }
  else s

/-- IDE_STREAM_LOSS (R365). -/
def execIdeStreamLoss (stream : Fin 5) (s : State) : Host.Outcome State Fault Refusal := .next (s.loseIde stream.val)

/-- The link goes into a phase in which it carries nothing: every instance is reset with no flush read, the physical function's
objects are disabled, the port settles what it holds, IDE streams are lost and configuration space returns to its reset
values (R357, R365, R472). (PRESUMED, assumption 10) -/
def State.dropLink (s : State) (phase : LinkPhase) : State :=
  let s1 := { s with host := { s.host with phase, width := 0, rate := 0, flit := false } }
  let s2 := s1.resetAll.clearPfObjects.settlePort
  let s3 := (List.range 5).foldl State.loseIde s2
  { s3 with host := { s3.host with timeoutCode := 0, vfEnable := false, numVFs := 0, vectors := [], translations := [],
                                   pfWrote := false },
            keeper := { s3.keeper with doe := {} } }

/-- HOT_RESET (R357, R472): the port then retrains. -/
def execHotReset (s : State) : Host.Outcome State Fault Refusal :=
  .next (if s.linkUp then s.dropLink .training else s)

/-- LINK_DOWN (R357, R472): the loss is raised as an event. (DEDUCED, assumption 104) -/
def execLinkDown (s : State) : Host.Outcome State Fault Refusal :=
  .next (if s.linkUp then (s.dropLink .down).raise { area := 0x90, kind := 0x03, unit := hostUnit } else s)

/-- HOST_LINK_UP (R357): the link trains to L0, unless held in reset. -/
def execHostLinkUp (width rate : BitVec 4) (flit : Bool) (s : State) : Host.Outcome State Fault Refusal :=
  .next (if s.start.running = false ∨ s.host.perst ∨ s.host.phase = .inReset ∨ s.linkUp then s
         else { s with host := { s.host with phase := .up, width, rate, flit } })

/-- PERST_N_ASSERT (R429): the host port is held in reset, with the effects of a hot reset. -/
def execPerstNAssert (s : State) : Host.Outcome State Fault Refusal :=
  .next (if s.host.perst then s
         else
           let s1 := { s with host := { s.host with perst := true } }
           if s.start.running = false then s1 else s1.dropLink .inReset)

/-- PERST_N_RELEASE (R429): the port may train. -/
def execPerstNRelease (s : State) : Host.Outcome State Fault Refusal :=
  .next (if s.host.perst then
           { s with host := { s.host with perst := false, phase := if s.host.phase = .inReset ∧ s.start.running then .training else s.host.phase } }
         else s)

/-! ### Translations, unmapped writes, MSI-X (R348, R349, R351) -/

/-- ATS_INVALIDATION (R348): the device stops using the translations of the pages at once. -/
def execAtsInvalidation (function : Source) (page : BitVec 52) (count : BitVec 32) (s : State) : Host.Outcome State Fault Refusal :=
  let hit := fun (q : Source × Nat) => q.1 == function && decide (page.toNat ≤ q.2 ∧ q.2 < page.toNat + count.toNat)
  .next { s with host := { s.host with translations := s.host.translations.filter (fun q => !hit q) } }

/-- Whether BAR0 of a function maps an offset (R349). -/
def barMapped (f : Source) (o : Nat) : Bool :=
  match f with
  | .provider => o < 8 || (0x1000 ≤ o && o < 0x2000) || (0x10000 ≤ o && o < 0x10400) || (0x18000 ≤ o && o < 0x18008)
  | .inst _ => o < 8 || (0x1000 ≤ o && o < 0x2000) || (0x2000 ≤ o && o < 0x2010) || (0x3000 ≤ o && o < 0x3008)

/-- The size of BAR0 of a function. -/
def barSize : Source → Nat
  | .provider => 131072
  | .inst _ => 16384

/-- The virtual function's number, if a function is one. -/
def instOf : Source → Option InstanceId
  | .provider => none
  | .inst n => some n

/-- BAR_UNMAPPED_WRITE (R349): discarded and counted, and an event names the function. -/
def execBarUnmappedWrite (function : Source) (offset : BitVec 17) (s : State) : Host.Outcome State Fault Refusal :=
  .next (if s.linkUp = false ∨ s.ideBlocked ∨ barMapped function offset.toNat ∨ barSize function ≤ offset.toNat then s
         else
           let number := match function with | .provider => 0 | .inst n => n.toNat + 1
           { s with host := { s.host with unmappedWrites := s.host.unmappedWrites + 1 } }.raise
             { area := 0x90, kind := 0x20, unit := hostUnit, inst := instOf function, detail := [(16, number)] })

/-- MSIX_UNMASK (R351): a pending message is sent. -/
def execMsixUnmask (function : Source) (vector : BitVec 6) (s : State) : Host.Outcome State Fault Refusal :=
  let k := vectorKey function vector.toNat
  let v := Tab.get {} s.host.vectors k
  let n := match function with | .provider => vector.toNat | .inst _ => 0
  let s1 := { s with host := { s.host with vectors := Tab.set {} s.host.vectors k { unmasked := true, pending := false } } }
  .next (if v.pending then s1.msix function n else s1)

/-! ### Dirty logs (R358, R360) -/

/-- A write of a dirty log's record: its fields are refused while Enable is 1, except a write that clears Enable. Setting Enable
starts epoch 0; clearing it ends logging after a flush read (R358 to R360). -/
def State.writeDirtyLog (s : State) (i : Nat) (new : Nat) : State × BitVec 8 :=
  let old := s.obj 0x9030 0 i
  let d := Tab.get {} s.host.dirty i
  if 2 ^ 30 < dirtyPages new ∨ bits new 21 0 ≠ 0 ∨ dirtyHostBase new % 4096 ≠ 0 ∨ dirtyIova new % 4096 ≠ 0 ∨ dirtyDeviceBase new % 4096 ≠ 0 then
    (s, rsRange)
  else if dirtyEnabled old ∧ (dirtyEnabled new ∨ setBits new 22 22 0 ≠ setBits old 22 22 0) ∧ new ≠ old then (s, rsState)
  else
    let s1 := s.setObj 0x9030 0 i new
    let d1 : DirtyLog := if dirtyEnabled new ∧ ¬ dirtyEnabled old then {}
                         else if dirtyEnabled old ∧ ¬ dirtyEnabled new then { d with closing := true } else d
    ({ s1 with host := { s1.host with dirty := Tab.set {} s1.host.dirty i d1 } }.flushLogs, rsNone)

/-- DIRTY_LOG_WRITE (R358). -/
def execDirtyLogWrite (index : BitVec 4) (record : BitVec 256) (s : State) : Host.Outcome State Fault Refusal :=
  .next (s.writeDirtyLog index.toNat record.toNat).1

/-- A HARVEST ends the current epoch and starts the next; refused while the one before is incomplete (R360). -/
def State.harvestLog (s : State) (i : Nat) : State × BitVec 8 :=
  let d := Tab.get {} s.host.dirty i
  if 16 ≤ i then (s, rsRange)
  else if dirtyEnabled (s.obj 0x9030 0 i) = false ∨ d.harvesting then (s, rsState)
  else
    let d1 := { d with epoch := d.epoch + 1, harvesting := true, marked := [] }
    ({ s with host := { s.host with dirty := Tab.set {} s.host.dirty i d1 } }.flushLogs, rsNone)

/-- HARVEST (R360). -/
def execHarvest (index : BitVec 4) (s : State) : Host.Outcome State Fault Refusal := .next (s.harvestLog index.toNat).1

/-! ### IDE keys (R365) -/

/-- IDE_KM_KEY_PROG (R365): a key of a stream, in a secured session over DOE. -/
def execIdeKmKeyProg (stream : Fin 5) (sub : BitVec 3) (key : BitVec 256) (s : State) : Host.Outcome State Fault Refusal :=
  let x := Tab.get {} s.host.ide stream.val
  .next (if s.linkUp = false ∨ s.host.flit = false ∨ s.keeper.doe.session ≠ .opened then s
         else { s with host := { s.host with ide := Tab.set {} s.host.ide stream.val { x with keys := Tab.set 0 x.keys sub.toNat key } } })

/-- IDE_STREAM_SECURE (R365): the host sets a stream with its keys programmed to the secure state. -/
def execIdeStreamSecure (stream : Fin 5) (s : State) : Host.Outcome State Fault Refusal :=
  let x := Tab.get {} s.host.ide stream.val
  .next (if s.linkUp = false ∨ s.host.flit = false ∨ x.keys.isEmpty then s
         else { s with host := { s.host with ide := Tab.set {} s.host.ide stream.val { x with secure := true } } })

end Sys2Proof.Machine
end

