-- ==== Sys2Proof/Machine/Ledgers.lean ====
section
/-!
DEFINITION. Conservation ledgers (R37, R400 to R402): the pools, their configured sizes and terms, and what a violation stops.
-/

namespace Sys2Proof.Machine

/-- A pool: its row of R400, its unit, its index within the unit, its configured size, and the units in use and in flight. -/
structure Pool where
  row : Nat
  unit : UnitId
  index : Nat
  size : Nat
  inUse : Nat := 0
  inFlight : Nat := 0

/-- The key of a pool's ledger. -/
def Pool.key (p : Pool) : Nat := (p.row * 65536 + p.unit.toNat) * 65536 + p.index

/-- Sum of a number over a list. -/
def sumOf {α : Type} (f : α → Nat) (xs : List α) : Nat := xs.foldl (fun a x => a + f x) 0

/-! ### Network credits (R35, R38, R39) -/

/-- The credits of a point for the classes RAN, INFERENCE, ADMIN and MIRROR, in the order of their codes. -/
def portCredits : List Nat := [384, 1536, 128, 0]
def meshCredits : List Nat := [256, 576, 64, 128]
def serviceCredits : List Nat := [0, 0, 64, 0]
def ringCredits : List Nat := [256, 128, 64, 64]

/-- The credits of a die-to-die link end (R39). -/
def linkCredits (e : Nat) : List Nat := if e < 2 then [512, 3008, 64, 512] else [384, 544, 32, 64]

/-- Pools of the four classes of a point that holds nothing in transit. -/
def idlePools (row : Nat) (u : UnitId) (point : Nat) (credits : List Nat) : List Pool :=
  (credits.zipIdx).map (fun c => { row, unit := u, index := 4 * point + c.2, size := c.1 })

/-- The lines a class holds at an engine's port: read lines and write lines (R38). -/
def State.portLines (s : State) (e : EngineId) (cls : Nat) : Nat :=
  sumOf (fun (q : Nat × EngineContext) => if s.ctxClass (BitVec.ofNat 10 q.1) = cls then q.2.readLines + q.2.writeLines else 0)
    (s.engine e).contexts

/-- The pools of a group router: eight engine ports, then its mesh and service ports in each direction. -/
def State.routerPools (s : State) (g : Nat) : List Pool :=
  let u := unitId 1 g
  ((List.range 8).flatMap (fun p => (portCredits.zipIdx).map (fun c =>
    { row := 0, unit := u, index := 4 * p + c.2, size := c.1, inFlight := s.portLines (BitVec.ofNat 6 (8 * g + p)) c.2 }))) ++
  idlePools 0 u 8 meshCredits ++ idlePools 0 u 9 meshCredits ++ idlePools 0 u 10 serviceCredits ++ idlePools 0 u 11 serviceCredits

/-- The pools of the die networks: 48 directed hops of each 4 × 4 mesh; the manual does not number the Gallery ring's stops, so
one point stands for each direction of the ring. (DEDUCED, assumption 123) -/
def networkPools : List Pool :=
  ([0, 1].flatMap (fun d => (List.range 48).flatMap (fun h => idlePools 1 (unitId 2 d) h meshCredits))) ++
  ([0, 1].flatMap (fun h => idlePools 1 (unitId 2 2) h ringCredits))

/-- The pools of the six die-to-die link ends. -/
def linkPools : List Pool := (List.range 6).flatMap (fun e => idlePools 2 (unitId 5 e) 0 (linkCredits e))

/-! ### An engine's pools -/

/-- Whether a mooring entry is FREE. -/
def Mooring.free (m : Mooring) : Bool := mState m.value.toNat == mFree

/-- The entries of an engine's table that are not FREE within a range of places. -/
def Engine.entriesIn (x : Engine) (first count : Nat) : Nat :=
  (x.moorings.filter (fun q => decide (first ≤ q.1 ∧ q.1 < first + count) && !q.2.free)).length

/-- The pools of one engine: allotments, tracker, tokens, mooring entries, granules. -/
def State.enginePools (s : State) (e : EngineId) : List Pool :=
  let x := s.engine e
  let u := engineUnit e
  let held := ((List.range 1024).map (BitVec.ofNat 10)).filter (fun c => (x.boundsOf c).isSome)
  (held.filter (fun c => s.ctxClass c == 1)).map (fun c =>
    { row := 3, unit := u, index := c.toNat, size := parCredits ((s.partition e c).getD 0),
      inFlight := (x.ctx c).readLines + (x.ctx c).writeLines : Pool }) ++
  [{ row := 4, unit := u, index := 0, size := 2048, inFlight := sumOf (fun (q : Nat × EngineContext) => q.2.readLines) x.contexts }] ++
  held.map (fun c => { row := 5, unit := u, index := c.toNat, size := 16, inUse := (x.ctx c).tokensIssued,
                       inFlight := (x.ctx c).tokensFilling }) ++
  [{ row := 6, unit := u, index := 0xFFFF, size := 256, inUse := x.entriesIn 0 256 }] ++
  held.map (fun c => let r := (x.boundsOf c).getD 0
    { row := 6, unit := u, index := c.toNat, size := 16 * parCount r, inUse := x.entriesIn (16 * parFirst r) (16 * parCount r) }) ++
  [{ row := 7, unit := u, index := 0, size := 16, inUse := (x.granules.filter (fun q => q.2.state != .free)).length }]

/-! ### Gallery and transport -/

/-- The batch slots of the instances (R91). -/
def State.slotPools (s : State) : List Pool :=
  (List.range 1024).map (fun n => { row := 8, unit := controlUnit, index := n, size := bits (s.act 0x3020 0 n) 41 35,
                                    inUse := (s.inst (BitVec.ofNat 10 n)).ring.slots })

/-- The ingress buffers of the two dies, by class (R325). -/
def State.ingressPools (s : State) : List Pool :=
  [0, 1].flatMap (fun d => (List.range 4).map (fun c =>
    { row := 9, unit := unitId 2 d, index := c, size := 65536,
      inUse := sumOf (fun (q : Nat × BitVec 384 × Nat) => if q.1 = d ∧ (Header.decode q.2.1).cls.toNat = c then q.2.2 else 0) s.fabric.ingress }))

/-- The packet windows and request identifiers of the declared peers (R325, R337). -/
def State.peerPools (s : State) : List Pool :=
  (peersOf s.vers.active).flatMap (fun q =>
    let p := s.peer (BitVec.ofNat 12 q.1)
    (List.range 4).map (fun c =>
      { row := 10, unit := unitId 2 (q.1 % 2), index := 4 * q.1 + c, size := s.classWindow (BitVec.ofNat 2 c),
        inFlight := (p.stream (BitVec.ofNat 2 c)).unacked.length : Pool }) ++
    [{ row := 11, unit := unitId 2 (q.1 % 2), index := q.1, size := 128, inFlight := p.ops.length }])

/-- Every pool, row by row. -/
def State.pools (s : State) : List Pool :=
  ((List.range 8).flatMap s.routerPools) ++ networkPools ++ linkPools ++
  ((List.range 64).flatMap (fun e => s.enginePools (BitVec.ofNat 6 e))) ++ s.slotPools ++ s.ingressPools ++ s.peerPools

/-- The Free term of a pool: what conservation gives, and by how much a fault has put it off. -/
def State.freeTerm (s : State) (p : Pool) : Int :=
  (p.size : Int) - (p.inUse : Int) - (p.inFlight : Int) + (Tab.get {} s.integ.ledgers p.key).drift

/-- A record of 0xA020 Ledgers (R425). -/
def State.ledgerRecord (s : State) (p : Pool) : Nat :=
  p.unit.toNat * 2 ^ 112 + (p.row % 256) * 2 ^ 104 + (p.index % 256) * 2 ^ 96 + (p.size % 2 ^ 32) * 2 ^ 64 +
  ofSigned 32 (s.freeTerm p) * 2 ^ 32 + (p.inUse + p.inFlight) % 2 ^ 32

/-! ### The audit (R401, R402) -/

/-- Whether a pool's group is power-gated, so that it is not audited. -/
def State.poolGated (s : State) (p : Pool) : Bool :=
  match groupOfUnit p.unit with | some g => s.chr.gated.getLsbD g | none => false

/-- A group stops, or the engine, the instance's ring, the die's fabric ports, the peer, or the whole module (R44, R400). -/
def State.poolStops (s : State) (p : Pool) : State :=
  if p.row = 0 then s.stopGroup (UnitId.index p.unit)
  else if p.row ≤ 2 then s.selfFence
  else if p.row ≤ 7 then s.stopEngine (BitVec.ofNat 6 (UnitId.index p.unit))
  else if p.row = 8 then
    let n : InstanceId := BitVec.ofNat 10 p.index
    let i := s.inst n
    s.setInst n { i with ring := { i.ring with state := .ringError } }
  else if p.row = 9 then
    let d := UnitId.index p.unit
    (List.range 10).foldl (fun s k =>
      let n : Fin 84 := ⟨(64 + 10 * (d % 2) + k) % 84, by omega⟩
      let q := s.port n
      s.setPort n { q with stopped := true, state := if q.state = .up then .down else q.state, wire := none }) s
  else effPeerDead (BitVec.ofNat 12 (if p.row = 10 then p.index / 4 else p.index)) s

/-- The audit of one pool: its size against its complement, then the identity. A size whose pair fails is served from the previous
version's when that is the same; every size but an allotment's, the batch slots' and a window's is the same in every version. -/
def State.auditPool (s : State) (p : Pool) : State :=
  let l := Tab.get {} s.integ.ledgers p.key
  let inVersion := p.row = 3 ∨ p.row = 8 ∨ p.row = 10
  let violated := fun (s : State) (kind : Nat) =>
    (s.raise { area := 0xA0, kind, unit := p.unit, fatal := decide (p.row = 1 ∨ p.row = 2), detail :=
      [(8, p.row), (16, p.index), (32, ofSigned 32 (s.freeTerm p)), (32, p.inUse), (32, p.inFlight)] }).poolStops p
  if s.poolGated p then s
  else if l.sizeFault ≠ 0 then
    if inVersion ∨ s.vers.previousValid = false then violated s 0x09
    else
      let t := Tab.set {} s.integ.ledgers p.key { l with sizeFault := 0 }
      let s1 := { s with integ := { s.integ with ledgers := t } }.raise { area := 0xA0, kind := 0x08, unit := p.unit }
      if l.drift ≠ 0 then violated s1 0x0A else s1
  else if l.drift ≠ 0 then violated s 0x0A else s

/-- The audit at a period boundary: only a pool whose ledger is off can fail it. -/
def State.auditLedgers (s : State) : State :=
  if s.integ.ledgers.isEmpty then s
  else s.pools.foldl (fun s p => if Tab.get {} s.integ.ledgers p.key = {} then s else s.auditPool p) s

/-- The pools of a group are reset to full when it is ungated (R401). -/
def State.fillGroupPools (s : State) (g : Nat) : State :=
  let mine := fun (key : Nat) => groupOfUnit (BitVec.ofNat 16 (key / 65536 % 65536)) == some g
  { s with integ := { s.integ with ledgers := s.integ.ledgers.filter (fun q => !mine q.1) } }

end Sys2Proof.Machine
end

