-- ==== Sys2Proof/Machine/NearMemory.lean ====
section
/-!
DEFINITION. The near-memory controllers (R294 to R301, R314), the clearing of regions (R308), and the die-to-die links
(R40, R41).
-/

namespace Sys2Proof.Machine

/-- A line of a segment is read: the device's inner-code correction is counted, the segment decoded or served from the
buffer, and the line delivered (R295, R296, R298). -/
def effSegmentRead (c : Fin 48) (segment : BitVec 25) (line : BitVec 2) (requester : UnitId) (cls : BitVec 2)
    (innerCorrected : Bool) (s : State) : State :=
  let t := segment.toNat
  let deliver := fun (s : State) (l : Line) =>
    s.setChannel c { s.channel c with lastReply := some { segment := t, line := line.toNat, data := l.bytes, poison := l.poison,
                                                          status := l.status } }
  match s.segmentAddress c t with
  | none => deliver (s.unmapped (t * 256) requester) (poisonLine stDataLost)
  | some address =>
    let s1 := if innerCorrected ∧ (s.channel c).state ≠ .failed ∧ s.buffered c t = false
              then (s.memError c 0).memEvent c t 0x01 [] requester cls else s
    let q := s1.readNearLine c t (address + 64 * line.toNat) requester cls
    deliver q.1 q.2

/-- SEGMENT_READ (R298). -/
def execSegmentRead (channel : Fin 48) (segment : BitVec 25) (line : BitVec 2) (requester : UnitId) (cls : BitVec 2)
    (innerCorrected : Bool) (s : State) : Host.Outcome State Fault Refusal :=
  .next (effSegmentRead channel segment line requester cls innerCorrected s)

/-- SEGMENT_WRITE (R299). -/
def execSegmentWrite (channel : Fin 48) (segment : BitVec 25) (write : MemWrite) (s : State) : Host.Outcome State Fault Refusal :=
  .next (s.acceptWrite channel segment.toNat write)

/-- Whether a hold of 64 controller cycles, 36.57 ns or 28 whole ticks, can be over (R299). -/
def HeldWrite.expired (h : HeldWrite) (now : Nat) : Bool := decide (h.since + 28 ≤ now)

/-- A partial segment's hold of 64 controller cycles is over: its merge read begins (R299). -/
def effWriteHoldExpiry (c : Fin 48) (segment : BitVec 25) (s : State) : State :=
  let x := s.channel c
  s.setChannel c { x with queue := x.queue.map (fun h =>
    if h.segment = segment.toNat ∧ h.expired s.time.ticks then { h with merging := true } else h) }

/-- WRITE_HOLD_EXPIRY (R299). -/
def execWriteHoldExpiry (channel : Fin 48) (segment : BitVec 25) (s : State) : Host.Outcome State Fault Refusal :=
  .next (effWriteHoldExpiry channel segment s)

/-- The merge read of a held partial segment has been decoded (R299, R301). -/
def effMergeReadDecode (c : Fin 48) (segment : BitVec 25) (s : State) : State :=
  match (s.channel c).held segment.toNat, s.segmentAddress c segment.toNat with
  | some h, some address =>
    if h.merging = false then s
    else if (s.channel c).state = .failed then s.refuseSegment c segment.toNat h
    else s.mergeSegment c segment.toNat address h (channelUnit c)
  | _, _ => s

/-- MERGE_READ_DECODE (R301). -/
def execMergeReadDecode (channel : Fin 48) (segment : BitVec 25) (s : State) : Host.Outcome State Fault Refusal :=
  .next (effMergeReadDecode channel segment s)

/-- A burst that failed its EDC is replayed: a good replay is counted and raised; the third that fails makes the channel
FAILED, and the writes it holds are refused (R297). -/
def effEdcReplay (c : Fin 48) (good : Bool) (s : State) : State :=
  let x := s.channel c
  if x.state = .failed then s
  else
    let s1 := s.memError c 4
    if good then (s1.setChannel c { s1.channel c with replays := 0 }).memEvent c 0 0x02 [] (channelUnit c) 0
    else if x.replays + 1 < 3 then s1.setChannel c { s1.channel c with replays := x.replays + 1 }
    else
      let s2 := s1.setChannel c { s1.channel c with state := .failed, replays := 0, buffer := none }
      let s3 := s2.memEvent c 0 0x06 [] (channelUnit c) 0
      x.queue.foldl (fun s h => s.refuseSegment c h.segment h) s3

/-- EDC_REPLAY (R297). -/
def execEdcReplay (channel : Fin 48) (good : Bool) (s : State) : Host.Outcome State Fault Refusal :=
  .next (effEdcReplay channel good s)

/-- One patrol read: the next segment of the channel; a corrected one is written back, an uncorrectable one receives the
LOST marker, one that holds a marker is skipped (R314). -/
def effPatrolRead (c : Fin 48) (s : State) : State :=
  let x := s.channel c
  let t := x.patrol
  match s.segmentAddress c t with
  | none => s
  | some address =>
    if x.state ≠ .inService ∨ s.obj 0x7031 0 0 = 0 then s
    else
      let s1 := s.setChannel c { x with patrol := (t + 1) % (31 * 1048576) }
      match Tab.get .good s1.mem.marks (address / 256) with
      | .errors sy =>
        let set := fun (s : State) (m : SegMark) => { s with mem := { s.mem with marks := Tab.set .good s.mem.marks (address / 256) m } }
        let k := sy.eraseDups.length
        if k ≤ 1 then ((set s1 .good).memError c 5).memEvent c t 0x01 sy (channelUnit c) 2
        else if k ≤ 3 then ((set s1 .lost).memError c 6).memEvent c t 0x06 sy (channelUnit c) 2
        else
          let d := s1.draw
          if d.1 % 2 = 0 then ((set d.2 .lost).memError c 6).memEvent c t 0x06 sy (channelUnit c) 2
          else
            let b := d.2.draw
            ((b.2.putNear (address / 256 * 256) (leBytes 256 b.1) .good).memError c 5).memEvent c t 0x01 sy (channelUnit c) 2
      | _ => s1

/-- PATROL_READ (R314). -/
def execPatrolRead (channel : Fin 48) (s : State) : Host.Outcome State Fault Refusal := .next (effPatrolRead channel s)

/-! ### Regions (R305, R308) -/

/-- Whether a near address lies on a FAILED channel. -/
def State.onFailed (s : State) (address : Nat) : Bool :=
  match s.nearDie address with
  | none => false
  | some die => decide ((s.channel (s.interleave die address).1).state = .failed)

/-- The state of a region: CLEARING; DEGRADED when its die has a FAILED channel, over which every region is interleaved, or
its far port is DOWN; READY otherwise (R305). -/
def State.regionPhase (s : State) (i : Nat) : RegionPhase :=
  let r := regionOf s.vers.active i
  let down := fun (n : Nat) => (Tab.get {} s.mem.farPorts n).state == .down
  if (Tab.get {} s.mem.regions i).phase = .clearing then .clearing
  else
    match s.nearDie (regBase r) with
    | some die => if (s.working die).any (fun c => (Tab.get {} s.mem.channels c).state == .failed) then .degraded else .ready
    | none =>
      if s.mem.interleaved then (if down 0 || down 1 then .degraded else .ready)
      else match s.farPortOf (regBase r) with
        | some p => if down p.val then .degraded else .ready
        | none => .ready

/-- Zero a module address range, skipping segments on FAILED channels (R308). -/
def State.zeroRange (s : State) (base length : Nat) : State :=
  let inRange := fun (a : Nat) => decide (base ≤ a ∧ a < base + length)
  { s with mem := { s.mem with
      near := s.mem.near.filter (fun p => !inRange p.1 || s.onFailed p.1),
      marks := s.mem.marks.filter (fun p => !inRange (p.1 * 256) || s.onFailed (p.1 * 256)),
      far := s.mem.far.filter (fun p => !inRange p.1),
      farPoison := s.mem.farPoison.filter (fun p => !inRange (p.1 * 64)) } }

/-- A CLEARING region has been zeroed: it becomes READY and an event is raised (R308). -/
def effRegionClearComplete (region : BitVec 12) (s : State) : State :=
  let i := region.toNat
  let g := Tab.get {} s.mem.regions i
  match s.regionServed i, g.phase with
  | some r, .clearing =>
    let s1 := s.zeroRange (regBase r) (regBytes r)
    { s1 with mem := { s1.mem with regions := Tab.set {} s1.mem.regions i { g with phase := .ready } } }.raise
      { area := 0x70, kind := 0x10, detail := [(16, i)] }
  | _, _ => s

/-- REGION_CLEAR_COMPLETE (R308). -/
def execRegionClearComplete (region : BitVec 12) (s : State) : Host.Outcome State Fault Refusal :=
  .next (effRegionClearComplete region s)

/-! ### Die-to-die links (R40, R41) -/

def State.setD2d (s : State) (l : Fin 3) (f : D2dLink → D2dLink) : State :=
  { s with d2d := Tab.set {} s.d2d l.val (f (Tab.get {} s.d2d l.val)) }

/-- D2D_FLIT_REPLAY: the flit is replayed; no rule raises an event for it (R40). -/
def execD2dFlitReplay (link : Fin 3) (s : State) : Host.Outcome State Fault Refusal :=
  .next (s.setD2d link (fun d => { d with replays := d.replays + 1 }))

/-- D2D_TRAINING_LOSS: the link carries nothing until it retrains (R41). -/
def execD2dTrainingLoss (link : Fin 3) (s : State) : Host.Outcome State Fault Refusal :=
  .next (s.setD2d link (fun d => if d.lost then d else { d with lost := true, lostAt := s.time.ticks }))

/-- D2D_LINK_RETRAINED: a link that retrains within 1 ms serves again (R41). -/
def execD2dLinkRetrained (link : Fin 3) (s : State) : Host.Outcome State Fault Refusal :=
  .next (s.setD2d link (fun d => { d with lost := d.dead }))

/-- A link that has not retrained within 1 ms is a fatal fault: the module self-fences, and a Gallery link's edge lanes carry
nothing further (R41, R423). (DEDUCED, assumption 90) -/
def effD2dRetrainTimeout (l : Fin 3) (s : State) : State :=
  let d : D2dLink := Tab.get {} s.d2d l.val
  if d.lost ∧ d.dead = false ∧ s.elapsed d.lostAt 1000 then (s.setD2d l (fun d => { d with dead := true })).selfFence else s

/-- D2D_RETRAIN_TIMEOUT (R41). -/
def execD2dRetrainTimeout (link : Fin 3) (s : State) : Host.Outcome State Fault Refusal := .next (effD2dRetrainTimeout link s)

end Sys2Proof.Machine
end

