-- ==== Sys2Proof/Machine/Published.lean ====
section
/-!
DEFINITION. What the module publishes: the value of each object of class CONST and RO, record by record, as one little-endian
number (R1, R31, R46, R55, R67, R84, R94, R121, R129, R155, R242, R262, R267, R286, R289, R315, R319, R342, R343, R366, R388,
R395, R425, R430, R437, R438, R444, R449 to R455).
-/

namespace Sys2Proof.Machine

/-! ### Numbers that are worked out -/

/-- The largest m below 2^b whose bits from b down keep (2m − 1)^n at most 2^(33n − 1): a search bit by bit. -/
def rootSearch (n : Nat) : Nat → Nat → Nat
  | 0, acc => acc
  | b + 1, acc =>
    let m := acc + 2 ^ b
    rootSearch n b (if (2 * m - 1) ^ n ≤ 2 ^ (33 * n - 1) then m else acc)

/-- M = round(2^32 × 2^(−1 / (3,600 × H))) (R415). -/
def decayMultiplier (hours : Nat) : Nat := rootSearch (3600 * hours) 32 0

/-- P1000 in µW: the mean of the samples kept (R442). -/
def Power.mean (p : Power) : Nat := if p.history.isEmpty then 0 else sumOf id p.history / p.history.length

/-- The value of a record of the islands that receive edges, in the order of their unit identifiers (R31). -/
def edgeUnits : List UnitId :=
  ((List.range 64).map (unitId 0)) ++ ((List.range 20).map (unitId 4)) ++
  namedUnits.filter (fun u => UnitId.kind u != 0) ++ ((List.range 8).map (unitId 0x0C))

/-- A ring's state in the layout of an InstanceQueueState record (R84). -/
def Ring.record (r : Ring) : Nat :=
  r.fetched.toNat * 2 ^ 40 + r.written.toNat * 2 ^ 16 +
  (match r.state with | .idle => 0 | .active => 1 | .ringError => 2) * 2 ^ 14 + (r.slots % 128) * 2 ^ 7

/-! ### Records -/

/-- An ArrayLatency record (R121). -/
def State.arrayRecord (s : State) (i : Nat) : Nat :=
  let m := (s.engine (BitVec.ofNat 6 (i / 2))).array (i % 2 == 1)
  (i / 2) * 2 ^ 56 + (i % 2) * 2 ^ 55 +
  (match m.health with | .inService => 0 | .quarantined => 1 | .disabled => 2) * 2 ^ 48 + m.sparedRow.toNat * 2 ^ 40 + m.latency.toNat

/-- A PartitionState record (R155). -/
def Granule.record (g : Granule) : Nat :=
  match g.state with
  | .free => 0
  | .active => 2 ^ 14 + g.context.toNat
  | .scrubbing => 2 * 2 ^ 14

/-- A mooring entry followed by its complement. -/
def Mooring.record (m : Mooring) : Nat := m.value.toNat + m.comp.toNat * 2 ^ 256

/-- A SignalCoreState record (R262). -/
def SignalCore.record (c : SignalCore) : Nat :=
  (match c.health with | .inService => 0 | .reloading => 1 | .quarantined => 2 | .disabled => 3) * 2 ^ 126 + c.lastCause.toNat * 2 ^ 112 +
  c.lastEpc.toNat * 2 ^ 96 + c.committed.toNat * 2 ^ 64 + c.failed.toNat * 2 ^ 32 + c.overflows.toNat

/-- A PortStatus record (R267). -/
def Port.record (p : Port) : Nat :=
  (match p.state with | .disabled => 0 | .down => 1 | .up => 2) * 2 ^ 62 + b2n p.localFault * 2 ^ 61 + b2n p.remoteFault * 2 ^ 60 +
  p.transitions.toNat

/-- A NearChannels record and a FarPorts record (R315). -/
def Channel.record (c : Channel) : Nat :=
  (match c.state with | .inService => 0 | .failedTraining => 1 | .failed => 2) * 2 ^ 62 + c.temperature.toNat * 2 ^ 48 + c.runs.toNat * 2 ^ 40
def FarPort.record (p : FarPort) : Nat :=
  (match p.state with | .absent => 0 | .down => 1 | .up => 2) * 2 ^ 126 + p.width.toNat * 2 ^ 121 + b2n p.fast * 2 ^ 120 +
  p.capacity.toNat * 2 ^ 64 + p.mapped.toNat * 2 ^ 32

/-- A RegionState record (R305); how many of its units a CLEARING region has cleared is open, and less than all. -/
def State.regionRecord (s : State) (i : Nat) : Nat :=
  match s.regionPhase i with
  | .ready => 0
  | .clearing => 2 ^ 62 + Config.clearedUnits i s.time.ticks % Nat.max 1 (regBytes (regionOf s.vers.active i) / 2 ^ 26)
  | .degraded => 2 * 2 ^ 62

/-- A PeerState record (R319). -/
def Peer.record (p : Peer) : Nat :=
  (match p.liveness with | .up => 0 | .silent => 1 | .dead => 2) * 2 ^ 62 + p.remoteIncarnation.toNat * 2 ^ 46 + p.retransmits.toNat

/-- The state of a mirror record (R342). -/
def State.mirrorRecord (s : State) (i : Nat) : Nat :=
  if mirEnable (s.act 0x8040 0 i) = false then 2
  else match Tab.get .active s.fabric.mirrors i with | .active => 0 | .broken => 1

/-- The code of a lifecycle state (R352). -/
def lifecycleCode : Lifecycle → Nat
  | .idle => 0 | .active => 1 | .quiescing => 2 | .quiesced => 3 | .resetting => 4 | .resetStalled => 5

/-- An InstanceStatus record (R366). -/
def Inst.record (i : Inst) : Nat :=
  lifecycleCode i.life * 2 ^ 124 + i.resets.toNat * 2 ^ 64 + i.stale.toNat * 2 ^ 32 + i.flushRetries.toNat

/-- A HealthScores record (R425). -/
def State.healthRecord (s : State) (p : Nat) : Nat :=
  let h := Tab.get {} s.integ.health p
  (unitOfPart p).toNat * 2 ^ 112 + b2n h.flagged * 2 ^ 111 + h.score.toNat * 2 ^ 64 + h.events.toNat * 2 ^ 32 + h.last.toNat

/-- An ImageSlots record (R437). -/
def ImageSlot.record (i : ImageSlot) : Nat :=
  i.state.toNat * 2 ^ 124 + i.attempts.toNat * 2 ^ 122 + i.confirmSeq.toNat * 2 ^ 64 + b2n i.verified * 2 ^ 23 +
  (if i.hasHeader then ihSecurityVersion i.header * 2 ^ 56 + ihFirmwareVersion i.header * 2 ^ 24 else 0)

/-- A ConfigSlots record (R388). -/
def ConfigSlot.record (c : ConfigSlot) : Nat := c.number.toNat * 2 ^ 32 + c.state.toNat * 2 ^ 28 + b2n c.verified * 2 ^ 27

/-- 0x100D ConfigState (R388). -/
def Versions.stateWord (v : Versions) : Nat :=
  (match v.phase with | .confirmed => 0 | .pending => 1 | .unconfirmed => 2) * 2 ^ 60 + b2n v.previousValid * 2 ^ 59 +
  b2n v.previousRejected * 2 ^ 58 + b2n v.startupFallback * 2 ^ 57 + b2n v.stored * 2 ^ 56 + v.activationPeriod.toNat

/-- A ProgValue record (R451). -/
def ProgValue.record (p : ProgValue) : Nat :=
  p.count.toNat * 2 ^ 208 + b2n p.overflow * 2 ^ 207 + b2n p.sampleValid * 2 ^ 206 + p.sampleClass.toNat * 2 ^ 204 +
  p.sampleOwner.toNat * 2 ^ 193 + p.sampleUnit.toNat * 2 ^ 176 + p.sampleAddress.toNat * 2 ^ 128 + p.sampleTime.toNat * 2 ^ 32

/-- The place of Pending in an ArrayCounters record, which is a current value (R446). -/
def acPending : Nat := 16

/-- The stream cycles of an array's passes that have neither committed nor been abandoned (R446). (DEDUCED, assumption 144) -/
def State.pendingCycles (s : State) (e : EngineId) (a : ArrayId) : Nat := sumOf (·.stream) ((s.engine e).array a).flight

/-- An ArrayCounters record from a table of fixed counters: field k in bits [1535 − 64k : 1472 − 64k] (R449). -/
def arrayCounters (t : Tab W64) (e a pending : Nat) : Nat :=
  sumOf (fun k => (if k = acPending then pending else (Tab.get 0 t (ctrKey 0xD000 e (24 * a + k))).toNat) * 2 ^ (1472 - 64 * k)) (List.range 22)

/-- The record of two counters of a router's class: its lines, and cycles of credit stall, of which there are none (R450). -/
def groupCounters (t : Tab W64) (g cls : Nat) : Nat :=
  (Tab.get 0 t (ctrKey 0xD002 g (2 * cls))).toNat + (Tab.get 0 t (ctrKey 0xD002 g (2 * cls + 1))).toNat * 2 ^ 64

/-- A KeeperSessions record (R395). -/
def State.sessionRecord (s : State) (i : Nat) : Nat :=
  let k := Tab.get {} s.keeper.sessions i
  if k.phase = .opened then
    k.address.toNat * 2 ^ 128 + k.port.toNat * 2 ^ 112 + k.spdmId.toNat * 2 ^ 80 + k.lastSequence.toNat * 2 ^ 64 +
      (s.time.ticks - k.opened) / 781250000
  else 0

/-- 0xE001 KeeperLink (R395). -/
def State.keeperLink (s : State) : Nat :=
  (match s.keeper.phase with | .down => 0 | .training => 1 | .up => 2) * 2 ^ 30 + b2n s.start.klMaster * 2 ^ 29 +
  b2n s.keeper.polarity * 2 ^ 28 + s.keeper.sqi.toNat * 2 ^ 24 + s.keeper.ups.toNat

/-- 0x9000 HostLink (R366). -/
def State.hostLinkWord (s : State) : Nat :=
  if s.linkUp then
    s.host.width.toNat * 2 ^ 28 + s.host.rate.toNat * 2 ^ 24 + b2n s.host.flit * 2 ^ 23 + b2n (s.host.ide.any (fun q => q.2.secure)) * 2 ^ 22
  else 0

/-- The host state block a function reads at BAR0 offset 0 (R349, R350). (DESIGN CHOICE, assumption 150) -/
def State.hostStateBlock (s : State) (f : Source) : Nat :=
  let own : Nat :=
    match f with
    | .provider => 0xFFFF * 2 ^ 32
    | .inst n => n.toNat * 2 ^ 32 + (s.inst n).generation.toNat * 2 ^ 16 + lifecycleCode (s.inst n).life * 2 ^ 12
  0x0200 * 2 ^ 48 + own + b2n s.host.hostReady * 2 ^ 11 + b2n s.host.radioReady * 2 ^ 10 +
    b2n (s.host.ide.any (fun q => q.2.secure)) * 2 ^ 9

/-- Four U32 counters of a table, in rising address. -/
def words32 (t : Tab W32) (first n : Nat) : Nat := sumOf (fun k => (Tab.get 0 t (first + k)).toNat * 2 ^ (32 * k)) (List.range n)

/-- The views of partitions and mooring entries: those of one instance, or of every instance for the provider (R366, R376). -/
def State.viewed (s : State) (who : Option InstanceId) (ctx : Nat) : Bool :=
  match contextOf s.vers.active ctx with
  | some r => !ctxProvider r && (match who with | some n => ctxInstanceOf r == n | none => true)
  | none => false
def State.partitionView (s : State) (who : Option InstanceId) : List Nat :=
  ((listedRecs s.vers.active 0x3031 0).map (fun r => s.act 0x3031 0 r)).filter (fun v => v != 0 && s.viewed who (parContext v))
def State.mooringView (s : State) (who : Option InstanceId) : List Nat :=
  let parts := s.partitionView who
  (List.range 64).flatMap (fun e => (parts.filter (fun v => parEngine v == e)).flatMap (fun v =>
    (List.range (16 * parCount v)).map (fun h => (Tab.get {} (s.engine (BitVec.ofNat 6 e)).moorings (16 * parFirst v + h)).record)))

/-! ### Texts -/

/-- The bytes of an ASCII string. -/
def ascii (t : String) : List Byte := t.toList.map (fun c => BitVec.ofNat 8 c.toNat)

/-- The strings and byte objects whose length the module fixes (R1, R438). -/
def State.textOf (s : State) (index sub : Nat) : Option (List Byte) :=
  if index = 0x1000 then
    (if sub = 1 then some (ascii "Trewidon") else if sub = 2 then some (ascii "TSL-9200") else if sub = 4 then some (leBytes 16 Config.serialNumber.toNat) else none)
  else if index = 0xB000 then some (leBytes 133 Config.identityPublicKey.toNat)
  else if index = 0xB001 then some (Config.certificateChain s.start.aliasEpoch)
  else none

/-! ### Tables of small numbers -/

/-- Constants of the engines and chains, by index × 256 + subindex. -/
def constants : List (Nat × Nat) :=
  [(0x100003, 0x0200), (0x402201, 2048), (0x402202, 512), (0x402203, 1536), (0x402204, 16), (0x402205, 4), (0x402206, 32),
   (0x403201, 12), (0x403202, 256), (0x403203, 8), (0x403204, 4), (0x403401, 16), (0x403402, 4), (0x403403, 1), (0x403404, 16),
   (0x403405, 64)]

/-- 0x4036 HopCredits: RAN, ADMIN, MIRROR, INFERENCE from the top (R38). -/
def hopCredits : List (Nat × Nat × Nat × Nat) := [(384, 128, 0, 1536), (256, 64, 128, 576), (0, 64, 0, 0), (256, 64, 128, 576), (256, 64, 64, 128)]
def hopRecord (i : Nat) : Nat :=
  match hopCredits[i]? with
  | some (r, a, m, n) => r * 2 ^ 48 + a * 2 ^ 32 + m * 2 ^ 16 + n
  | none => 0

/-! ### The published value of a record -/

/-- Objects of the ranges 0x1000 to 0x3FFF. -/
def State.publishedLow (s : State) (index sub i : Nat) : Nat :=
  match index with
  | 0x1001 => if sub = 1 then s.start.firmwareVersion.toNat else s.start.bootedSlot.toNat
  | 0x100D => s.vers.stateWord
  | 0x100F => if s.vers.phase = .unconfirmed then (s.vers.deadline - s.chr.periodCount).toNat else 0
  | 0x1011 => s.vers.report.toNat
  | 0x1012 => (Tab.get {} s.vers.slots i).record
  | 0x1014 => (Tab.get 0 s.vers.stats i).toNat
  | 0x1021 => match s.start.lastReset with | .cold => 0 | .pad => 1 | .command => 2 | .firmware => 3 | .thermal => 4
  | 0x2000 => s.now.toNat
  | 0x2002 => b2n s.time.stepAwaits
  | 0x2003 =>
    if sub = 0 then (match s.time.quality with | .unset => 0 | .tracking => 1 | .holdover => 2 | .expired => 3 | .fault => 4)
    else s.time.holdoverElapsed.toNat
  | 0x2040 => if sub = 0 then s.time.ppsCapture.toNat else s.time.ppsCount.toNat
  | 0x2041 => s.time.ref10mDrift.toNat
  | 0x3004 => s.chr.periodCount.toNat
  | 0x3005 => s.chr.overruns.toNat
  | 0x3023 => (s.inst (BitVec.ofNat 10 i)).ring.record
  | 0x3025 => s.provider.record
  | 0x3040 =>
    match edgeUnits[i]? with
    | some u => u.toNat * 2 ^ 48 + 2 * 2 ^ 40 + (s.island u).latency.toNat
    | none => 0
  | _ => 0

/-- Objects of the ranges 0x4000 to 0x6FFF. -/
def State.publishedMiddle (s : State) (index sub i : Nat) : Nat :=
  let e : EngineId := BitVec.ofNat 6 sub
  let load := fun (f : Nat → Nat) => sumOf (fun c => let r := cellRec s.vers.active c; f r * clPrbs r * 2 ^ clNum r) (List.range (cellCount s.vers.active))
  match index with
  | 0x4010 => s.arrayRecord i
  | 0x4020 => (Tab.get {} (s.engine e).granules i).record
  | 0x4021 => (Tab.get {} (s.engine e).moorings i).record
  | 0x4023 => s.scrubsCompleted.toNat
  | 0x4036 => hopRecord i
  | 0x5002 => load (if sub = 1 then clUlStreams else clDlStreams)
  | 0x5003 => sampleOffset s.vers.active i
  | 0x5004 => fillLead16 s.vers.active i / 65536
  | 0x5011 => s.radio.dropped.toNat
  | 0x5020 => words32 s.radio.rxStats (5 * i) 5
  | 0x5021 => s.radio.fillTotal.toNat
  | 0x5040 => if sub = 1 then s.start.scVersion.toNat else s.start.scSigner.toNat
  | 0x5041 => match s.start.kernels[i]? with | some q => q.2.toNat | none => 0
  | 0x5042 => (Tab.get {} s.cores i).record
  | 0x6003 => (Tab.get {} s.ports i).record
  | 0x6040 => if sub = 9 then s.mgmt.dropped.toNat else s.mgmt.completed.toNat
  | 0x6053 => (Tab.get {} (Tab.get {} s.ports sub).sas i).pn.toNat
  | 0x6060 => sumOf (fun k => (Tab.get 0 (Tab.get {} s.ports i).stats k).toNat * 2 ^ (64 * k)) (List.range 8)
  | _ => 0

/-- Objects of the ranges 0x7000 to 0x9FFF. -/
def State.publishedHigh (s : State) (who : Option InstanceId) (index i : Nat) : Nat :=
  match index with
  | 0x7000 => (Tab.get {} s.mem.channels i).record
  | 0x7001 => s.nearCapacity i
  | 0x7012 => s.regionRecord i
  | 0x7030 => words32 (Tab.get {} s.mem.channels i).errors 0 8
  | 0x7040 => (Tab.get {} s.mem.farPorts i).record
  | 0x8001 => s.fabric.incarnation.toNat
  | 0x8012 => (Tab.get {} s.fabric.peers i).record
  | 0x8042 => s.mirrorRecord i
  | 0x8060 => (Tab.get 0 s.fabric.stats i).toNat
  | 0x9000 => s.hostLinkWord
  | 0x9001 => (Tab.get {} s.insts i).generation.toNat + (Tab.get {} s.insts i).generationC.toNat * 2 ^ 16
  | 0x9003 => (Tab.get {} s.insts i).record
  | 0x9010 => (s.partitionView who)[i]?.getD 0
  | 0x9011 => (s.mooringView who)[i]?.getD 0
  | 0x9032 => let d := Tab.get {} s.host.dirty i; d.completed.toNat * 2 ^ 32 + b2n d.harvesting * 2 ^ 31
  | 0x9040 => ((s.exportInst (BitVec.ofNat 10 (s.obj 0x9040 1 0)))[i]?.getD 0).toNat
  | _ => 0

/-- Objects of the ranges 0xA000 to 0xEFFF. -/
def State.publishedTop (s : State) (index sub i : Nat) : Nat :=
  match index with
  | 0xA000 => s.healthRecord i
  | 0xA003 => decayMultiplier (s.obj 0xA002 0 0)
  | 0xA010 => s.integ.dropped.toNat
  | 0xA013 => match s.integ.recent[i]? with | some r => r.encode | none => 0
  | 0xA014 => match s.integ.faultLog[i]? with | some r => r.encode | none => 0
  | 0xA020 => match s.pools[i]? with | some p => s.ledgerRecord p | none => 0
  | 0xA033 => words32 s.integ.soundingStats (4 * i) 4
  | 0xA050 => words32 (Tab.get {} s.insts i).histogram 0 32
  | 0xA062 => (s.integ.managerKeys[i]?.getD 0).toNat
  | 0xA064 =>
    if sub = 0 then b2n s.integ.expelled * 2 ^ 63 + (s.integ.quorum.toNat % 16) * 2 ^ 59 + (s.integ.managerKeys.length % 16) * 2 ^ 55
    else s.integ.lastSequence.toNat
  | 0xB010 => (Tab.get {} s.start.images i).record
  | 0xB013 => fuseCounter s.start.fuses
  | 0xB021 => b2n s.start.integratorLocked
  | 0xC000 => s.power.mean / 1000
  | 0xC004 => 64 - Tab.get 0 s.power.duty i
  | 0xC010 => let r := Tab.get (0, 0) s.power.rails i; r.1.toNat + r.2.toNat * 2 ^ 32
  | 0xC011 => (Tab.get {} s.power.sensors i).reading.toNat
  | 0xC012 => let t := Tab.get {} s.power.sensors i; t.excursions.toNat + t.trips.toNat * 2 ^ 32 + t.samples.toNat * 2 ^ 64
  | 0xD000 => arrayCounters s.ctrs.fixed sub i (s.pendingCycles (BitVec.ofNat 6 sub) (i == 1))
  | 0xD100 => arrayCounters s.ctrs.snapFixed sub i (Tab.get 0 s.ctrs.snapFixed (ctrKey 0xD000 sub (24 * i + acPending))).toNat
  | 0xD001 => (Tab.get 0 s.ctrs.fixed (ctrKey 0xD001 sub i)).toNat
  | 0xD101 => (Tab.get 0 s.ctrs.snapFixed (ctrKey 0xD001 sub i)).toNat
  | 0xD002 => groupCounters s.ctrs.fixed sub i
  | 0xD102 => groupCounters s.ctrs.snapFixed sub i
  | 0xD003 => (Tab.get 0 s.ctrs.fixed (ctrKey 0xD003 sub i)).toNat
  | 0xD103 => (Tab.get 0 s.ctrs.snapFixed (ctrKey 0xD003 sub i)).toNat
  | 0xD110 => Nat.xor (Tab.get 0 s.ctrs.snapControl i).toNat controlDefault
  | 0xD011 => (Tab.get {} s.ctrs.prog i).record
  | 0xD111 => (Tab.get {} s.ctrs.snapProg i).record
  | 0xD0F2 => s.ctrs.snapCount.toNat
  | 0xE000 => Config.keeperMac.toNat
  | 0xE001 => s.keeperLink
  | 0xE015 => s.sessionRecord i
  | 0xE016 => (Tab.get 0 s.keeper.stats i).toNat
  | _ => 0

/-- The value of a record of an object of class CONST or RO; `who` is the instance that asks, if one does. (DEDUCED, assumption 116) -/
def State.published (s : State) (who : Option InstanceId) (index sub i : Nat) : Nat :=
  match constants.lookup (index * 256 + sub) with
  | some v => v
  | none =>
    if index < 0x4000 then s.publishedLow index sub i
    else if index < 0x7000 then s.publishedMiddle index sub i
    else if index < 0xA000 then s.publishedHigh who index i
    else s.publishedTop index sub i

/-- The records present in a published table (R374). -/
def State.publishedCount (s : State) (who : Option InstanceId) (o : ObjInfo) : Nat :=
  match o.index with
  | 0x5003 => cellCount s.vers.active
  | 0x5041 => s.start.kernels.length
  | 0x7012 => s.act 0x7011 0 0
  | 0x8012 => s.act 0x8011 0 0
  | 0x8042 => s.act 0x8041 0 0
  | 0x9010 => (s.partitionView who).length
  | 0x9011 => (s.mooringView who).length
  | 0x9040 => (s.exportInst (BitVec.ofNat 10 (s.obj 0x9040 1 0))).length
  | 0xA013 => s.integ.recent.length
  | 0xA014 => s.integ.faultLog.length
  | 0xA020 => s.pools.length
  | 0xA062 => s.integ.managerKeys.length
  | _ => match o.type with | .table _ most => most | _ => 1

end Sys2Proof.Machine
end

