-- ==== Sys2Proof/Machine/CommitChecks.lean ====
section
/-!
DEFINITION. The checks of a configuration version (R26, R54, R70 to R76, R96, R212, R278, R281, R283, R305, R307, R310, R319, R341,
R343): each finds the first fault it meets, and CommitReport names the first fault of the first check that finds one.
-/

namespace Sys2Proof.Machine

/-- A fault as CommitReport names it (R388): object, subindex, record, the conflicting record, and the lowest bit of the field at
fault. -/
structure Report where
  index : Nat
  sub : Nat := 0
  record : Nat := 0
  otherIndex : Nat := 0
  otherSub : Nat := 0
  otherRecord : Nat := 0
  firstBit : Nat := 0xFFFF
deriving DecidableEq, Repr

/-- CommitReport as a word. -/
def Report.word (r : Report) : BitVec 128 :=
  BitVec.ofNat 128 (r.index * 2 ^ 112 + r.sub * 2 ^ 104 + r.record * 2 ^ 72 + r.otherIndex * 2 ^ 56 + r.otherSub * 2 ^ 48 +
    r.otherRecord * 2 ^ 16 + r.firstBit)

/-- The first fault of a list of conditions: each a report that stands when its flag holds. -/
def firstOf (cs : List (Bool × Report)) : Option Report := (cs.find? (·.1)).map (·.2)

/-! ### Fields (R96) -/

/-- Every field of every record present in the version. -/
def checkFields (t : Tab Nat) : Option Report :=
  stageObjects.findSome? (fun o => (List.range (o.last + 1 - o.first)).findSome? (fun k =>
    (List.range (recordsIn t o (o.first + k))).findSome? (fun r =>
      let v := getRec t o.index (o.first + k) r
      if o.index = 0x3031 ∧ v = 0 then none
      else (o.recordFault v).map (fun b => { index := o.index, sub := o.first + k, record := r, firstBit := b }))))

/-! ### Contexts and partitions (R73, R74) -/

/-- Records of a table that are not all zero, with their number. -/
def recsWithNumber (t : Tab Nat) (index : Nat) : List (Nat × Nat) :=
  ((listedRecs t index 0).map (fun r => (r, getRec t index 0 r))).filter (fun q => q.2 != 0)

/-- Two records, the second after the first, of which a relation holds. -/
def clash (xs : List (Nat × Nat)) (rel : Nat → Nat → Bool) : Option (Nat × Nat) :=
  xs.findSome? (fun q => ((xs.takeWhile (fun p => decide (p.1 < q.1))).find? (fun p => rel p.2 q.2)).map (fun p => (q.1, p.1)))

/-- Context IDs are unique; RAN and ADMIN contexts are the provider's; Paired is for RAN only. -/
def checkContexts (t : Tab Nat) : Option Report :=
  let cs := recsWithNumber t 0x3030
  match clash cs (fun a b => ctxId a == ctxId b) with
  | some q => some { index := 0x3030, record := q.1, otherIndex := 0x3030, otherRecord := q.2 }
  | none => cs.findSome? (fun q => firstOf
      [(ctxClassOf q.2 != 1 && !ctxProvider q.2, { index := 0x3030, record := q.1, firstBit := 51 }),
       (ctxPaired q.2 && ctxClassOf q.2 != 0, { index := 0x3030, record := q.1, firstBit := 40 })])

/-- The granule ranges of two partitions of an engine overlap. -/
def partitionsMeet (a b : Nat) : Bool :=
  parEngine a == parEngine b && decide (parFirst a < parFirst b + parCount b ∧ parFirst b < parFirst a + parCount a)

/-- Partitions: of a declared context, at least one granule, within the sixteen, one per context and engine, disjoint, at most sixteen
on an engine, allotments of INFERENCE contexts only and within the engine's grant. (DEDUCED, assumption 112) -/
def checkPartitions (t : Tab Nat) : Option Report :=
  let ps := (recsWithNumber t 0x3031).map (fun q => (q.1, q.2 % 2 ^ 64))
  let one := ps.findSome? (fun q =>
    let c := contextOf t (parContext q.2)
    firstOf
      [(c.isNone, { index := 0x3031, record := q.1, firstBit := 54 }),
       (parCount q.2 == 0, { index := 0x3031, record := q.1, firstBit := 39 }),
       (decide (16 < parFirst q.2 + parCount q.2), { index := 0x3031, record := q.1, firstBit := 44 }),
       (parCredits q.2 != 0 && ctxClassOf (c.getD 0) != 1, { index := 0x3031, record := q.1, firstBit := 28 })])
  let same := clash ps (fun a b => parContext a == parContext b && parEngine a == parEngine b)
  let meet := clash ps partitionsMeet
  let pair := fun (q : Nat × Nat) => ({ index := 0x3031, record := q.1, otherIndex := 0x3031, otherRecord := q.2 } : Report)
  let sums := (List.range 64).findSome? (fun e =>
    let mine := ps.filter (fun q => parEngine q.2 == e)
    if 16 < mine.length ∨ 1536 < sumOf (fun q => parCredits q.2) mine then
      some ({ index := 0x3031, record := (mine.getLast?.getD (0, 0)).1 } : Report) else none)
  one.or ((same.map pair).or ((meet.map pair).or sums))

/-! ### Windows (R70 to R72, R76) -/

/-- The Gallery units a window names, as one number. -/
def winGallery (w : Nat) : Nat := bits w 191 92

/-- Engines only: the field at fault otherwise is the Gallery units' lowest map, or the engine map where the window names nothing. -/
def enginesFault (w : Nat) : Option Nat :=
  if winGallery w ≠ 0 then some 92 else if winEngines w = 0 then some 192 else none

/-- The resources of a SERVICE window: engines only, or none at all for a poll slot with neither Eclipse nor MaxPass. -/
def serviceFault (w : Nat) : Option Nat :=
  if winEngines w ≠ 0 ∨ winGallery w ≠ 0 ∨ winPoll w = false then enginesFault w
  else if winEclipseNs w ≠ 0 then some 8 else if winMaxPassNs w ≠ 0 then some 0 else none

/-- Whether class, owner and resources combine as R70 allows; otherwise the lowest bit of the field at fault. -/
def windowMix (t : Tab Nat) (w : Nat) : Option Nat :=
  let owner := winOwner w
  let ownerClass := if owner ≤ 0x3FF then (contextOf t owner).map ctxClassOf else none
  match winClass w with
  | 0 =>
    if ownerClass ≠ some 0 then some 76 else if winEngines w = 0 ∧ winGallery w = 0 then some 92 else none
  | 1 => if owner ≠ ownerOpen ∧ ownerClass ≠ some 1 then some 76 else enginesFault w
  | _ =>
    if owner = ownerService then serviceFault w
    else if ownerClass ≠ some 2 then some 76 else enginesFault w

/-- The owner of a window holds a partition on every engine the window names (R76). -/
def windowResident (t : Tab Nat) (w : Nat) : Bool :=
  decide (0x3FF < winOwner w) ||
  (List.range 64).all (fun e => !bit w (192 + e) || (partitionOf t (winOwner w) e).isSome)

/-- Placement of one window in the period (R71). -/
def windowPlace (t : Tab Nat) (w : Nat) : Option Nat :=
  let P := getRec t 0x3000 0 0 * 10 ^ 7
  if winStart w = 0 ∧ winEclipseNs w ≠ 0 then some 8
  else if winStart w < winEclipseNs w then some 46
  else if P < winStart w + winLength w + getRec t 0x3003 0 0 then some 16 else none

/-- Whether two windows name a resource both. -/
def windowsShare (a b : Nat) : Bool := Nat.land (a >>> 92) (b >>> 92) != 0

/-- Whether two windows' occupations overlap on a shared resource. -/
def windowsMeet (a b : Nat) : Bool :=
  windowsShare a b && decide (winStart a - winEclipseNs a < winStart b + winLength b ∧ winStart b - winEclipseNs b < winStart a + winLength a)

/-- The slowest island a window names, in kHz. -/
def slowestKHz (t : Tab Nat) (w : Nat) : Nat :=
  (namedUnits.filter (winNames w)).foldl (fun a u => if a = 0 ∨ islandKHz t u < a then islandKHz t u else a) 0

/-- Whether a time holds MaxPass(w) + 304 ns + U(w), and something more (R72). -/
def eclipseHolds (t : Tab Nat) (w eclipseNs more : Nat) : Bool :=
  let k := slowestKHz t w
  decide ((winMaxPassNs w + 304 + more) * k + 4 * 10 ^ 6 ≤ eclipseNs * k)

/-- The windows that name a resource, by its bit in the entry, in order. -/
def windowsOn (ws : List (Nat × Nat)) (b : Nat) : List (Nat × Nat) := ws.filter (fun q => bit q.2 b)

/-- The eclipses on one resource: each window's before the next, and the final eclipse after the last (R54, R72). -/
def eclipseFault (t : Tab Nat) : List (Nat × Nat) → Option Report
  | [] => none
  | [a] => if eclipseHolds t a.2 (getRec t 0x3003 0 0) (getRec t 0x2007 0 0) then none
           else some { index := 0x3003, otherIndex := 0x3002, otherRecord := a.1, firstBit := 0 }
  | a :: b :: rest =>
    if eclipseHolds t a.2 (winEclipseNs b.2) 0 then eclipseFault t (b :: rest)
    else some { index := 0x3002, record := b.1, otherIndex := 0x3002, otherRecord := a.1, firstBit := 8 }

/-- The checks of the windows that are not skipped. -/
def checkWindows (t : Tab Nat) : Option Report :=
  let ws := liveWindows t
  let one := ws.findSome? (fun q =>
    match windowMix t q.2 with
    | some b => some ({ index := 0x3002, record := q.1, firstBit := b } : Report)
    | none =>
      match windowPlace t q.2 with
      | some b => some { index := 0x3002, record := q.1, firstBit := b }
      | none => if windowResident t q.2 then none else some { index := 0x3002, record := q.1, otherIndex := 0x3031, firstBit := 192 })
  let order := (ws.zip (ws.drop 1)).findSome? (fun q =>
    if winStart q.2.2 < winStart q.1.2 then
      some ({ index := 0x3002, record := q.2.1, otherIndex := 0x3002, otherRecord := q.1.1, firstBit := 46 } : Report) else none)
  let meet := (clash ws windowsMeet).map (fun q => ({ index := 0x3002, record := q.1, otherIndex := 0x3002, otherRecord := q.2 } : Report))
  let eclipse := (List.range 164).findSome? (fun b => eclipseFault t (windowsOn ws (92 + b)))
  one.or (order.or (meet.or eclipse))

/-- A group with an engine in a RAN window runs at 1.05 GHz (R26); the batch slots fit (R96). -/
def checkGroups (t : Tab Nat) : Option Report :=
  let ran := (liveWindows t).filter (fun q => winClass q.2 == 0)
  let slow := (List.range 8).findSome? (fun g =>
    if getRec t 0x4030 0 g = 0 then none
    else (ran.find? (fun q => bits q.2 (199 + 8 * g) (192 + 8 * g) != 0)).map
      (fun q => ({ index := 0x4030, record := g, otherIndex := 0x3002, otherRecord := q.1, firstBit := 0 } : Report)))
  let slots := sumOf (fun n => bits (getRec t 0x3020 0 n) 41 35) (List.range 1024)
  slow.or (if 16384 < slots then some { index := 0x3020 } else none)

/-! ### The radio (R212, R310) -/

/-- The cells of a version with their number. -/
def cellsOf (t : Tab Nat) : List (Nat × Nat) := (List.range (cellCount t)).map (fun c => (c, cellRec t c))

/-- Load units of a stream of a cell. -/
def streamUnits (r : Nat) : Nat := clPrbs r * 2 ^ clNum r

/-- A cell's streams' load on its link, in bits per second times 100 (R212). -/
def streamLoad (r streams mantissa : Nat) : Nat := 106 * streams * clPrbs r * prbBits mantissa * 14000 * 2 ^ clNum r

/-- The engines the steps of a chart name, read from its step list in the RAN-reserved region (R212, R242). -/
def State.chartEngines (s : State) (chart : Nat) : List EngineId :=
  ((List.range (bits chart 116 101)).map (fun k =>
    dEngine (ofLeBytes (s.storedBytes (bits chart 63 0 + 64 * k) 64)))).eraseDups

/-- The rules on one cell. -/
def State.cellFault (s : State) (t : Tab Nat) (r : Nat) : Option Nat :=
  let link := clLink r
  let b := clCategoryB r
  let chart := getRec t 0x5005 0 (clChart r)
  let chartGood :=
    (match contextOf t (bits chart 127 118) with | some c => ctxClassOf c == 0 | none => false) &&
    (s.chartEngines chart).all (fun e => (partitionOf t (bits chart 127 118) e.toNat).isSome)
  if clNum r = 3 ∧ 264 < clPrbs r then some 236
  else if portEnabled t link = false then some 216
  else if ns16 (clDlAdvanceMax r) ≤ ns16 (clDlAdvanceMin r) + fillLead16 t link then some 168
  else if clUlArriveMax r ≤ clUlArriveMin r then some 104
  else if b = false ∧ clRepeat r then some 200
  else if b = false ∧ clBfwMantissa r ≠ 0 then some 201
  else if (b && clRuTrx r == 0) || (!b && clRuTrx r != 0) then some 25
  else if clReceiver r ≠ 0 ∧ chartGood = false then some 66
  else none

/-- The report of a cell's fault at a bit: a link that is not enabled and a chart that does not serve name the record they conflict with. -/
def cellReport (c r b : Nat) : Report :=
  if b = 216 then { index := 0x5001, record := c, otherIndex := 0x6000, otherRecord := clLink r / 8, firstBit := b }
  else if b = 66 then { index := 0x5001, record := c, otherIndex := 0x5005, otherRecord := clChart r, firstBit := b }
  else { index := 0x5001, record := c, firstBit := b }

/-- Whether the eAxC identifiers of two cells of one link meet. -/
def eaxcMeet (a b : Nat) : Bool :=
  clLink a == clLink b && decide (clEaxcBase a < clEaxcBase b + Nat.max (clUlStreams b) (clDlStreams b) ∧
    clEaxcBase b < clEaxcBase a + Nat.max (clUlStreams a) (clDlStreams a))

/-- The sample areas and the soft-buffer areas within the RAN-reserved region (R212, R310). -/
def ranFits (t : Tab Nat) : Option Report :=
  let cs := cellsOf t
  let S := getRec t 0x7020 0 0 * 2 ^ 20
  let B := getRec t 0x7021 0 0 * 2 ^ 20
  let area := fun (k : Nat) => sumOf (fun (q : Nat × Nat) => sampleBytes q.2) (cs.filter (fun q => q.1 % 2 = k))
  firstOf
    [(decide (B < sumOf (fun (q : Nat × Nat) => clSoftMiB q.2 * 2 ^ 20) cs), { index := 0x7021, otherIndex := 0x5001 }),
     (decide (S < B), { index := 0x7021, otherIndex := 0x7020, firstBit := 0 }),
     (decide (Nat.min (S / 2) (S - B) < 64 * 2 ^ 20 + area 0 ∨ S - B < S / 2 + area 1), { index := 0x7020, otherIndex := 0x5001 })]

/-- The checks of the cells. -/
def State.checkCells (s : State) (t : Tab Nat) : Option Report :=
  let cs := cellsOf t
  let total := fun (f : Nat → Nat) => sumOf (fun (q : Nat × Nat) => f q.2 * streamUnits q.2) cs
  let linkOver := (List.range 64).findSome? (fun l =>
    let mine := cs.filter (fun q => clLink q.2 == l)
    let up := sumOf (fun (q : Nat × Nat) => streamLoad q.2 (clUlStreams q.2) (clUlMantissa q.2)) mine
    let down := sumOf (fun (q : Nat × Nat) => streamLoad q.2 (clDlStreams q.2) (clDlMantissa q.2)) mine
    if 90 * linkRate t l * 10 ^ 9 < Nat.max up down then
      some ({ index := 0x5001, record := (mine.getLast?.getD (0, 0)).1 } : Report) else none)
  let one := cs.findSome? (fun q => (s.cellFault t q.2).map (cellReport q.1 q.2))
  let ids := (clash cs eaxcMeet).map (fun q => ({ index := 0x5001, record := q.1, otherIndex := 0x5001, otherRecord := q.2 } : Report))
  let load := if 838656 < total clUlStreams ∨ 838656 < total clDlStreams then some ({ index := 0x5001 } : Report) else none
  one.or (ids.or (load.or (linkOver.or (ranFits t))))

/-! ### Ports (R267, R278, R281, R283) -/

/-- Whether a fronthaul link carries a cell. -/
def linkHasCell (t : Tab Nat) (link : Nat) : Bool := (cellsOf t).any (fun q => clLink q.2 == link)

/-- The largest frame of a port under a version. -/
def portMaxFrame (t : Tab Nat) (p : Nat) : Nat := if p < 64 then bits (getRec t 0x6001 0 p) 61 48 else 4224

/-- Overhead of a port under a version. -/
def portOverhead (t : Tab Nat) (p : Nat) : Nat := if p < 64 then bits (getRec t 0x6001 0 p) 47 42 else bits (getRec t 0x6002 0 (p - 64)) 78 73

/-- The gate list of one port. -/
def gateFault (t : Tab Nat) (p : Nat) : Option Report :=
  let h := getRec t 0x6011 0 p
  let count := bits h 63 53
  let cycle := bits h 52 23
  let entries := (List.range count).map (getRec t 0x6010 p)
  let span := 7812500 * getRec t 0x3000 0 0
  let shut := if p < 64 ∧ linkHasCell t p then (entries.zipIdx).find? (fun q => bits q.1 31 30 != 3) else none
  match shut with
  | some q => some { index := 0x6010, sub := p, record := q.2, firstBit := 24 }
  | none =>
    firstOf [(sumOf (fun e => bits e 23 0) entries != cycle, { index := 0x6010, sub := p, otherIndex := 0x6011, otherRecord := p }),
             (count != 0 && (cycle == 0 || span % cycle != 0), { index := 0x6011, record := p, firstBit := 23 })]

/-- One shaper. -/
def shaperFault (t : Tab Nat) (i : Nat) : Option Report :=
  let r := getRec t 0x6020 0 i
  let p := i / 8
  let q := i % 8
  let rate := if p < 64 then linkRate t p * 1000 else 1600000
  if bit r 19 = false then none
  else firstOf
    [(bits r 63 40 == 0 || decide (rate < bits r 63 40), { index := 0x6020, record := i, firstBit := 40 }),
     (decide (bits r 39 20 < portMaxFrame t p + portOverhead t p) || bits r 39 20 == 0, { index := 0x6020, record := i, firstBit := 20 }),
     (decide (p < 64 ∧ 6 ≤ q) && linkHasCell t p, { index := 0x6020, record := i, firstBit := 19 }),
     (decide (64 ≤ p ∧ q = 3), { index := 0x6020, record := i, firstBit := 19 })]

/-- Two policers of a link bound to one class. -/
def policerFault (t : Tab Nat) (link : Nat) : Option Report :=
  (clash ((List.range 4).map (fun p => (4 * link + p, getRec t 0x6030 0 (4 * link + p))))
    (fun a b => Nat.land (bits a 39 34) (bits b 39 34) != 0)).map
      (fun q => { index := 0x6030, record := q.1, otherIndex := 0x6030, otherRecord := q.2 })

/-- The checks of the ports. -/
def checkPorts (t : Tab Nat) : Option Report :=
  let blocks := (List.range 8).findSome? (fun b =>
    let r := getRec t 0x6000 0 b
    if bits r 61 54 / 2 ^ (2 ^ bits r 63 62) ≠ 0 then some ({ index := 0x6000, record := b, firstBit := 54 } : Report) else none)
  blocks.or (((List.range 84).findSome? (gateFault t)).or (((List.range 672).findSome? (shaperFault t)).or
    ((List.range 64).findSome? (policerFault t))))

/-! ### Memory (R305, R307) -/

/-- Whether a span lies wholly within the populated part of one near range or one far window. -/
def State.inOneTier (s : State) (base length : Nat) : Bool :=
  [0, 1].any (fun d => decide (dieBase d ≤ base ∧ base + length ≤ dieBase d + s.nearCapacity d)) ||
  (let last := base + length - 1
   if s.mem.interleaved then (s.farPortOf base).isSome && (s.farPortOf last).isSome
   else match s.farPortOf base, s.farPortOf last with | some p, some q => p == q | _, _ => false)

/-- The two halves of the RAN-reserved region under a version, as (base, length). -/
def State.ranHalves (s : State) (t : Tab Nat) : List (Nat × Nat) :=
  let half := getRec t 0x7020 0 0 * 2 ^ 19
  [0, 1].map (fun d => (dieBase d + s.nearCapacity d - half, half))

/-- Two regions overlap. -/
def regionsMeet (a b : Nat) : Bool := decide (regBase a < regBase b + regBytes b ∧ regBase b < regBase a + regBytes a)

/-- The checks of the regions, and of the RAN-reserved region against the capacity found (R309, R317). -/
def State.checkRegions (s : State) (t : Tab Nat) : Option Report :=
  let rs := regionsOf t
  let one := rs.findSome? (fun q => firstOf
    [(regOwnerKind q.2 == 0 && regInstance q.2 != 0, { index := 0x7010, record := q.1, firstBit := 52 }),
     (!s.inOneTier (regBase q.2) (regBytes q.2), { index := 0x7010, record := q.1, firstBit := 96 }),
     ((s.ranHalves t).any (fun h => decide (regBase q.2 < h.1 + h.2 ∧ h.1 < regBase q.2 + regBytes q.2)),
      { index := 0x7010, record := q.1, otherIndex := 0x7020 })])
  let ran := if (s.ranHalves t).zipIdx.any (fun h => decide (s.nearCapacity h.2 < h.1.2)) then some ({ index := 0x7020, firstBit := 0 } : Report) else none
  let area := getRec t 0xA032 0 0
  let sound := if area ≠ 0xFFF ∧ (getRec t 0x7011 0 0 ≤ area ∨ regOwnerKind (regionOf t area) ≠ 0) then
    some ({ index := 0xA032, firstBit := 0 } : Report) else none
  (one.or ran).or (((clash rs regionsMeet).map (fun q => ({ index := 0x7010, record := q.1, otherIndex := 0x7010, otherRecord := q.2 } : Report))).or sound)

/-! ### The fabric (R319, R341, R343) -/

/-- Whether a PROVIDER record with Owner = 1 covers a module's region (R341). -/
def State.partnerOwned (s : State) (module' region : Nat) : Bool :=
  (List.range (s.obj 0x8021 0 0)).any (fun i =>
    let r := s.obj 0x8020 0 i
    grantKind r == 0 && grantOwner r && decide (grantFirst r ≤ module' ∧ module' ≤ grantLast r) && grantRegion r == region)

/-- The checks of peers, mirrors and timers. -/
def State.checkFabric (s : State) (t : Tab Nat) : Option Report :=
  let ps := peersOf t
  let one := ps.findSome? (fun q => firstOf
    [(peerModule q.2 == getRec t 0x8000 0 0, { index := 0x8010, record := q.1, otherIndex := 0x8000, firstBit := 112 }),
     (peerSpray q.2 == 0, { index := 0x8010, record := q.1, firstBit := 92 }),
     ((List.range 20).any (fun n => bit (peerSpray q.2) n && !portEnabled t (64 + n)), { index := 0x8010, record := q.1, otherIndex := 0x6002, firstBit := 92 })])
  let same := (clash ps (fun a b => peerModule a == peerModule b)).map (fun q => ({ index := 0x8010, record := q.1, otherIndex := 0x8010, otherRecord := q.2 } : Report))
  let mirrors := (List.range (getRec t 0x8041 0 0)).findSome? (fun i =>
    let r := getRec t 0x8040 0 i
    if mirEnable r = false then none
    else firstOf
      [(decide (getRec t 0x7011 0 0 ≤ mirRegion r), { index := 0x8040, record := i, otherIndex := 0x7010, firstBit := 51 }),
       (ps.all (fun q => peerModule q.2 != mirPartner r), { index := 0x8040, record := i, otherIndex := 0x8010, firstBit := 35 }),
       (!s.partnerOwned (mirPartner r) (mirPartnerRegion r), { index := 0x8040, record := i, otherIndex := 0x8020, firstBit := 23 })])
  let timer := fun (i : Nat) => getRec t 0x8050 i 0
  let timers := firstOf
    [(decide (timer 3 < 2 * timer 2), { index := 0x8050, sub := 3, otherIndex := 0x8050, otherSub := 2, firstBit := 0 }),
     (decide (timer 4 < timer 3), { index := 0x8050, sub := 4, otherIndex := 0x8050, otherSub := 3, firstBit := 0 }),
     (decide (timer 5 < timer 3), { index := 0x8050, sub := 5, otherIndex := 0x8050, otherSub := 3, firstBit := 0 })]
  one.or (same.or (mirrors.or timers))

/-! ### All of them -/

/-- The first fault of a version, none where it passes every check. (DEDUCED, assumption 111) -/
def State.versionFault (s : State) (t : Tab Nat) : Option Report :=
  (checkFields t).or ((checkContexts t).or ((checkPartitions t).or ((checkWindows t).or ((checkGroups t).or
    ((s.checkCells t).or ((checkPorts t).or ((s.checkRegions t).or (s.checkFabric t))))))))

end Sys2Proof.Machine
end

