-- ==== Sys2Proof/Machine/Versions.lean ====
section
/-!
DEFINITION. Configuration versions: numbers, staging copies, COMMIT, REVERT, CONFIRM and StageReset, flash slots and settings
records (R27, R379 to R387, R403).
-/

namespace Sys2Proof.Machine

/-! ### Flash slots (R385, R386) -/

/-- Whether a slot's header is that of a version that may serve: VALID, number and complement agree, digest and signature
verify. -/
def ConfigSlot.good (c : ConfigSlot) : Bool := c.state == 1 && c.numberC == ~~~c.number && c.verified

/-- The slots. -/
def Versions.slot (v : Versions) (i : Nat) : ConfigSlot := Tab.get {} v.slots i

/-- Whether a slot holds the version of a number. -/
def Versions.holds (v : Versions) (n : W32) : Bool := [0, 1].any (fun i => (v.slot i).good && (v.slot i).number == n)

/-- Whether a number is below another under R11; where the difference is the wrap fault, it is not. -/
def lower32 (a b : W32) : Bool := match wrapDiff 32 a.toNat b.toNat with | some d => decide (0 < d) | none => false

/-- How far the number of slot 1 lies above that of slot 0 where both slots serve, none at the wrap fault (R11, R385). -/
def Versions.slotOrder (v : Versions) : Option Int :=
  if (v.slot 0).good ∧ (v.slot 1).good then wrapDiff 32 (v.slot 0).number.toNat (v.slot 1).number.toNat else some 0

/-- The slot CONFIRM writes: one that is invalid or REJECTED, otherwise the one of the lower number (R385). -/
def Versions.storeSlot (v : Versions) : Nat :=
  if (v.slot 0).good = false then 0
  else if (v.slot 1).good = false then 1
  else if lower32 (v.slot 1).number (v.slot 0).number then 1 else 0

/-- Mark the slots that hold a number REJECTED (R381). -/
def Versions.rejectSlots (v : Versions) (n : W32) : Versions :=
  { v with slots := Tab.mapAll {} (fun _ c => if c.good ∧ c.number = n then { c with state := 2 } else c) v.slots }

/-! ### Numbers (R379, R403) -/

/-- How a stored pair of a number is served. -/
inductive NumberRead where
  | good (n : W32)
  | fallback (n : W32)
  | fault
deriving DecidableEq, Repr

/-- A version number read with its complement; on a mismatch the number in a slot's header serves when the version is stored
there, recognised by the half that is still right (R403). (DEDUCED, assumption 115) -/
def Versions.readNumber (v : Versions) (n c : W32) (inSlot : Bool) : NumberRead :=
  if c = ~~~n then .good n
  else if inSlot then
    match [0, 1].find? (fun i => (v.slot i).good && ((v.slot i).number == n || (v.slot i).number == ~~~c)) with
    | some i => .fallback (v.slot i).number
    | none => .fault
  else .fault

def Versions.activeRead (v : Versions) : NumberRead := v.readNumber v.activeNo v.activeNoC v.stored
def Versions.stagingRead (v : Versions) : NumberRead := v.readNumber v.stagingNo v.stagingNoC false
def Versions.previousRead (v : Versions) : NumberRead := v.readNumber v.previousNo v.previousNoC false

/-- The event of a number's mismatch (R377, R403). -/
def State.noteNumber (s : State) (r : NumberRead) : State :=
  match r with
  | .good _ => s
  | .fallback _ => s.raise { area := 0x10, kind := 0x08, unit := controlUnit }
  | .fault => s.raise { area := 0x10, kind := 0x09, unit := controlUnit }

/-- An order carries the number of the version it acts on: PAIR when the stored number cannot be read, STATE when it differs
(R381, R403). -/
def numberReason (r : NumberRead) (version : W32) : BitVec 8 :=
  match r with
  | .good n => if n = version then rsNone else rsState
  | .fallback n => if n = version then rsNone else rsState
  | .fault => rsPair

/-- A new staging copy of the active version, numbered one above the highest number ever assigned (R379). -/
def Versions.formStaging (v : Versions) : Versions :=
  { v with staging := v.active, counter := v.counter + 1, stagingNo := v.counter + 1, stagingNoC := ~~~(v.counter + 1) }

/-! ### Groups (R27, R401) -/

/-- Ungate the groups a version names; the pools of each group that was gated are full (R27, R401). -/
def State.ungateGroups (s : State) (t : Tab Nat) : State :=
  let fresh := (namedGroups t).filter (fun g => s.chr.gated.getLsbD g)
  fresh.foldl State.fillGroupPools (s.ungateFor t)

/-- Gate again the groups a version names and the active one does not (R27, R381). -/
def State.regateGroups (s : State) (t : Tab Nat) : State :=
  (namedGroups t).foldl (fun s g => effGroupGate (BitVec.ofNat 3 g) s) s

/-- The tick from which a boundary activates what is ordered now: 50 µs later (R27, R381). -/
def State.activationTick (s : State) : Nat := s.time.ticks + ticksOfUs 50

/-! ### The orders (R381, R382, R384) -/

/-- COMMIT: every check runs on the staging copy; a fault is reported, otherwise the version is PENDING (R27, R381). While an
ordered revert awaits its boundary no commit is taken. (DEDUCED, assumption 113) -/
def State.commitVersion (s : State) (version : W32) : State × BitVec 8 :=
  let r := numberReason s.vers.stagingRead version
  if r ≠ rsNone then (s.noteNumber s.vers.stagingRead, r)
  else if s.vers.phase ≠ .confirmed ∨ s.vers.due.isSome then (s, rsState)
  else
    match s.versionFault s.vers.staging with
    | some f => ({ s with vers := { s.vers with report := f.word } }, rsCheck)
    | none =>
      let s1 := { s with vers := { s.vers with phase := .pending, due := some (.commit, s.activationTick) } }
      (s1.ungateGroups s.vers.staging, rsNone)

/-- REVERT: a pending commit is cancelled; otherwise the previous version activates at a coming boundary (R381). -/
def State.revertVersion (s : State) (version : W32) : State × BitVec 8 :=
  let s0 := s.noteNumber s.vers.activeRead
  let r := numberReason s.vers.activeRead version
  if r ≠ rsNone then (s0, r)
  else if s.vers.phase = .pending then
    (({ s0 with vers := { s0.vers with phase := .confirmed, due := none } }).regateGroups s.vers.staging, rsNone)
  else if s.vers.previousValid = false ∨ s.vers.previousRejected then (s0, rsState)
  else if s.vers.due.isSome then (s0, rsNone)
  else
    (({ s0 with vers := { s0.vers with due := some (.revert, s.activationTick) } }).ungateGroups s.vers.previous, rsNone)

/-- The periods from a period count to the confirm deadline, none at the wrap fault (R11, R383). -/
def State.deadlineLeft (s : State) (period : W32) : Option Int := wrapDiff 32 period.toNat s.vers.deadline.toNat

/-- Whether the confirm deadline has been reached (R383). -/
def State.deadlinePassed (s : State) : Bool :=
  match s.deadlineLeft s.chr.periodCount with | some left => decide (left ≤ 0) | none => false

/-- The active version written to a slot, body then header (R385). -/
def Versions.store (v : Versions) (number : W32) : Versions :=
  let c : ConfigSlot := { number, numberC := ~~~number, state := 1, verified := true, body := v.active }
  { v with slots := Tab.set {} v.slots v.storeSlot c, stored := true }

/-- A store that failed leaves a slot whose digest does not verify. (DESIGN CHOICE, assumption 114) -/
def Versions.storeFailed (v : Versions) : Versions :=
  { v with slots := Tab.upd {} v.slots v.storeSlot (fun c => { c with verified := false }), stored := false }

/-- CONFIRM: the deadline stops, the version is CONFIRMED, and it is stored before the request completes (R381, R383, R385). -/
def State.confirmVersion (s : State) (version : W32) (flashGood : Bool) : State × BitVec 8 :=
  let s0 := s.noteNumber s.vers.activeRead
  let r := numberReason s.vers.activeRead version
  if r ≠ rsNone then (s0, r)
  else if s.vers.phase = .unconfirmed ∧ s.deadlineLeft s.chr.periodCount = none then (s0.noteWrap 0x10 controlUnit none, rsState)
  else if ¬ ((s.vers.phase = .unconfirmed ∧ s.deadlinePassed = false) ∨ (s.vers.phase = .confirmed ∧ s.vers.stored = false)) then (s0, rsState)
  else
    let s0 := s0.noteWrap 0x10 controlUnit s.vers.slotOrder
    let v : Versions := { s0.vers with phase := .confirmed, deadline := 0 }
    if flashGood then ({ s0 with vers := v.store version }, rsNone) else ({ s0 with vers := v.storeFailed }, rsFlash)

/-- StageReset: a write of 1 forms a new staging copy; refused while PENDING (R379, R382). -/
def State.resetStaging (s : State) (value : BitVec 8) : State × BitVec 8 :=
  if value ≠ 1 then (s, rsRange)
  else if s.vers.phase = .pending then (s, rsState)
  else ({ s with vers := s.vers.formStaging }, rsNone)

/-! ### Settings records (R387) -/

/-- The RW objects that take effect at the next start-up, or are kept across it. -/
def persistentObject (index : Nat) : Bool :=
  index == 0x100E || index == 0x7041 || index == 0xB030 || (0xE010 ≤ index && index ≤ 0xE012)

/-- The persistent objects' records. -/
def persistentValues (t : Tab Nat) : Tab Nat := t.filter (fun q => persistentObject (q.1 / (256 * 65536)))

/-- The settings as they stand. -/
def State.settingsNow (s : State) (count : W32) : Settings :=
  { count, verified := true, values := persistentValues s.rw, incarnation := s.fabric.incarnation, expelled := s.integ.expelled,
    lastSequence := s.integ.lastSequence, managerKeys := s.integ.managerKeys, quorum := s.integ.quorum }

/-- The highest SettingsCount held. -/
def Versions.settingsCount (v : Versions) : W32 :=
  let a := (Tab.get ({} : Settings) v.settings 0).count
  let b := (Tab.get ({} : Settings) v.settings 1).count
  if a.toNat < b.toNat then b else a

/-- The record of slot 0 and then that of slot 1 rewritten. -/
def State.storeSettings (s : State) : State :=
  let r := s.settingsNow (s.vers.settingsCount + 1)
  { s with vers := { s.vers with settings := Tab.set {} (Tab.set {} s.vers.settings 0 r) 1 r } }

/-- A write to a persistent object is done only when both records are stored; otherwise nothing changes and the Reason is FLASH. -/
def State.persist (s : State) (new : State) (flashGood : Bool) : State × BitVec 8 :=
  if flashGood then (new.storeSettings, rsNone) else (s, rsFlash)

/-! ### CONFIRM_DEADLINE_UNGATE (R383) -/

/-- The groups the previous version needs are ungated ahead of the deadline. -/
def effConfirmDeadlineUngate (s : State) : State :=
  if s.deadlineNear then s.ungateGroups s.vers.previous else s

/-- CONFIRM_DEADLINE_UNGATE (R383). -/
def execConfirmDeadlineUngate (s : State) : Host.Outcome State Fault Refusal := .next (effConfirmDeadlineUngate s)

end Sys2Proof.Machine
end

