-- ==== Sys2Proof/Machine/Integrity.lean ====
section
/-!
DEFINITION. Integrity and fleet support: the log, health decay, the sweep of complemented values, the arrays' self-test, quarantine
clearing, manager orders, and the firmware's heartbeat (R396, R399, R403 to R405, R412 to R415, R419 to R423).
-/

namespace Sys2Proof.Machine

/-! ### The log (R396, R399) -/

/-- A held record is written once 1 ms has passed since its first event was raised. -/
def effEventRecordWrite (index : BitVec 16) (s : State) : State :=
  match s.integ.holding[index.toNat]? with
  | none => s
  | some r =>
    if s.time.ticks < r.raisedAt + ticksOfUs 1000 then s
    else ({ s with integ := { s.integ with holding := s.integ.holding.eraseIdx index.toNat } }).writeEvent r

/-- EVENT_RECORD_WRITE (R396). -/
def execEventRecordWrite (index : BitVec 16) (s : State) : Host.Outcome State Fault Refusal := .next (effEventRecordWrite index s)

/-- The records that wait are written to the fault log, which keeps the most recent 64. -/
def effFaultLogWrite (s : State) : State :=
  { s with integ := { s.integ with faultLog := lastN 64 (s.integ.faultLog ++ s.integ.unlogged), unlogged := [] } }

/-- FAULT_LOG_WRITE (R399). -/
def execFaultLogWrite (s : State) : Host.Outcome State Fault Refusal := .next (effFaultLogWrite s)

/-! ### Health decay (R415) -/

/-- A score after one second: floor(S × M / 2^32 + 0.5). -/
def decayed (score : W32) (m : Nat) : W32 := BitVec.ofNat 32 ((score.toNat * m + 2 ^ 31) / 2 ^ 32)

/-- Every listed part's flag brought up to date, then the module's. -/
def State.reflagParts (s : State) : State :=
  (s.integ.health.map (·.1)).foldl State.reflagAll s

/-- Every 781,250,000 ticks the scores decay. -/
def effHealthDecay (s : State) : State :=
  if s.time.ticks < s.integ.decayTicks + 781250000 then s
  else
    let m := decayMultiplier (s.obj 0xA002 0 0)
    let health := Tab.mapAll {} (fun _ (h : Health) => { h with score := decayed h.score m }) s.integ.health
    ({ s with integ := { s.integ with health, decayTicks := s.integ.decayTicks + 781250000 } }).reflagParts

/-- HEALTH_DECAY (R415). -/
def execHealthDecay (s : State) : Host.Outcome State Fault Refusal := .next (effHealthDecay s)

/-! ### The sweep (R403, R404) -/

/-- The sweep of an island's list: an event for each entry that fails. (DEDUCED, assumption 124) -/
def State.sweepIsland (s : State) (u : UnitId) : State :=
  (s.island u).list.foldl (fun s l =>
    let ck := (s.island u).checked l.window
    s.raiseIf ck.2 { area := 0x30, kind := if ck.1.isSome then 0x08 else 0x09, unit := u, detail := [(16, l.window)] }) s

/-- The sweep of an engine: its bounds, then its mooring entries; a mooring entry that fails stops it. -/
def State.sweepEngine (s : State) (e : EngineId) : State :=
  let s1 := ((s.engine e).bounds.map (·.1)).foldl (fun s c => s.checkBounds e (BitVec.ofNat 10 c)) s
  match (s1.engine e).moorings.find? (fun q => !q.2.good) with
  | none => s1
  | some q =>
    let owner := (Tab.get {} (s1.engine e).granules (q.1 / 16)).context
    if (s1.engine e).stopped then s1 else s1.mooringFault e owner

/-- The sweep of the time increment: as a tick finds it (R51). -/
def State.sweepIncrement (s : State) : State :=
  match s.time.increment.2 with
  | 0 => s
  | 1 => s.raise { area := 0x20, kind := 0x08, unit := timeUnit }
  | _ => (s.raise { area := 0x20, kind := 0x09, unit := timeUnit }).setQuality .fault

/-- The sweep of the generations: an instance whose pair fails is reset (R403). -/
def State.sweepGenerations (s : State) : State :=
  (s.insts.map (·.1)).foldl (fun s n =>
    let i := Tab.get {} s.insts n
    if i.generationC = ~~~i.generation then s
    else (s.raise { area := 0x90, kind := 0x09, unit := hostUnit, inst := some (BitVec.ofNat 10 n) }).resetInst (BitVec.ofNat 10 n)) s

/-- The sweep of the region records of the active version. -/
def State.sweepRegions (s : State) : State :=
  (List.range (s.act 0x7011 0 0)).foldl (fun s i =>
    let r := s.act 0x7010 0 i
    if pairGood 128 (r % 2 ^ 128) (r >>> 128) then s
    else s.raise { area := 0x70, kind := if (s.regionServed i).isSome then 0x08 else 0x09, detail := [(16, i)] }) s

/-- The sweep of the ledgers' configured sizes. -/
def State.sweepLedgers (s : State) : State :=
  if s.integ.ledgers.all (fun q => q.2.sizeFault == 0) then s
  else s.pools.foldl (fun s p => if (Tab.get {} s.integ.ledgers p.key).sizeFault = 0 then s else s.auditPool p) s

/-- Every complemented value of the module is checked, and a mismatch handled as if a read had found it. -/
def effComplementSweep (s : State) : State :=
  let s1 := ((s.chr.islands.map (·.1)).foldl (fun s u => s.sweepIsland (BitVec.ofNat 16 u)) s)
  let s2 := (s1.engines.map (·.1)).foldl (fun s e => s.sweepEngine (BitVec.ofNat 6 e)) s1
  let s3 := s2.sweepIncrement.sweepGenerations.sweepRegions.sweepLedgers
  ((s3.noteNumber s3.vers.activeRead).noteNumber s3.vers.stagingRead).noteNumber s3.vers.previousRead

/-- COMPLEMENT_SWEEP (R404). -/
def execComplementSweep (s : State) : Host.Outcome State Fault Refusal := .next (effComplementSweep s)

/-! ### The arrays' self-test (R119, R120, R405) -/

/-- Whether an arbiter pass waits that a SERVICE window open on an engine can run. -/
def State.arbiterWaits (s : State) (e : EngineId) : Bool :=
  s.integ.soundingSlots.any (fun q => match q.2 with
    | some k => groupOf k.engine == groupOf e && k.engine != e
    | none => false)

/-- The arrays of a set of engines, engine by engine, A before B. -/
def arraysOf (engines : Nat) : List (EngineId × ArrayId) :=
  ((List.range 64).filter (fun e => bit engines e)).flatMap (fun e => [(BitVec.ofNat 6 e, false), (BitVec.ofNat 6 e, true)])

/-- The segment whose turn it is, as a count of segments: the one after the last that committed, beyond arrays that are DISABLED;
`fuel` bounds how many are passed over. (DEDUCED, assumption 56) -/
def State.nextSegment (s : State) (arrays : List (EngineId × ArrayId)) (at' : Nat) : Nat → Option (EngineId × ArrayId × Nat)
  | 0 => none
  | fuel + 1 =>
    match arrays[at' / 8 % arrays.length]? with
    | none => none
    | some q =>
      if ((s.engine q.1).array q.2).health = .disabled then s.nextSegment arrays ((at' / 8 + 1) * 8) fuel
      else some (q.1, q.2, at')

/-- What a self-test that is complete has found: nothing; a first faulty row, which the spare replaces while the array is
quarantined until the next activation; or a second, which disables the array, as does a first when the spare row is found faulty with
it. A faulty spare row that is not in use changes nothing alone. -/
def MatrixArray.tested (m : MatrixArray) : MatrixArray × Bool :=
  let found := (m.testRows.eraseDups).filter (fun r => r ≠ m.sparedRow.toNat)
  let rows := if m.sparedRow = 0xFF ∧ found.all (fun r => 32 ≤ r) then [] else found
  let m1 := { m with testRows := [] }
  match rows with
  | [] => (m1, false)
  | [r] =>
    if m.sparedRow = 0xFF then
      ({ m1 with sparedRow := BitVec.ofNat 8 r, latency := 161, health := .quarantined, bySelfTest := true, returning := true }, true)
    else ({ m1 with health := .disabled }, true)
  | _ => ({ m1 with health := .disabled }, true)

/-- One segment of 1,024 cycles runs and commits in a SERVICE window whose arbiter passes are done; the eighth completes the array's
test. -/
def effSelfTestSegment (e : EngineId) (a : ArrayId) (faultyRow : Option (BitVec 6)) (cycle : Nat) (s : State) : State :=
  match s.openWindow (engineUnit e) with
  | none => s
  | some l =>
    let set := winEngines l.win
    let arrays := arraysOf set
    let m := (s.engine e).array a
    match s.nextSegment arrays (Tab.get 0 s.chr.selfTests set) (arrays.length + 1) with
    | none => s
    | some (e', a', k) =>
      if e' ≠ e ∨ a' ≠ a ∨ winOwner l.win ≠ ownerService ∨ s.arbiterWaits e ∨ s.engineStopped e ∨ s.mayStart = false ∨
         l.fits 1024 cycle = false ∨ m.flight.isEmpty = false ∨ cycle < m.freeAt then s
      else
        let m1 := { m with testRows := m.testRows ++ (faultyRow.map (·.toNat)).toList, freeAt := cycle + 1024 }
        let r := if k % 8 = 7 then m1.tested else (m1, false)
        let slots : Pass := { context := 0, serial := 0, kind := .single, m := 0, n := 0, interval := 1024, stream := 1024 }
        let s1 := ((s.updEngine e (fun x => x.setArray a r.1)).countPass e cycle a slots).countArrayCtr e a acService 1024
        let s2 := { s1 with chr := { s1.chr with selfTests := Tab.set 0 s1.chr.selfTests set ((k + 1) % (8 * arrays.length)) } }
        s2.raiseIf r.2 { area := 0x40, kind := 0x12, unit := engineUnit e, status := stQuarantined, detail := [(1, b2n a)] }

/-- SELF_TEST_SEGMENT (R405). -/
def execSelfTestSegment (engine : EngineId) (array : ArrayId) (faultyRow : Option (BitVec 6)) (cycle : BitVec 40) (s : State) :
    Host.Outcome State Fault Refusal := .next (effSelfTestSegment engine array faultyRow cycle.toNat s)

/-! ### QUARANTINE_CLEAR (R412, R413) -/

/-- A sounding quarantine of an array, or a core's, ends at the next activation. -/
def State.clearQuarantine (s : State) (unit : BitVec 16) : State × BitVec 8 :=
  let kind := unit.toNat / 256
  let i := unit.toNat % 256
  if kind = 0 ∧ i % 128 < 64 then
    let e : EngineId := BitVec.ofNat 6 i
    let a : ArrayId := decide (128 ≤ i)
    let m := (s.engine e).array a
    if m.health = .quarantined ∧ m.bySelfTest = false then
      (s.updEngine e (fun x => x.setArray a { m with returning := true, counts := [] }), rsNone)
    else (s, rsNone)
  else if kind = 6 ∧ i < 48 then
    let n := Fin.ofNat 48 i
    let c := s.core n
    if c.health = .quarantined then (s.setCore n { c with returning := true, parityTimes := [] }, rsNone) else (s, rsNone)
  else (s, rsRange)

/-! ### Manager orders (R419 to R422) -/

def keyIndex (k : Nat) : Nat := bits k 1087 1080
def keyX (k : Nat) : Nat := beField k 1055 528
def keyY (k : Nat) : Nat := beField k 527 0

/-- The staged key records, in record order: those that hold a key. -/
def State.stagedKeys (s : State) : List (BitVec 1088) :=
  (((List.range 8).map (fun i => s.obj 0xA061 2 i)).filter (fun v => bits v 1055 0 != 0)).map (BitVec.ofNat 1088)

/-- The staged quorum. -/
def State.stagedQuorum (s : State) : Nat := s.obj 0xA061 1 0

/-- Whether a quorum suits a set: 1 to the lesser of 6 and the number of keys. -/
def quorumFits (k n : Nat) : Bool := decide (1 ≤ k ∧ k ≤ 6 ∧ k ≤ n)

/-- The key digest: SHA-512 over k, as one byte, followed by the key records. -/
def keyDigest (k : Nat) (keys : List (BitVec 1088)) : Nat :=
  (Config.sha512 (BitVec.ofNat 8 k :: keys.flatMap (fun q => leBytes 136 q.toNat))).toNat

def orVersion (r : Nat) : Nat := bits r 8191 8184
def orKind (r : Nat) : Nat := bits r 8183 8176
def orSignatures (r : Nat) : Nat := bits r 8175 8168
def orSequence (r : Nat) : Nat := bits r 8031 7968
def orKeyDigest (r : Nat) : Nat := bits r 7967 7456
def orSlot (r i : Nat) : Nat := bits r (7167 - 1088 * i) (6080 - 1088 * i)

/-- The digest an order's signatures sign: SHA-512 of its 128-byte header. (DEDUCED, assumption 125) -/
def orDigest (r : Nat) : Nat := (Config.sha512 (leBytes 128 (bits r 8191 7168))).toNat

/-- The registered key whose valid signature a slot carries. -/
def State.signerOf (s : State) (r i : Nat) : Option Nat :=
  let w := orSlot r i
  let k := bits w 1087 1080
  match s.integ.managerKeys.find? (fun q => keyIndex q.toNat == k) with
  | none => none
  | some q =>
    if bits w 1079 1056 = 0 ∧ Config.ecdsaVerify (keyX q.toNat) (keyY q.toNat) (orDigest r) (beField w 1055 528) (beField w 527 0) then some k
    else none

/-- Whether every field of an order is within its range and every reserved bit zero. -/
def orderFormed (r : Nat) : Bool :=
  orVersion r == 1 && decide (1 ≤ orKind r ∧ orKind r ≤ 3 ∧ 1 ≤ orSignatures r ∧ orSignatures r ≤ 6) && bits r 8167 8160 == 0 &&
  bits r 7455 7168 == 0 && bits r 639 0 == 0 && (orKind r == 3 || orKeyDigest r == 0) &&
  (List.range 6).all (fun i => if i < orSignatures r then decide (bits (orSlot r i) 1087 1080 ≤ 7 ∧ bits (orSlot r i) 1079 1056 = 0)
                               else orSlot r i == 0)

/-- Whether an order is accepted (R421). -/
def State.orderGood (s : State) (r : Nat) : Bool :=
  orderFormed r && bits r 8159 8032 == Config.serialNumber.toNat && decide (s.integ.lastSequence.toNat < orSequence r) &&
  (orKind r != 3 || (orKeyDigest r == keyDigest s.stagedQuorum s.stagedKeys && quorumFits s.stagedQuorum s.stagedKeys.length)) &&
  !s.integ.managerKeys.isEmpty &&
  decide (s.integ.quorum.toNat ≤ (((List.range (orSignatures r)).filterMap (s.signerOf r)).eraseDups).length)

/-- What an accepted order changes: LastSequence; the key set at once, or EXPELLED at a coming boundary. -/
def State.applyOrder (s : State) (r : Nat) : State :=
  let s1 := { s with integ := { s.integ with lastSequence := BitVec.ofNat 64 (orSequence r) } }
  match orKind r with
  | 1 => { s1 with integ := { s1.integ with orderPending := some (true, s.activationTick) } }
  | 2 => { s1 with integ := { s1.integ with orderPending := some (false, s.activationTick) } }
  | _ => { s1 with integ := { s1.integ with managerKeys := s.stagedKeys, quorum := BitVec.ofNat 8 s.stagedQuorum } }

/-- An ORDER event (R421). -/
def State.orderEvent (s : State) (st : BitVec 8) : State := s.raise { area := 0xA0, kind := 0x40, status := st }

/-- A write of ManagerOrder: refused with QUORUM, or accepted and its sequence stored before it completes. -/
def State.managerOrder (s : State) (order : List Byte) (flashGood : Bool) : State × BitVec 8 :=
  let r := ofLeBytes order
  if order.length = 1024 ∧ s.orderGood r then
    let q := s.persist (s.applyOrder r) flashGood
    if q.2 = rsNone then (q.1.orderEvent stDone, rsNone) else q
  else (s.orderEvent stSecurity, rsQuorum)

/-- A write of ManagerKeysApply: the staged set is registered when none is (R419). A staged set whose quorum does not suit it is no
state in which it may be registered. -/
def State.applyKeys (s : State) (value : BitVec 8) (flashGood : Bool) : State × BitVec 8 :=
  if value ≠ 1 then (s, rsRange)
  else if s.integ.managerKeys.isEmpty = false ∨ quorumFits s.stagedQuorum s.stagedKeys.length = false then (s, rsState)
  else s.persist { s with integ := { s.integ with managerKeys := s.stagedKeys, quorum := BitVec.ofNat 8 s.stagedQuorum } } flashGood

/-! ### The firmware's heartbeat (R423) -/

/-- 100 ms without a heartbeat: the module self-fences, HostReady reads 0 and the dictionary serves nothing. -/
def effFirmwareHeartbeatTimeout (s : State) : State :=
  let s1 := s.selfFence
  { s1 with host := { s1.host with hostReady := false }, integ := { s1.integ with firmwareLost := true } }

/-- FIRMWARE_HEARTBEAT_TIMEOUT (R423). -/
def execFirmwareHeartbeatTimeout (s : State) : Host.Outcome State Fault Refusal :=
  .next (if s.start.running then effFirmwareHeartbeatTimeout s else s)

end Sys2Proof.Machine
end

