-- ==== Sys2Proof/Machine/KeeperLine.lean ====
section
/-!
DEFINITION. What the keeper line sends and to whom: its addresses, its next hops, Keeper frames and the records of sessions (R391 to R395).
-/

namespace Sys2Proof.Machine

/-! ### Addresses (R391, R395) -/

/-- A record of a keeper object as it stood at the last start-up. -/
def State.keeperObject (s : State) (index : Nat) : Nat := getRec s.keeper.inForce index 0 0

/-- The link-local address formed from KeeperMac as a modified EUI-64. -/
def linkLocal : BitVec 128 :=
  let m := Config.keeperMac.toNat
  BitVec.ofNat 128 (0xFE80 * 2 ^ 112 + (Nat.xor (m / 2 ^ 24) (2 * 2 ^ 16)) * 2 ^ 40 + 0xFFFE * 2 ^ 24 + m % 2 ^ 24)

/-- An address whose first byte is the lowest of a number's 16 low bytes. -/
def addressOf (v : Nat) : BitVec 128 := BitVec.ofNat 128 (ofBeBytes (leBytes 16 v))

/-- The addresses of the port, those found duplicated left out. -/
def State.ownAddresses (s : State) : List (BitVec 128) :=
  let v := s.keeperObject 0xE010
  ([linkLocal] ++ (if v = 0 then [] else [addressOf v])).filter (fun a => !s.keeper.duplicate.contains a)

/-- Whether an address is link-local. -/
def isLinkLocal (a : BitVec 128) : Bool := a.toNat / 2 ^ 118 == 0xFE80 / 2 ^ 6

/-- Whether two addresses share their first n bits. -/
def sameNet (n : Nat) (a b : BitVec 128) : Bool := a.toNat / 2 ^ (128 - n) == b.toNat / 2 ^ (128 - n)

/-- The next hop toward an address: itself on the link, the gateway beyond it; none without a gateway. -/
def State.nextHop (s : State) (dest : BitVec 128) : Option (BitVec 128) :=
  let v := s.keeperObject 0xE010
  let g := s.keeperObject 0xE011
  if isLinkLocal dest ∨ (v ≠ 0 ∧ sameNet (v / 2 ^ 128) dest (addressOf v)) then some dest
  else if g = 0 then none else some (addressOf g)

/-! ### Sending -/

/-- Advance a counter of 0xE016 KeeperStats: FramesIn, FramesOut, FcsErrors, Dropped, Rejects, Resends, SessionsOpened,
DecryptFailures. -/
def State.keeperStat (s : State) (place : Nat) : State :=
  { s with keeper := { s.keeper with stats := Tab.upd 0 s.keeper.stats place (· + 1) } }

/-- A packet on the wire. -/
def State.keeperOut (s : State) (q : KeeperPacket) : State :=
  { s with keeper := { s.keeper with out := s.keeper.out ++ [q] } }.keeperStat 1

/-- A packet toward an address: sent when its next hop is resolved, otherwise it waits while the hop is solicited.
(DEDUCED, assumption 130) -/
def State.keeperTransmit (s : State) (dest : BitVec 128) (q : KeeperPacket) : State :=
  match s.nextHop dest with
  | none => s.keeperStat 3
  | some hop =>
    if s.keeper.neighbours.any (fun n => n.1 == hop) then s.keeperOut q
    else
      let asked := s.keeper.waiting.any (fun w => w.1 == hop)
      let s1 := { s with keeper := { s.keeper with waiting := s.keeper.waiting ++ [(hop, q)] } }
      if asked then s1 else s1.keeperOut (.solicitation hop)

/-- The 16-byte header of a Keeper frame, most significant byte first (R392). -/
def keeperHeader (kind length reject : Nat) : List Byte := beBytes 16 (2 ^ 124 + kind * 2 ^ 120 + length * 2 ^ 104 + reject * 2 ^ 96)

/-- A Keeper frame sent to an address and port. -/
def State.keeperSend (s : State) (dest : BitVec 128) (port : W16) (kind : Nat) (payload : List Byte) (reject : Nat) : State :=
  s.keeperTransmit dest (.datagram dest port (keeperHeader kind payload.length reject ++ payload))

/-! ### Sessions (R393, R394) -/

/-- A session's record. -/
def State.session (s : State) (k : BitVec 2) : Session := Tab.get {} s.keeper.sessions k.toNat
def State.setSession (s : State) (k : BitVec 2) (v : Session) : State :=
  { s with keeper := { s.keeper with sessions := Tab.set {} s.keeper.sessions k.toNat v } }

/-- The keys of a session, as one number for the uninterpreted cipher. -/
def Session.keyNumber (k : Session) : Nat := k.spdmId.toNat * 2 ^ 32 + k.keyEpoch

/-- A secured message of a session, sent to its requester. -/
def State.sendSecured (s : State) (x : Session) (data : List Byte) : State :=
  s.keeperSend x.address x.port 1 (Config.spdmSeal x.keyNumber data) 0

end Sys2Proof.Machine
end

