-- ==== Sys2Proof/Machine/Traffic.lean ====
section
/-!
DEFINITION. What the Ethernet ports share: timestamps (R59), the management queue's records (R271, R272), gates, shapers and
policers (R278 to R284), and MACsec (R285 to R287).
-/

namespace Sys2Proof.Machine

/-! ### Sizes and rates (R263, R264, R277) -/

/-- Picoseconds a port takes per byte. -/
def State.psPerByte (s : State) (p : Fin 84) : Nat :=
  if p.val < 64 then (if linkRate s.vers.active p.val = 0 then 0 else 8000 / linkRate s.vers.active p.val) else 5

/-- The largest frame of a port, FCS included. -/
def State.maxFrame (s : State) (p : Fin 84) : Nat := if p.val < 64 then bits (s.act 0x6001 0 p.val) 61 48 else 4224

/-- The unicast address of a port. -/
def State.portMac (s : State) (p : Fin 84) : Nat :=
  if p.val < 64 then bits (s.act 0x6001 0 p.val) 127 80 else bits (s.act 0x6002 0 (p.val - 64)) 127 80

/-! ### Timestamps (R59) -/

/-- A raw capture moved by a signed number of units of 2^-16 ns, Seconds modulo 2^48. -/
def shiftStamp (raw : BitVec 96) (d : Int) : BitVec 96 :=
  stampOf16 (((unitsOfStamp raw : Int) + d) % ((2 ^ 48 * (10 ^ 9 * 2 ^ 16) : Nat) : Int)).toNat

/-- The corrected ingress timestamp of a fronthaul link. -/
def State.ingressStamp (s : State) (link : Nat) (raw : BitVec 96) : BitVec 96 :=
  let r := s.obj 0x2010 0 link
  shiftStamp raw (-(bits r 127 96 : Int) - toSigned 32 (bits r 63 32))

/-- The raw egress capture of a frame whose start crosses the pads now: the error, at most 98,304 units of 2^-16 ns either way, is taken
from an open value (R57). (DEDUCED, assumption 152) -/
def State.egressRaw (s : State) (link : Nat) (open' : Nat) : BitVec 96 :=
  shiftStamp s.now (((open' % 196609 : Nat) : Int) - 98304 - ((linkLatency (linkRate s.vers.active link)).2 : Int))

/-- The corrected egress timestamp of a fronthaul link. -/
def State.egressStamp (s : State) (link : Nat) (raw : BitVec 96) : BitVec 96 :=
  let r := s.obj 0x2010 0 link
  shiftStamp raw ((bits r 95 64 : Int) - toSigned 32 (bits r 63 32))

/-! ### Management records (R272) -/

/-- A record header: kind, port, length, colour, status, tag, timestamp, with its Phase and Overflow. -/
def mgmtHeader (kind port length colour status tag : Nat) (phase overflow : Bool) (stamp : BitVec 96) : Nat :=
  kind * 2 ^ 510 + b2n phase * 2 ^ 509 + port * 2 ^ 502 + length * 2 ^ 488 + colour * 2 ^ 486 + status * 2 ^ 478 +
  tag * 2 ^ 446 + b2n overflow * 2 ^ 445 + stamp.toNat

/-- Write a record of the receive ring, or drop and count it when the ring is full (R272). -/
def State.mgmtRecord (s : State) (kind port colour status tag : Nat) (stamp : BitVec 96) (frame : List Byte) : State :=
  let size := 2 ^ s.obj 0x6040 2 0
  let q := s.mgmt
  let w := q.rxWritten.toNat
  if (q.rxWritten - q.rxConsumed).toNat < size then
    let head := mgmtHeader kind port frame.length colour status tag (phaseAt w size) q.overflow stamp
    let s1 := { s with mgmt := { q with rxWritten := q.rxWritten + 1, overflow := false } }
    let at' : W64 := BitVec.ofNat 64 (s.obj 0x6040 1 0 + 9216 * (w % size))
    let s2 := s1.post { source := .provider, address := at', bytes := leBytes 64 head ++ frame, purpose := .mgmt }
    let vec := s.obj 0x6040 7 0
    if vec = 0xFFFF then s2 else s2.msix .provider vec
  else { s with mgmt := { q with overflow := true, dropped := q.dropped + 1 } }

/-- Write the TX_DONE records that may be written: a descriptor's once it has ended and no earlier one of its port is open. -/
def State.flushTx (s : State) : Nat → State
  | 0 => s
  | fuel + 1 =>
    let ready := s.mgmt.txOpen.find? (fun o => o.outcome.isSome &&
      ((s.mgmt.txOpen.find? (fun q => q.port == o.port)).map (·.serial)) == some o.serial)
    match ready with
    | none => s
    | some o =>
      let q := o.outcome.getD (0, 0)
      let s1 := { s with mgmt := { s.mgmt with txOpen := s.mgmt.txOpen.filter (fun x => x.serial ≠ o.serial), completed := s.mgmt.completed + 1 } }
      (s1.mgmtRecord 1 o.port.toNat 3 q.1.toNat o.tag.toNat q.2 []).flushTx fuel

/-- A descriptor ends (R271). -/
def State.endTx (s : State) (serial : Nat) (status : BitVec 8) (stamp : BitVec 96) : State :=
  let open' := s.mgmt.txOpen.map (fun o => if o.serial = serial then { o with outcome := some (status, stamp) } else o)
  let s1 := { s with mgmt := { s.mgmt with txOpen := open' } }
  s1.flushTx open'.length

/-! ### Ethernet headers (R264, R268) -/

/-- The big-endian number at an offset of a frame. -/
def fieldAt (f : List Byte) (offset n : Nat) : Nat := ofBeBytes ((f.drop offset).take n)

/-- Whether a frame carries a C-tag, and where its EtherType lies. -/
def tagged (f : List Byte) : Bool := fieldAt f 12 2 == 0x8100
def typeOffset (f : List Byte) : Nat := if tagged f then 16 else 12
def etherType (f : List Byte) : Nat := fieldAt f (typeOffset f) 2

/-- The receive classes of R268, in the order of the policers' ClassMask from bit 39 down; ENALUP has no bit. -/
inductive RxClass where
  | ecpri | ptp | esmc | eapol | lldp | other | enalup
deriving DecidableEq, Repr

/-- The class of a frame at a port of a unicast address. -/
def classify (mac : Nat) (f : List Byte) : RxClass :=
  let d := fieldAt f 0 6
  let t := etherType f
  if t = 0xAEFE ∧ d = mac then .ecpri
  else if t = 0x88B5 ∧ d = mac then .enalup
  else if t = 0x88F7 ∧ (d = mac ∨ d = 0x011B19000000 ∨ d = 0x0180C200000E) then .ptp
  else if t = 0x8809 ∧ fieldAt f (typeOffset f + 2) 1 = 0x0A ∧ d = 0x0180C2000002 then .esmc
  else if t = 0x888E ∧ (d = 0x0180C2000003 ∨ d = mac) then .eapol
  else if t = 0x88CC ∧ d = 0x0180C200000E then .lldp
  else .other

def RxClass.maskBit : RxClass → Option Nat
  | .ecpri => some 39
  | .ptp => some 38
  | .esmc => some 37
  | .eapol => some 36
  | .lldp => some 35
  | .other => some 34
  | .enalup => none

/-! ### Buckets (R282, R284) -/

/-- What a bucket has spent after a growth at a rate in Mb/s over a time in 2^-16 ns: 1 Mb/s is 4 / 8,192,000 of 1/256 byte
per unit of time. -/
def refill (spent rate dt : Nat) : Nat := spent - rate * 4 * dt

/-- One byte in the units buckets are kept in. -/
def bucketByte : Nat := 2 ^ 24 * 125

/-- Whether a bucket of a burst holds a number of bytes, and what it has then spent. -/
def hasCredit (burst spent bytes : Nat) : Bool := decide (bytes * bucketByte + spent ≤ burst * bucketByte)
def spend (spent bytes : Nat) : Nat := spent + bytes * bucketByte

/-- The colour of a frame: 0 green, 1 yellow, 2 red (R284). -/
def policeColour (r tc te length : Nat) (yellow : Bool) : Nat :=
  if !yellow && hasCredit (bits r 79 60) tc length then 0
  else if hasCredit (bits r 59 40) te length then 1
  else 2

/-- The action of a policer for a colour: 0 PASS, 1 PASS_MARK, 2 DROP. (DEDUCED, assumption 80) -/
def policeAction (r : Nat) : Nat → Nat
  | 0 => bits r 31 30
  | 1 => bits r 29 28
  | _ => bits r 27 26

/-- Meter a frame of a class at a link's policer: its colour (3 when not policed) and whether it is dropped (R284). -/
def State.police (s : State) (p : Fin 84) (cls : RxClass) (dei : Bool) (length : Nat) (stamp : BitVec 96) : State × Nat × Bool :=
  let found := (List.range 4).find? (fun i =>
    let r := s.act 0x6030 0 (4 * p.val + i)
    bit r 32 && (match cls.maskBit with | some k => bit r k | none => false))
  match found with
  | none => (s, 3, false)
  | some i =>
    let r := s.act 0x6030 0 (4 * p.val + i)
    let x := s.port p
    let t := unitsOfStamp stamp
    let dt := t - Tab.get 0 x.policedAt i
    let tc := refill (Tab.get 0 x.tcSpent i) (bits r 127 104) dt
    let te := refill (Tab.get 0 x.teSpent i) (bits r 103 80) dt
    let colour := policeColour r tc te length (bit r 33 && dei)
    let tc1 := if colour = 0 then spend tc length else tc
    let te1 := if colour = 1 then spend te length else te
    let x1 := { x with tcSpent := Tab.set 0 x.tcSpent i tc1, teSpent := Tab.set 0 x.teSpent i te1,
                       policedAt := Tab.set 0 x.policedAt i (Nat.max t (Tab.get 0 x.policedAt i)) }
    let action := policeAction r colour
    let s1 := (s.setPort p x1).countPort p (6 + colour)
    if action = 2 then (s1.countPort p 9, colour, true) else (s1, if action = 1 then colour else 3, false)

/-! ### Gates (R278 to R280) -/

/-- Entry count and cycle time, in ticks of 1.28 ns, of a port's list; mask and interval of an entry. -/
def State.gateCount (s : State) (p : Fin 84) : Nat := bits (s.act 0x6011 0 p.val) 63 53
def State.gateCycle (s : State) (p : Fin 84) : Nat := bits (s.act 0x6011 0 p.val) 52 23
def State.gateMask (s : State) (p : Fin 84) (i : Nat) : Nat := bits (s.act 0x6010 p.val i) 31 24
def State.gateInterval (s : State) (p : Fin 84) (i : Nat) : Nat := bits (s.act 0x6010 p.val i) 23 0

/-- Ticks from the period's start at which the k-th entry of a period, counted over the list's runs, begins. (DEDUCED, assumption 83) -/
def State.gateStart (s : State) (p : Fin 84) (k : Nat) : Nat :=
  let n := s.gateCount p
  k / Nat.max 1 n * s.gateCycle p + ((List.range (k % Nat.max 1 n)).map (s.gateInterval p)).foldl (· + ·) 0

/-- Ticks of a period. -/
def State.periodTicks (s : State) : Nat := s.periodFrames * 7812500

/-- The first entry at or after the k-th that is not skipped, within the period (R10). -/
def State.liveEntry (s : State) (p : Fin 84) (k : Nat) : Nat → Nat
  | 0 => k
  | fuel + 1 => if s.gateInterval p (k % Nat.max 1 (s.gateCount p)) ≠ 0 then k else s.liveEntry p (k + 1) fuel

/-- Whether a queue is gated: some entry of a non-empty list has its bit clear (R279). -/
def State.gated (s : State) (p : Fin 84) (q : Nat) : Bool :=
  (List.range (s.gateCount p)).any (fun i => !bit (s.gateMask p i) q)

/-- Where the run of open entries from the k-th ends, in ticks of the period; the flag says that it reached the boundary. -/
def State.gateClose (s : State) (p : Fin 84) (q k : Nat) : Nat → Nat × Bool
  | 0 => (s.periodTicks, true)
  | fuel + 1 =>
    if s.periodTicks ≤ s.gateStart p k then (s.periodTicks, true)
    else
      let i := k % Nat.max 1 (s.gateCount p)
      if s.gateInterval p i ≠ 0 ∧ bit (s.gateMask p i) q = false then (s.gateStart p k, false) else s.gateClose p q (k + 1) fuel

/-- Two cycles of a port's island in picoseconds: 1.28 ns on the Gallery, 0.8 ns on the Lanterns (R277). -/
def twoCyclesPs (p : Fin 84) : Nat := if p.val < 64 then 2560 else 1600

/-- Whether the gate of a queue is open and a frame of a counted length ends in time: at or before the close less two cycles;
a run that reaches the boundary closes PhaseStepLimit before it (R279). Times are in picoseconds × 2^32. -/
def State.gateFits (s : State) (p : Fin 84) (q length : Nat) : Bool :=
  if s.gated p q = false then true
  else
    let k := s.liveEntry p (s.port p).gateEntry (s.gateCount p)
    if bit (s.gateMask p (k % Nat.max 1 (s.gateCount p))) q = false then false
    else
      let c := s.gateClose p q k (2 * s.gateCount p + 1)
      let close := c.1 * 1280 - (if c.2 then s.act 0x2007 0 0 * 1000 else 0)
      let into := (s.time.intoPeriod s.periodFrames * 2 ^ 32 + s.time.acc % 2 ^ 32) * 1000
      Nat.ble (into + (length * s.psPerByte p + twoCyclesPs p) * 2 ^ 32) (close * 2 ^ 32)

/-! ### Shapers (R281, R282) -/

def State.shaper (s : State) (p : Fin 84) (q : Nat) : Nat := s.act 0x6020 0 (8 * p.val + q)

/-- Grow every shaper's credit of a port to the time now. -/
def State.fillShapers (s : State) (p : Fin 84) : State :=
  let x := s.port p
  let dt := s.now16 - x.filledAt
  let spent := Tab.mapAll 0 (fun q v => refill v (bits (s.shaper p q) 63 40) dt) x.spent
  s.setPort p { x with spent, filledAt := s.now16 }

/-- Whether a queue's shaper lets a frame of a counted length go. -/
def State.shaperAllows (s : State) (p : Fin 84) (q length : Nat) : Bool :=
  let r := s.shaper p q
  !bit r 19 || hasCredit (bits r 39 20) (Tab.get 0 (s.port p).spent q) length

/-! ### MACsec (R285 to R287) -/

def State.macsecRec (s : State) (p : Fin 84) : Nat := s.act 0x6050 0 p.val
def State.macsecOn (s : State) (p : Fin 84) : Bool := bit (s.macsecRec p) 63
def State.macsecXpn (s : State) (p : Fin 84) : Bool := decide (2 ≤ bits (s.macsecRec p) 62 61)
def Port.sa (x : Port) (sc an : Nat) : SecureAssoc := Tab.get {} x.sas (4 * sc + an)
def Port.setSa (x : Port) (sc an : Nat) (v : SecureAssoc) : Port := { x with sas := Tab.set {} x.sas (4 * sc + an) v }

/-- The key material of an association, as one number. -/
def SecureAssoc.material (a : SecureAssoc) : Nat := a.key.toNat + a.salt.toNat * 2 ^ 256 + a.ssci.toNat * 2 ^ 352 + b2n a.key256 * 2 ^ 384

/-- Whether a frame travels unprotected on a port with MACsec on. -/
def State.macsecExempt (s : State) (p : Fin 84) (f : List Byte) : Bool :=
  etherType f == 0x888E || (bit (s.macsecRec p) 59 && (etherType f == 0x88F7 || (etherType f == 0x8809 && fieldAt f (typeOffset f + 2) 1 == 0x0A)))

/-- The packet number of a received frame: with XPN its high half is the lowest acceptable one's, or the next where that
would lie half the space below. -/
def recoverPn (xpn : Bool) (lowest pn : Nat) : Nat :=
  if xpn = false then pn
  else
    let n := lowest / 2 ^ 32 * 2 ^ 32 + pn
    if n + 2 ^ 31 ≤ lowest then n + 2 ^ 32 else n

/-- The MACsec check of a received frame: the frame within, or the counter of PortCounters its drop advances (10 no SecTAG, 11 ICV,
12 replay) (R285). The SecTAG is IEEE 802.1AE's: EtherType 0x88E5, TCI and AN, SL, PN, SCI. -/
def State.macsecReceive (s : State) (p : Fin 84) (f : List Byte) : State × Option (List Byte) × Nat :=
  if s.macsecOn p = false ∨ s.macsecExempt p f then (s, some f, 0)
  else if fieldAt f 12 2 ≠ 0x88E5 then (s, none, 10)
  else
    let tci := fieldAt f 14 1
    let an := tci % 4
    let sci := fieldAt f 20 8
    let sc := (List.range 16).find? (fun i => s.obj 0x6051 p.val i == sci && sci != 0)
    match sc with
    | none => (s, none, 10)
    | some i =>
      let x := s.port p
      let a := x.sa (i + 1) an
      let pn := recoverPn (s.macsecXpn p) a.pn.toNat (fieldAt f 16 4)
      if a.installed = false ∨ bit tci 5 = false then (s, none, 10)
      else if pn < a.pn.toNat then (s, none, 12)
      else if Config.macsecIcvGood a.material pn f = false then (s, none, 11)
      else
        let low := Nat.max a.pn.toNat (pn + 1 - bits (s.macsecRec p) 56 26)
        (s.setPort p (x.setSa (i + 1) an { a with pn := BitVec.ofNat 64 low }), some (Config.macsecOpen a.material pn f), 0)

/-- Protect a frame with the transmit association in use: none where it is not installed or its PN space is exhausted. The
next PN passing its threshold raises an event (R287). -/
def State.macsecTransmit (s : State) (p : Fin 84) (f : List Byte) : State × Option (List Byte) :=
  if s.macsecOn p = false ∨ s.macsecExempt p f then (s, some f)
  else
    let x := s.port p
    let an := bits (s.macsecRec p) 58 57
    let a := x.sa 0 an
    if a.installed = false ∨ a.exhausted then (s, none)
    else
      let next := a.pn.toNat + 1
      let xpn := s.macsecXpn p
      let overflow : Bool := decide ((if xpn then 2 ^ 62 else 0xC0000000) < next)
      let a1 := { a with pn := BitVec.ofNat 64 next, warned := a.warned || overflow, exhausted := decide ((if xpn then 2 ^ 64 else 2 ^ 32) ≤ next) }
      let s1 := s.setPort p (x.setSa 0 an a1)
      (s1.raiseIf (overflow && !a.warned) { area := 0x60, kind := 0x10, unit := portUnit p }, some (Config.macsecSeal a.material a.pn.toNat f))

end Sys2Proof.Machine
end

