-- ==== Sys2Proof/Machine/Ports.lean ====
section
/-!
DEFINITION. The Ethernet ports' commands: reception, link state, selection of a frame, gate edges, the management queue, MACsec keys
(R263 to R289).
-/

namespace Sys2Proof.Machine

/-! ### FRAME_RX (R268) -/

/-- A received frame is dropped and counted: a place of PortCounters and RxDropped. -/
def State.dropRx (s : State) (p : Fin 84) (place : Nat) : State := (s.countPort p place).portStat p 5 1

/-- The counter a frame's header makes it drop at, if any: too short or long, PAUSE or PFC, more than one tag, an address that is
not the port's (R264, R268). -/
def State.rxRefusal (s : State) (p : Fin 84) (f : List Byte) : Option Nat :=
  let d := fieldAt f 0 6
  let n := f.length + 4
  if n < 64 then some 0
  else if s.maxFrame p < n then some 1
  else if etherType f = 0x8808 then some 4
  else if tagged f ∧ (etherType f = 0x8100 ∨ etherType f = 0x88A8) then some 2
  else if d = s.portMac p ∨ d ∈ [0xFFFFFFFFFFFF, 0x011B19000000, 0x0180C200000E, 0x0180C2000002, 0x0180C2000003] then none
  else some 3

/-- Hand a frame to the management queue (R272). -/
def State.mgmtReceive (s : State) (p : Fin 84) (colour : Nat) (stamp : BitVec 96) (f : List Byte) : State :=
  if s.obj 0x6040 8 0 = 1 then s.mgmtRecord 0 p.val colour 0 0 stamp f else s.portStat p 5 1

/-- Bytes of one fabric ingress buffer, in lines (R325). -/
def ingressLines : Nat := 65536

/-- Put an Enalup packet into the ingress buffer of its die and class, or drop and count it when that is full (R325). -/
def State.intoIngress (s : State) (p : Fin 84) (f : List Byte) : State :=
  let h : BitVec 384 := BitVec.ofNat 384 (fieldAt f (typeOffset f + 2) 48)
  let cls := (Header.decode h).cls
  let die := dieOfUnit (portUnit p)
  let used := s.fabric.ingress.foldl (fun a q => if q.1 = die ∧ (Header.decode q.2.1).cls = cls then a + q.2.2 else a) 0
  let lines := ceilDiv (f.length - (typeOffset f + 2)) 64
  if ingressLines < used + lines then s.fabricStat 5
  else { s with fabric := { s.fabric with ingress := s.fabric.ingress ++ [(die, h, lines)] } }

/-- Deliver a classified frame to what it is for, or drop it (R268). -/
def State.deliverRx (s : State) (p : Fin 84) (cls : RxClass) (colour : Nat) (stamp : BitVec 96) (f : List Byte) : State :=
  let fh := decide (p.val < 64)
  match cls with
  | .ecpri => if fh then s.ecpriRx p.val (f.drop (typeOffset f + 2)) (unitsOfStamp stamp) else s.dropRx p 5
  | .enalup => if fh then s.dropRx p 5 else if s.integ.expelled then s.portStat p 5 1 else s.intoIngress p f
  | .ptp | .esmc => if fh then s.mgmtReceive p colour stamp f else s.dropRx p 5
  | .eapol | .lldp => s.mgmtReceive p colour (if fh then stamp else 0) f
  | .other => if fh && bit (s.act 0x6001 0 p.val) 41 then s.mgmtReceive p colour stamp f else s.dropRx p 5

/-- A frame arrives on a port that is UP: FCS, size, tag and address, MACsec, class, policer, delivery (R264, R268, R284, R285).
`f` is the frame without its FCS. (DEDUCED, assumption 78) -/
def State.frameArrives (p : Fin 84) (f : List Byte) (fcsGood : Bool) (raw : BitVec 96) (s : State) : State :=
  if (s.port p).state ≠ .up ∨ s.integ.fenced then s
  else
    let s1 := (s.portStat p 2 1).portStat p 3 (f.length + 4)
    if fcsGood = false then (s1.portStat p 4 1).portStat p 5 1
    else
      match s1.rxRefusal p f with
      | some place => s1.dropRx p place
      | none =>
        match s1.macsecReceive p f with
        | (s2, none, place) => (s2.dropRx p place).portStat p 6 1
        | (s2, some g, _) =>
          let stamp := if p.val < 64 then s2.ingressStamp p.val raw else 0
          let cls := classify (s2.portMac p) g
          let dei := tagged g && bit (fieldAt g 14 2) 12
          let q := if p.val < 64 then s2.police p cls dei (s2.countedLength p g) stamp else (s2, 3, false)
          if q.2.2 then q.1.portStat p 5 1 else q.1.deliverRx p cls q.2.1 stamp g

/-- The class a frame carries for the programmable counters: its header's for ENALUP, RAN for eCPRI, ADMIN for any other (R452). -/
def frameClass (f : List Byte) : Nat :=
  if etherType f = 0x88B5 then (Header.decode (BitVec.ofNat 384 (fieldAt f (typeOffset f + 2) 48))).cls.toNat
  else if etherType f = 0xAEFE then 0 else 2

/-- Count a frame that a port has dropped since a state, going by a place of PortStats (R452). -/
def State.noteDropped (t s : State) (p : Fin 84) (place : Nat) (f : List Byte) : State :=
  if Tab.get 0 (t.port p).stats place ≠ Tab.get 0 (s.port p).stats place then t.progPort p 0x43 1 (frameClass f) else t

/-- The arrival of a frame, with the programmable counters it advances. -/
def effFrameRx (p : Fin 84) (f : List Byte) (fcsGood : Bool) (raw : BitVec 96) (s : State) : State :=
  if (s.port p).state ≠ .up ∨ s.integ.fenced then s
  else ((s.frameArrives p f fcsGood raw).progPort p 0x42 1 (frameClass f)).noteDropped s p 5 f

/-- FRAME_RX (R268). -/
def execFrameRx (port : Fin 84) (frame : List Byte) (fcsGood : Bool) (rawTime : BitVec 96) (s : State) :
    Host.Outcome State Fault Refusal := .next (effFrameRx port frame fcsGood rawTime s)

/-! ### PORT_DOWN and PORT_UP (R265) -/

/-- Frames of queues 6 and 7 that a link cannot send count as fill, once per eAxC-symbol or C-plane message (R241). -/
def State.fillLost (s : State) (f : Frame) : State :=
  match f.origin with
  | .uplane c slot k i =>
    match ((s.cell c).plans.find? (fun p => p.slot == slot)).map (fun p => p.dlSym k.toNat i.toNat) with
    | none => s
    | some v =>
      if v.sent then s
      else (s.updPlan c slot (fun p => p.setDlSym k.toNat i.toNat { v with sent := true })).countFill c slot 1
  | .cplane c slot => s.countFill c slot 1
  | _ => s

/-- A port goes DOWN: the transition is counted and raised, radio frames that wait are fill, and what a fabric port last sent
is sent again on the others (R241, R265, R326). Which fault its PCS reports is left open. (DEDUCED, assumption 84) -/
def effPortDown (p : Fin 84) (s : State) : State :=
  let x := s.port p
  if x.state ≠ .up then s
  else
    let d := s.draw
    let lost := if p.val < 64 then Tab.get [] x.queues 7 ++ Tab.get [] x.queues 6 else []
    let queues := if p.val < 64 then Tab.erase (Tab.erase x.queues 7) 6
                  else Tab.mapAll [] (fun _ q => q.filter (fun f => match f.origin with | .enalup _ => false | _ => true)) x.queues
    let x1 := { x with state := .down, transitions := x.transitions + 1, wire := none, queues, localFault := d.1.testBit 0,
                       remoteFault := d.1.testBit 1 }
    let s0 := (d.2.setPort p x1).loseSynce
    let s1 := s0.raise { area := 0x60, kind := 0x03, unit := portUnit p }
    if p.val < 64 then
      let s2 := lost.foldl State.fillLost s1
      (List.range (cellCount s2.vers.active)).foldl (fun s i =>
        let c : CellId := BitVec.ofNat 9 i
        if clLink (s.cellOf c) = p.val then
          s.setCell c { s.cell c with plans := (s.cell c).plans.map (fun q => { q with linkDown := true }) }
        else s) s2
    else s1.retransmitPort (p.val - 64)

/-- PORT_DOWN (R265). -/
def execPortDown (port : Fin 84) (s : State) : Host.Outcome State Fault Refusal := .next (effPortDown port s)

/-- A port comes UP (R265); what waited toward fabric peers is sent. -/
def effPortUp (p : Fin 84) (s : State) : State :=
  let x := s.port p
  if x.state ≠ .down ∨ x.stopped ∨ s.start.running = false then s
  else
    let x1 := { x with state := .up, transitions := x.transitions + 1, localFault := false, remoteFault := false }
    let s1 := (s.setPort p x1).raise { area := 0x60, kind := 0x10, unit := portUnit p }
    if p.val < 64 then s1 else s1.pumpPeers

/-- PORT_UP (R265). -/
def execPortUp (port : Fin 84) (s : State) : Host.Outcome State Fault Refusal := .next (effPortUp port s)

/-! ### FRAME_SELECT (R274, R275) -/

/-- Whether a port may send from a queue at all: nothing in the eclipse of a time load, once fenced or from a fabric port once expelled,
and no C-plane or U-plane while TimeQuality is UNSET or the module is expelled (R53, R56, R422, R423). -/
def State.mayTransmit (s : State) (p : Fin 84) (q : Nat) : Bool :=
  !s.chr.eclipse && !s.integ.fenced && (if p.val < 64 then (decide (q < 6) || s.radioRuns) else !s.integ.expelled)

/-- The queues of a port in the order they are taken (R275). -/
def queueOrder (p : Fin 84) : List Nat := if p.val < 64 then [7, 6, 5, 4, 3, 2, 1, 0] else [3, 2, 1, 0]

/-- Whether a queue shares deficit round-robin: MIRROR (1) and INFERENCE (0) of a fabric port; and its quantum (R275). -/
def sharesDeficit (p : Fin 84) (q : Nat) : Bool := decide (64 ≤ p.val ∧ q ≤ 1)
def State.quantum (s : State) (q : Nat) : Nat :=
  4352 * (if q = 1 then bits (s.act 0x4031 0 0) 15 8 else bits (s.act 0x4031 0 0) 7 0)

/-- What one pass over the queues comes to: the frame to start, or the deficits it granted (R274). (DEDUCED, assumption 82) -/
def State.selectPass (s : State) (p : Fin 84) : List Nat → State × Option (Nat × Frame) × Bool
  | [] => (s, none, false)
  | q :: qs =>
    match Tab.get [] (s.port p).queues q with
    | [] => s.selectPass p qs
    | f :: _ =>
      let n := s.countedLength p f.bytes
      if s.mayTransmit p q = false ∨ s.gateFits p q n = false then s.selectPass p qs
      else if s.shaperAllows p q n = false then s.selectPass p qs
      else if sharesDeficit p q ∧ Tab.get 0 (s.port p).deficit q < n then
        let x := s.port p
        let s1 := s.setPort p { x with deficit := Tab.upd 0 x.deficit q (· + s.quantum q) }
        let r := s1.selectPass p qs
        (r.1, r.2.1, true)
      else (s, some (q, f), false)

/-- The frame a transmitter that is free starts; after a pass that only granted deficits another is made. (DESIGN CHOICE, assumption 77) -/
def State.selectFrame (s : State) (p : Fin 84) : State × Option (Nat × Frame) :=
  let r := s.selectPass p (queueOrder p)
  match r.2.1 with
  | some f => (r.1, some f)
  | none => if r.2.2 then ((r.1.selectPass p (queueOrder p)).1, (r.1.selectPass p (queueOrder p)).2.1) else (r.1, none)

/-- The radio symbol a frame carries has been sent. (DEDUCED, assumption 81) -/
def State.noteSent (s : State) (f : Frame) : State :=
  match f.origin with
  | .uplane c slot k i => s.updPlan c slot (fun p => p.setDlSym k.toNat i.toNat { p.dlSym k.toNat i.toNat with sent := true })
  | _ => s

/-- The frame before has ended, and the transmitter selects the next: it leaves its queue, is charged, protected, and starts;
a descriptor's frame ends with DONE and, when asked, its corrected egress timestamp. A frame no association can protect is
dropped and counted (R271, R274, R282, R287). The raw egress capture is the instant at the pads less the link's characterised egress
latency, with an error of at most 1.5 ns that is left open (R57, R59). -/
def effFrameSelect (p : Fin 84) (s0 : State) : State :=
  let s := (s0.setPort p { s0.port p with wire := none }).fillShapers p
  if (s.port p).state ≠ .up then s
  else
    match s.selectFrame p with
    | (s1, none) => s1
    | (s1, some (q, f)) =>
      let n := s1.countedLength p f.bytes
      let x := s1.port p
      let x1 := { x with queues := Tab.upd [] x.queues q (fun l => l.drop 1) }
      match (s1.setPort p x1).macsecTransmit p f.bytes with
      | (s2, none) =>
        let s3 := (((s2.countPort p 13).portStat p 7 1).progPort p 0x43 1 (frameClass f.bytes)).fillLost f
        match f.origin with
        | .mgmt serial _ => s3.endTx serial stRemoteTimeout 0
        | _ => s3
      | (s2, some bytes) =>
        let y := s2.port p
        let shaped := bit (s2.shaper p q) 19
        let y1 := { y with wire := some { f with bytes }, spent := if shaped then Tab.upd 0 y.spent q (fun v => spend v n) else y.spent,
                           deficit := if sharesDeficit p q then Tab.upd 0 y.deficit q (· - n) else y.deficit }
        let cls := frameClass f.bytes
        let s3 := (((((s2.setPort p y1).portStat p 0 1).portStat p 1 (bytes.length + 4)).progPort p 0x40 1 cls).progPort p 0x41 n cls).noteSent f
        match f.origin with
        | .mgmt serial timed =>
          if timed then
            let d := s3.draw
            d.2.endTx serial stDone (d.2.egressStamp p.val (d.2.egressRaw p.val d.1))
          else s3.endTx serial stDone 0
        | _ => s3

/-- FRAME_SELECT (R274). -/
def execFrameSelect (port : Fin 84) (s : State) : Host.Outcome State Fault Refusal := .next (effFrameSelect port s)

/-! ### GATE_EDGE (R280) -/

/-- The next entry of a port's list opens once its instant of the period has come, at most two cycles of the port's island ahead of it
(R28, R29); entries of Interval 0 are passed over. -/
def effGateEdge (p : Fin 84) (s : State) : State :=
  let x := s.port p
  let n := s.gateCount p
  let k := s.liveEntry p (x.gateEntry + 1) n
  if n = 0 ∨ s.chr.suspended ∨ s.periodTicks ≤ s.gateStart p k then s
  else if s.gateStart p k * 1280 ≤ s.time.intoPeriod s.periodFrames * 1000 + twoCyclesPs p then s.setPort p { x with gateEntry := k }
  else s

/-- GATE_EDGE (R280). -/
def execGateEdge (port : Fin 84) (s : State) : Host.Outcome State Fault Refusal := .next (effGateEdge port s)

/-! ### The management queue's transmit side (R269 to R271) -/

def txLength (d : Nat) : Nat := bits d 191 178
def txPort (d : Nat) : Nat := bits d 177 171
def txQueue (d : Nat) : Nat := bits d 170 168
def txStamp (d : Nat) : Bool := bit d 167
def txTag (d : Nat) : Nat := bits d 166 135

/-- The status a descriptor is refused with, if it is (R271). -/
def State.txRefusal (s : State) (d : Nat) (frame : List Byte) : Option (BitVec 8) :=
  if h : txPort d < 84 then
    let p : Fin 84 := ⟨txPort d, h⟩
    let fh := decide (p.val < 64)
    if bits d 134 0 ≠ 0 ∨ txLength d < 60 ∨ s.maxFrame p - 4 < txLength d ∨ portEnabled s.vers.active p.val = false ∨
       (if fh then 5 < txQueue d else txQueue d ≠ 0) ∨ (txStamp d && !fh) then some stInvalid
    else if etherType frame = (if fh then 0xAEFE else 0x88B5) then some stSecurity
    else none
  else some stInvalid

/-- A transmit descriptor and its frame have been fetched: refused, or queued on its port (R270, R271, R273). -/
def effMgmtTxDescriptor (descriptor : BitVec 256) (frame : List Byte) (s : State) : State :=
  let d := descriptor.toNat
  let q := s.mgmt
  if s.obj 0x6040 8 0 ≠ 1 ∨ s.linkUp = false ∨ s.integ.fenced ∨ q.txFetched = q.txCount then s
  else
    let f := frame.take (txLength d)
    let o : TxOpen := { serial := q.nextTx, port := BitVec.ofNat 7 (txPort d), tag := BitVec.ofNat 32 (txTag d) }
    let s1 := { s with mgmt := { q with txFetched := q.txFetched + 1, nextTx := q.nextTx + 1, txOpen := q.txOpen ++ [o] } }
    match s.txRefusal d f with
    | some st => s1.endTx q.nextTx st 0
    | none =>
      let p : Fin 84 := ⟨txPort d % 84, by omega⟩
      s1.enqueue p (if p.val < 64 then txQueue d else 2) f (.mgmt q.nextTx (txStamp d))

/-- MGMT_TX_DESCRIPTOR (R271). -/
def execMgmtTxDescriptor (descriptor : BitVec 256) (frame : List Byte) (s : State) : Host.Outcome State Fault Refusal :=
  .next (effMgmtTxDescriptor descriptor frame s)

/-- The serial of a descriptor's frame. -/
def Frame.serial (f : Frame) : Option Nat := match f.origin with | .mgmt n _ => some n | _ => none

/-- The oldest descriptor that has waited on a port for 100 ms was not sent in time (R271). -/
def effMgmtTxTimeout (p : Fin 84) (s : State) : State :=
  let x := s.port p
  let late := fun (f : Frame) => decide (f.queuedAt + 100000000 ≤ s.ns)
  let waiting := x.queues.flatMap (fun q => (q.2.filter late).filterMap Frame.serial)
  match s.mgmt.txOpen.find? (fun o => waiting.contains o.serial) with
  | none => s
  | some o =>
    let s1 := s.setPort p { x with queues := Tab.mapAll [] (fun _ q => q.filter (fun f => f.serial ≠ some o.serial)) x.queues }
    s1.endTx o.serial stRemoteTimeout 0

/-- MGMT_TX_TIMEOUT (R271). -/
def execMgmtTxTimeout (port : Fin 84) (s : State) : Host.Outcome State Fault Refusal := .next (effMgmtTxTimeout port s)

/-- A write of MgmtEnable: setting it to 1 sets the device's own counts to zero (R269). A value above 1 is refused. -/
def State.writeMgmtEnable (s : State) (v : Nat) : State × BitVec 8 :=
  if 1 < v then (s, rsRange)
  else
    let q := s.mgmt
    let s1 := if v = 1 ∧ s.obj 0x6040 8 0 = 0 then
      { s with mgmt := { q with rxWritten := 0, rxConsumed := 0, overflow := false, txCount := 0, txFetched := 0 } } else s
    (s1.setObj 0x6040 8 0 v, rsNone)

/-- MGMT_ENABLE_WRITE (R269). -/
def execMgmtEnableWrite (value : BitVec 8) (s : State) : Host.Outcome State Fault Refusal := .next (s.writeMgmtEnable value.toNat).1

/-! ### MACSEC_SAK_INSTALL (R286) -/

/-- Install a secure association key, or refuse a record whose fields are out of range. -/
def State.installSak (s : State) (r : Nat) : State × BitVec 8 :=
  if h : bits r 511 505 < 84 then
    let p : Fin 84 := ⟨bits r 511 505, h⟩
    let sc := bits r 504 500
    if 16 < sc ∨ bits r 496 480 ≠ 0 ∨ bits r 31 0 ≠ 0 ∨ bits r 95 32 = 0 then (s, rsRange)
    else
      let key256 := bit r 497
      let key := if key256 then bits r 479 224 else bits r 479 352
      let a : SecureAssoc := { installed := true, key256, key := BitVec.ofNat 256 key, salt := BitVec.ofNat 96 (bits r 223 128),
                               ssci := BitVec.ofNat 32 (bits r 127 96), pn := BitVec.ofNat 64 (bits r 95 32) }
      (s.setPort p ((s.port p).setSa sc (bits r 499 498) a), rsNone)
  else (s, rsRange)

/-- MACSEC_SAK_INSTALL (R286). -/
def execMacsecSakInstall (record : BitVec 512) (s : State) : Host.Outcome State Fault Refusal := .next (s.installSak record.toNat).1

end Sys2Proof.Machine
end

