-- ==== Sys2Proof/Machine/Dictionary.lean ====
section
/-!
DEFINITION. The object dictionary: requests, their checks, what a READ returns, what a WRITE stores or commands, and the status block
(R18, R367 to R378, R445, R474).
-/

namespace Sys2Proof.Machine

/-! ### The request block (R368) -/

def rqOpcode (r : Nat) : Nat := bits r 511 504
def rqCopy (r : Nat) : Nat := bits r 503 502
def rqIndirect (r : Nat) : Bool := bit r 501
def rqIndex (r : Nat) : Nat := bits r 495 480
def rqSub (r : Nat) : Nat := bits r 479 472
def rqSequence (r : Nat) : Nat := bits r 463 448
def rqOffset (r : Nat) : Nat := bits r 447 416
def rqLength (r : Nat) : Nat := bits r 415 384
def rqAddress (r : Nat) : Nat := bits r 383 320

/-- What a request is answered with (R369): its Reason, the status where it is not the Reason's own, sizes, and the bytes read. -/
structure Answer where
  reason : BitVec 8 := 0
  status : Option (BitVec 8) := none
  total : Nat := 0
  returned : Nat := 0
  data : List Byte := []
deriving DecidableEq, Repr

/-- A refusal. -/
def refuse (reason : BitVec 8) : Answer := { reason }

/-- The status an answer carries (R375). -/
def Answer.statusCode (a : Answer) : BitVec 8 := a.status.getD (statusOfReason a.reason)

/-! ### Requesters (R18, R349, R367) -/

/-- The instance that asks, if one does. -/
def askingInst : Requester → Option InstanceId
  | .vf n => some n
  | _ => none

/-- The place of a requester's window or session among the status blocks. -/
def windowKey : Requester → Nat
  | .pf => 0
  | .vf n => 1 + n.toNat
  | .keeper k => 1025 + k.toNat

/-- The function a requester's indirect data belongs to. -/
def requesterSource : Requester → Source
  | .vf n => .inst n
  | _ => .provider

/-- Whether a requester's path reaches the module: the host link for a window, of a virtual function that is enabled; an open session
on a keeper line that is UP (R349, R357, R365, R390). (DEDUCED, assumption 108) -/
def State.reaches (s : State) : Requester → Bool
  | .pf => s.linkUp && !s.ideBlocked
  | .vf n => s.linkUp && !s.ideBlocked && s.host.vfEnable && decide (n.toNat < s.host.numVFs.toNat)
  | .keeper k => s.keeper.phase == .up && (Tab.get {} s.keeper.sessions k.toNat).phase == .opened

/-- Whether the control cores serve requests (R390, R423, R440). -/
def State.serving (s : State) : Bool := s.host.hostReady && !s.integ.firmwareLost

/-- The objects that recovery serves (R436). -/
def recoveryObject (index : Nat) : Bool := [0x1000, 0x1001, 0x1020, 0xB010, 0xB011, 0xB012].contains index

/-! ### Checks of a request (R367 to R376) -/

/-- The most bytes inline data may have (R372). -/
def inlineLimit : Requester → Nat
  | .keeper _ => 1024
  | _ => 3968

/-- Whether a keeper session asks. -/
def ofSession : Requester → Bool
  | .keeper _ => true
  | _ => false

/-- A fault of the request block itself. (DEDUCED, assumption 106) -/
def blockFault (who : Requester) (r : Nat) : BitVec 8 :=
  if bits r 500 496 ≠ 0 ∨ bits r 471 464 ≠ 0 ∨ bits r 319 0 ≠ 0 then rsSize
  else if (rqOpcode r ≠ 1 ∧ rqOpcode r ≠ 2) ∨ rqCopy r = 3 then rsRange
  else if rqIndirect r then
    (if ofSession who ∨ rqAddress r % 64 ≠ 0 ∨ 16 * 2 ^ 20 < rqLength r then rsSize else rsNone)
  else if inlineLimit who < rqLength r then rsSize
  else rsNone

/-- Whether an object's class admits a requester. -/
def ObjInfo.admits (o : ObjInfo) : Requester → Bool
  | .vf _ => o.who != .admin
  | _ => true

/-- Who may ask for an object, in which copy, and when (R18, R355, R376, R382). -/
def State.accessFault (s : State) (who : Requester) (r : Nat) (o : ObjInfo) : BitVec 8 :=
  let read : Bool := rqOpcode r == 1
  let stuck : Bool :=
    match who with
    | .vf n => ((s.inst n).life == .resetting || (s.inst n).life == .resetStalled) && !(read && (o.index == 0x9001 || o.index == 0x9003))
    | _ => false
  let pfOnly : Bool := !read && (o.index == 0xB030 || o.index == 0xE003) && who != .pf
  if stuck then rsState
  else if o.admits who = false ∨ pfOnly then rsAccess
  else if (read && o.cls == .wo) || (!read && (o.cls == .const || o.cls == .ro)) then rsAccess
  else if !read && (rqCopy r != (if o.cls == .stage then 1 else 0)) then rsAccess
  else if read && o.cls != .stage && rqCopy r != 0 then rsRange
  else if read && rqCopy r == 2 && !s.vers.previousValid then rsState
  else if !read && o.cls == .stage && s.vers.phase == .pending then rsState
  else rsNone

/-- The version a copy names. -/
def Versions.copy (v : Versions) (k : Nat) : Tab Nat := if k = 0 then v.active else if k = 1 then v.staging else v.previous

/-- The records a table holds, or 1 (R374). -/
def State.objectCount (s : State) (who : Option InstanceId) (o : ObjInfo) (sub copy : Nat) : Nat :=
  match o.cls with
  | .stage => recordsIn (s.vers.copy copy) o sub
  | .rw => if o.index = 0x8020 then s.obj 0x8021 0 0 else match o.type with | .table _ most => most | _ => 1
  | _ => s.publishedCount who o

/-- TotalSize: the size of the object in the copy at hand (R369). -/
def State.objectSize (s : State) (who : Option InstanceId) (o : ObjInfo) (sub copy : Nat) : Nat :=
  match s.textOf o.index sub with
  | some t => t.length
  | none => match o.type with
    | .table rec _ => rec * s.objectCount who o sub copy
    | _ => o.unit

/-- Whether a span reaches bytes outside an instance's own record (R376). -/
def foreignSpan (who : Requester) (o : ObjInfo) (offset length : Nat) : Bool :=
  match who with
  | .vf n => o.who == .ownRecord && decide (0 < length ∧ (offset < n.toNat * o.unit ∨ (n.toNat + 1) * o.unit < offset + length))
  | _ => false

/-- Whether a READ's offset and length suit the object (R374). -/
def readFits (o : ObjInfo) (total offset length : Nat) : Bool :=
  match o.type with
  | .number _ | .pair _ => offset == 0 && (length == 0 || length == total)
  | _ => decide (offset ≤ total)

/-- Whether a WRITE's offset and length suit the object (R374). -/
def writeFits (o : ObjInfo) (offset length : Nat) : Bool :=
  match o.type with
  | .number n => offset == 0 && length == n
  | .pair n => offset == 0 && length == 2 * n
  | .text => offset == 0 && decide (1 ≤ length ∧ length ≤ 255)
  | .blob n => offset == 0 && length == n
  | .table rec most => offset % rec == 0 && length % rec == 0 && decide (offset + length ≤ rec * most)

/-! ### Reads (R374, R376, R377) -/

/-- The control of a programmable counter as it was last written. -/
def State.controlWritten (s : State) (i : Nat) : Nat :=
  match Tab.get none s.ctrs.waiting i with
  | some r => r.toNat
  | none => s.ctrs.controlOf i

/-- The value of one record. -/
def State.objectRecord (s : State) (who : Option InstanceId) (o : ObjInfo) (sub copy i : Nat) : Nat :=
  match o.cls with
  | .stage => getRec (s.vers.copy copy) o.index sub i
  | .rw =>
    if o.index = 0xD010 then s.controlWritten i
    else if o.index = 0xA051 then setBits (s.obj 0xA051 0 i) 13 6 (Tab.get {} s.insts i).lateRun.toNat
    else s.obj o.index sub i
  | _ => s.published who o.index sub i

/-- A span of an object's bytes. -/
def State.objectBytes (s : State) (who : Option InstanceId) (o : ObjInfo) (sub copy offset length : Nat) : List Byte :=
  match s.textOf o.index sub with
  | some t => (t.drop offset).take length
  | none =>
    let u := o.unit
    let bytes := (List.range (ceilDiv (offset % u + length) u)).flatMap (fun k => leBytes u (s.objectRecord who o sub copy (offset / u + k)))
    (bytes.drop (offset % u)).take length

/-- A value followed by its complement. -/
def pairBytes (n v : Nat) : List Byte := leBytes n v ++ leBytes n (compl (8 * n) v)

/-- A READ of a pair: its bytes, served from a fallback or refused with PAIR, with the event of a mismatch (R51, R377, R403). -/
def State.readPair (s : State) (o : ObjInfo) : State × Option (List Byte) :=
  let number := fun (q : NumberRead) =>
    match q with
    | .good n => (s, some (pairBytes 4 n.toNat))
    | .fallback n =>
      (({ s with vers := { s.vers with stats := Tab.upd 0 s.vers.stats 3 (· + 1) } }).noteNumber q, some (pairBytes 4 n.toNat))
    | .fault => (s.noteNumber q, none)
  match o.index with
  | 0x1008 => number s.vers.activeRead
  | 0x1009 => number s.vers.previousRead
  | 0x100C => number s.vers.stagingRead
  | _ => (s.sweepIncrement, some (pairBytes 8 s.time.increment.1))

/-- A READ that has passed the checks of the request (R374). -/
def State.readObject (s : State) (who : Requester) (o : ObjInfo) (r : Nat) : State × Answer :=
  let n := (askingInst who)
  let total := s.objectSize n o (rqSub r) (rqCopy r)
  let length := min (rqLength r) (total - rqOffset r)
  if o.index = 0x9040 ∧ (s.inst (BitVec.ofNat 10 (s.obj 0x9040 1 0))).life ≠ .quiesced then (s, refuse rsState)
  else if readFits o total (rqOffset r) (rqLength r) = false then (s, refuse rsSize)
  else if foreignSpan who o (rqOffset r) length then (s, refuse rsAccess)
  else
    match o.type with
    | .pair _ =>
      let q := s.readPair o
      (match q.2 with
       | some bytes => (q.1, { total, returned := length, data := bytes.take length })
       | none => (q.1, refuse rsPair))
    | _ => (s, { total, returned := length, data := s.objectBytes n o (rqSub r) (rqCopy r) (rqOffset r) length })

/-! ### Writes to RW objects (R376, R387) -/

/-- Whether a control of a programmable counter names an event of the counter's host with filters that the event supports (R452). -/
def controlGood (i r : Nat) : Bool :=
  let e := pcEvent r
  let kind := pcRequesterKind r
  let owned := kind == 0 || (kind == 1 && decide (pcRequester r < 64)) || kind == 3
  let plain := pcAddressFilter r == false
  bits r 222 192 == 0 && bits r 95 0 == 0 && decide (pcPrivilege r ≠ 3) &&
  (if e = 0 then !pcEnable r
   else if i < 256 then
     (decide (1 ≤ e ∧ e ≤ 5) && owned && plain) || (decide (6 ≤ e ∧ e ≤ 8) && owned) ||
     (e == 9 && pcPrivilege r == 0 && decide (kind ≤ 1) && owned && plain)
   else if i < 288 then (e == 0x20 && owned) || (e == 0x21 && owned && plain)
   else decide (0x40 ≤ e ∧ e ≤ 0x43) && pcPrivilege r == 0 && kind == 0 && plain)

/-- A write of a control record waits for the next period boundary (R451). -/
def State.writeControl (s : State) (i r : Nat) : State × BitVec 8 :=
  if controlGood i r = false then (s, rsRange)
  else ({ s with ctrs := { s.ctrs with waiting := Tab.set none s.ctrs.waiting i (some (BitVec.ofNat 256 r)) } }, rsNone)

/-- Every session of the keeper line ends. -/
def State.endSessions (s : State) : State := { s with keeper := { s.keeper with sessions := [] } }

/-- A write of a plan ring's record (R213): Base and Order are kept while Enable is 1; an order of 0 stands only in a disabled record. -/
def State.writePlanRing (s : State) (i v : Nat) : State × BitVec 8 :=
  let old := s.obj 0x5010 0 i
  let order := bits v 63 60
  if bits v 58 0 ≠ 0 ∨ bits v 127 64 % 8192 ≠ 0 ∨ 10 < order ∨ (order < 2 ∧ ¬ (order = 0 ∧ bit v 59 = false)) then (s, rsRange)
  else if bit old 59 ∧ v >>> 60 ≠ old >>> 60 then (s, rsState)
  else (s.setObj 0x5010 0 i v, rsNone)

/-- A write of a region's export (R335). -/
def State.writeExport (s : State) (i v : Nat) : State × BitVec 8 :=
  if i = 0xFFF ∧ bit v 63 then (s, rsRange)
  else if bit v 63 ∧ 2 ^ 36 < regBytes (regionOf s.vers.active (bits v 62 51)) then (s, rsState)
  else (s.setObj 0x8030 0 i v, rsNone)

/-- A write of a straggler watch: the run of late batches is the device's, and a write of TargetUs zeroes it (R417, R418). -/
def State.writeWatch (s : State) (i v : Nat) : State × BitVec 8 :=
  let n : InstanceId := BitVec.ofNat 10 i
  let s1 := s.setObj 0xA051 0 i (setBits v 13 6 0)
  (if bits v 63 32 = bits (s.obj 0xA051 0 i) 63 32 then s1 else s1.setInst n { s1.inst n with lateRun := 0 }, rsNone)

/-- A write of EventEnable: setting it to 1 starts the ring's counts from zero, as for the management queue (R269, R399).
(DEDUCED, assumption 121) -/
def State.writeEventEnable (s : State) (v : Nat) : State :=
  let s1 := s.setObj 0xA010 4 0 v
  if v = 1 ∧ s.obj 0xA010 4 0 = 0 then { s1 with integ := { s1.integ with ringWritten := 0, ringConsumed := 0, overflow := false } } else s1

/-- A write of SynceSource: the output carries the selected link's clock where it is UP (R61). -/
def State.writeSynce (s : State) (v : Nat) : State :=
  { s.setObj 0x2030 0 0 v with links := { s.links with synceLocked := decide (v < 64) && (s.port (linkPort v)).state == .up } }

/-- Whether a link-local address or none stands in 16 bytes, the first byte lowest (R395). -/
def gatewayGood (v : Nat) : Bool := v == 0 || (bits v 7 0 == 0xFE && bits v 15 14 == 2)

/-- One record of an RW object written (R376, R474); the fields' own ranges have been checked. -/
def State.writeRecord (s : State) (index sub i v : Nat) : State × BitVec 8 :=
  let plain := (s.setObj index sub i v, rsNone)
  match index with
  | 0x2030 => (s.writeSynce v, rsNone)
  | 0x3021 => s.writeInstanceRing (BitVec.ofNat 10 i) v
  | 0x3024 => s.writeProviderRing v
  | 0x5010 => s.writePlanRing i v
  | 0x6040 => if sub = 8 then s.writeMgmtEnable v
              else if sub ≤ 6 ∧ s.obj 0x6040 8 0 = 1 then (s, rsState) else plain
  | 0x8020 => if bits v 111 96 < bits v 127 112 then (s, rsRange) else plain
  | 0x8030 => s.writeExport i v
  | 0x9030 => s.writeDirtyLog i v
  | 0xA010 => if sub = 4 then (s.writeEventEnable v, rsNone)
              else if sub ≤ 3 ∧ s.obj 0xA010 4 0 = 1 then (s, rsState) else plain
  | 0xA051 => s.writeWatch i v
  | 0xA061 => if sub = 2 ∧ v ≠ 0 ∧ bits v 1087 1080 ≠ i then (s, rsRange) else plain
  | 0xC001 => if s.obj 0xC002 0 0 < v then (s, rsRange) else plain
  | 0xC002 => if v < s.obj 0xC001 0 0 then (s, rsRange) else plain
  | 0xD010 => s.writeControl i v
  | 0xE003 => (if v = 0 then plain.1 else plain.1.endSessions, rsNone)
  | 0xE011 => if gatewayGood v then plain else (s, rsRange)
  | _ => plain

/-- The records of a write, in order: each number with its value. -/
def recordsOf (unit first : Nat) (data : List Byte) : List (Nat × Nat) :=
  (List.range (data.length / unit)).map (fun k => (first + k, ofLeBytes ((data.drop (unit * k)).take unit)))

/-- The records written one after another; the first that is refused refuses them all. -/
def State.writeRecords (s : State) (index sub : Nat) : List (Nat × Nat) → State × BitVec 8
  | [] => (s, rsNone)
  | q :: qs =>
    let a := s.writeRecord index sub q.1 q.2
    if a.2 ≠ rsNone then (s, a.2) else a.1.writeRecords index sub qs

/-- Two grants with Owner = 1 cover the same module and region (R333). (DEDUCED, assumption 117) -/
def State.grantsClash (s : State) : Bool :=
  let gs := ((List.range (s.obj 0x8021 0 0)).map (fun i => (i, s.obj 0x8020 0 i))).filter (fun q => bit q.2 71)
  gs.any (fun a => gs.any (fun b => decide (a.1 < b.1 ∧ bits a.2 95 84 = bits b.2 95 84 ∧ bits a.2 127 112 ≤ bits b.2 111 96 ∧
    bits b.2 127 112 ≤ bits a.2 111 96)))

/-- A WRITE of an RW object: its records, the rules that relate them, and the settings records of a persistent object. -/
def State.writeRw (s : State) (o : ObjInfo) (sub offset : Nat) (data : List Byte) (flashGood : Bool) : State × BitVec 8 :=
  match o.type with
  | .pair n => s.writeIncrement (BitVec.ofNat 64 (ofLeBytes (data.take n))) (BitVec.ofNat 64 (ofLeBytes (data.drop n)))
  | _ =>
    let a := s.writeRecords o.index sub (recordsOf o.unit (offset / o.unit) data)
    if a.2 ≠ rsNone then (s, a.2)
    else if (o.index = 0x8020 ∨ o.index = 0x8021) ∧ a.1.grantsClash then (s, rsState)
    else if persistentObject o.index then s.persist a.1 flashGood
    else if o.index = 0xA004 then (a.1.reflagParts, rsNone)
    else a

/-! ### Writes to STAGE objects (R376, R379) -/

/-- The staging copy with records written. -/
def State.writeStage (s : State) (o : ObjInfo) (sub offset : Nat) (data : List Byte) : State :=
  let staging := (recordsOf o.unit (offset / o.unit) data).foldl (fun t q => setRec t o.index sub q.1 q.2) s.vers.staging
  { s with vers := { s.vers with staging } }

/-! ### Commands (WO) -/

/-- A write of ConfigCommand (R381). -/
def State.configCommand (s : State) (v : Nat) (flashGood : Bool) : State × BitVec 8 :=
  let n : W32 := BitVec.ofNat 32 v
  if bits v 55 32 ≠ 0 then (s, rsRange)
  else match bits v 63 56 with
    | 1 => s.commitVersion n
    | 2 => s.revertVersion n
    | 3 => s.confirmVersion n flashGood
    | _ => (s, rsRange)

/-- A write of InstanceCommand (R353). -/
def State.instanceCommand (s : State) (v : Nat) : State × BitVec 8 :=
  let n : InstanceId := BitVec.ofNat 10 v
  match bits v 31 24 with
  | 1 => (s.resetInst n, rsNone)
  | 2 => s.quiesceInst n
  | _ => s.resumeInst n

/-- A write of InstanceImport: the whole table, whose HEADER names the instance (R362). -/
def State.importTable (s : State) (offset : Nat) (data : List Byte) : State × BitVec 8 :=
  let rs := (recordsOf 64 0 data).map (fun q => BitVec.ofNat 512 q.2)
  if offset ≠ 0 then (s, rsState) else s.importInst (BitVec.ofNat 10 (bits ((rs.headD 0).toNat) 467 458)) rs

/-- A write of SnapshotNow (R455). -/
def State.requestSnapshot (s : State) (value : Nat) : State × BitVec 8 :=
  if value ≠ 1 then (s, rsRange) else ({ s with ctrs := { s.ctrs with snapRequested := true } }, rsNone)

/-- A write of MirrorRestart (R342). -/
def State.restartMirror (s : State) (v : Nat) : State × BitVec 8 :=
  if s.act 0x8041 0 0 ≤ v then (s, rsRange) else (effMirrorRestart (BitVec.ofNat 16 v) s, rsNone)

/-- A WRITE of a WO object. -/
def State.command (s : State) (index offset : Nat) (data : List Byte) (flashGood : Bool) : State × BitVec 8 :=
  let v := ofLeBytes data
  match index with
  | 0x100A => s.configCommand v flashGood
  | 0x100B => s.resetStaging (BitVec.ofNat 8 v)
  | 0x1020 => s.orderReset v
  | 0x2002 => s.writePhaseStep (BitVec.ofNat 64 v)
  | 0x2006 => s.writeTimeSet (BitVec.ofNat 96 v)
  | 0x6052 => s.installSak v
  | 0x8043 => s.restartMirror v
  | 0x9002 => s.instanceCommand v
  | 0x9031 => s.harvestLog v
  | 0x9041 => s.importTable offset data
  | 0xA034 => s.clearQuarantine (BitVec.ofNat 16 v)
  | 0xA060 => s.managerOrder data flashGood
  | 0xA063 => s.applyKeys (BitVec.ofNat 8 v) flashGood
  | 0xB011 => s.writeImage offset data
  | 0xB012 => s.firmwareCommand (bits v 63 56)
  | 0xB020 => s.writeIntegratorDigest (BitVec.ofNat 512 v)
  | _ => s.requestSnapshot v

/-! ### Writes (R374 to R376) -/

/-- The Reason of the first record that breaks a field's range, a reserved bit, or its complement. -/
def writtenReason (o : ObjInfo) (offset : Nat) (data : List Byte) : BitVec 8 :=
  match ((recordsOf o.unit (offset / o.unit) data).map (fun q => o.recordReason q.2)).find? (fun x => x != rsNone) with
  | some x => x
  | none => rsNone

/-- A WRITE that has passed the checks of the request. -/
def State.writeObject (s : State) (who : Requester) (o : ObjInfo) (r : Nat) (data : List Byte) (flashGood : Bool) : State × Answer :=
  let n := (askingInst who)
  let bytes := (data ++ List.replicate (rqLength r) 0).take (rqLength r)
  let checked := if o.type matches .pair _ then rsNone else writtenReason o (rqOffset r) bytes
  if rqLength r = 0 ∧ o.cls ≠ .wo then (s, { total := s.objectSize n o (rqSub r) (rqCopy r) })
  else if writeFits o (rqOffset r) (rqLength r) = false ∨ rqLength r = 0 then (s, refuse rsSize)
  else if foreignSpan who o (rqOffset r) (rqLength r) then (s, refuse rsAccess)
  else if checked ≠ rsNone then (s, refuse checked)
  else
    let q := match o.cls with
      | .stage => (s.writeStage o (rqSub r) (rqOffset r) bytes, rsNone)
      | .rw => s.writeRw o (rqSub r) (rqOffset r) bytes flashGood
      | _ => s.command o.index (rqOffset r) bytes flashGood
    if q.2 ≠ rsNone then (q.1, refuse q.2)
    else (q.1, { total := if o.cls = .wo then o.unit * (match o.type with | .table _ most => most | _ => 1)
                          else q.1.objectSize n o (rqSub r) (rqCopy r), returned := rqLength r })

/-! ### Service (R367, R371, R372) -/

/-- A request served: every check, then the object; indirect data that could not be moved refuses it with Reason DMA, and a write is
then not applied. -/
def State.serveRequest (s : State) (who : Requester) (r : Nat) (data : List Byte) (dma : ReadResult) (flashGood : Bool) : State × Answer :=
  let block := blockFault who r
  if block ≠ rsNone then (s, refuse block)
  else if s.start.recovery ∧ (who ≠ .pf ∨ recoveryObject (rqIndex r) = false) then (s, refuse rsNoObject)
  else
    match findObject (rqIndex r) (rqSub r) with
    | none => (s, refuse rsNoObject)
    | some o =>
      let access := s.accessFault who r o
      if access ≠ rsNone then (s, refuse access)
      else if rqIndirect r ∧ dma ≠ .good ∧ rqLength r ≠ 0 then (s, { reason := rsDma, status := some (statusOfRead dma) })
      else if rqOpcode r = 1 then s.readObject who o r
      else s.writeObject who o r data flashGood

/-- Count a request, and whether it was refused (0x1014). -/
def State.countRequest (s : State) (refused : Bool) : State :=
  let t := Tab.upd 0 s.vers.stats 0 (· + 1)
  { s with vers := { s.vers with stats := if refused then Tab.upd 0 t 1 (· + 1) else t } }

/-- The status block and the data area after a request (R369, R371). -/
def State.answerWindow (s : State) (who : Requester) (sequence : W16) (a : Answer) (inline' : Bool) : State :=
  let k := windowKey who
  let w := Tab.get {} s.host.windows k
  let w1 : DictWindow :=
    { sequence, state := 2, status := a.statusCode, reason := a.reason, total := BitVec.ofNat 32 a.total, returned := BitVec.ofNat 32 a.returned,
      data := if inline' then a.data ++ w.data.drop a.data.length else w.data }
  { s with host := { s.host with windows := Tab.set {} s.host.windows k w1 } }

/-- A start while nothing is served: the window stays BUSY, and a further start is discarded and counted (R371). -/
def State.startUnserved (s : State) (who : Requester) (sequence : W16) : State :=
  let k := windowKey who
  let w := Tab.get {} s.host.windows k
  if w.state = 1 then { s with vers := { s.vers with stats := Tab.upd 0 s.vers.stats 2 (· + 1) } }
  else
    let w1 : DictWindow := { w with sequence, state := 1, status := 0, reason := 0, total := 0, returned := 0 }
    { s with host := { s.host with windows := Tab.set {} s.host.windows k w1 } }

/-- A request of a function's window, from its start to DONE. -/
def State.windowRequest (s : State) (who : Requester) (r : Nat) (data : List Byte) (dma : ReadResult) (flashGood : Bool) : State :=
  let sequence : W16 := BitVec.ofNat 16 (rqSequence r)
  if s.reaches who = false then s
  else if s.serving = false then s.startUnserved who sequence
  else
    let q := s.serveRequest who r data dma flashGood
    let s1 := q.1.countRequest (q.2.reason != rsNone)
    let moved : Bool := rqIndirect r && rqOpcode r == 1 && q.2.reason == rsNone && !q.2.data.isEmpty
    let src := requesterSource who
    let s2 := if moved then s1.post { source := src, address := BitVec.ofNat 64 (rqAddress r), bytes := q.2.data,
                                      generation := s1.generationOf src, purpose := .dictionary } else s1
    s2.answerWindow who sequence q.2 (!rqIndirect r)

/-! ### Requests of keeper sessions (R372, R392 to R394) -/

/-- The status block of an answer (R369). -/
def Answer.block (a : Answer) (sequence : W16) : Nat :=
  sequence.toNat * 2 ^ 112 + 2 * 2 ^ 110 + a.statusCode.toNat * 2 ^ 96 + a.reason.toNat * 2 ^ 88 + (a.total % 2 ^ 32) * 2 ^ 32 +
  a.returned % 2 ^ 32

/-- A secured request: served when its Sequence is the first of the session or one more than the last, answered again from the kept
response when it is equal, dropped and counted otherwise (R394). -/
def State.securedRequest (s : State) (k : BitVec 2) (r : Nat) (data : List Byte) (flashGood : Bool) : State :=
  if s.reaches (.keeper k) = false then s
  else if s.serving = false then s.keeperStat 3
  else
    let sequence : W16 := BitVec.ofNat 16 (rqSequence r)
    let s0 := s.setSession k { s.session k with lastValid := s.time.ticks }
    let x := s0.session k
    if x.anyRequest ∧ sequence = x.lastSequence then
      (s0.keeperStat 5).sendSecured x x.response
    else if x.anyRequest ∧ wrapDiff 16 x.lastSequence.toNat sequence.toNat ≠ some 1 then s0.keeperStat 3
    else
      let q := s0.serveRequest (.keeper k) r data .good flashGood
      let s1 := q.1.countRequest (q.2.reason != rsNone)
      let response := leBytes 16 (q.2.block sequence) ++ q.2.data
      let y := s1.session k
      let s2 := if y.phase = .opened then s1.setSession k { y with anyRequest := true, lastSequence := sequence, response } else s1
      s2.sendSecured x response

/-- A request of any requester. A request whose Opcode is the other row's is no command of the row. (DEDUCED, assumption 107) -/
def effRequest (who : Requester) (opcode : Nat) (r : Nat) (data : List Byte) (dma : ReadResult) (flashGood : Bool) (s : State) : State :=
  if (rqOpcode r = 1 ∨ rqOpcode r = 2) ∧ rqOpcode r ≠ opcode then s
  else match who with
    | .keeper k => s.securedRequest k r data flashGood
    | _ => s.windowRequest who r data dma flashGood

/-- DICTIONARY_READ (R376). -/
def execDictionaryRead (requester : Requester) (request : BitVec 512) (dma : ReadResult) (s : State) : Host.Outcome State Fault Refusal :=
  .next (effRequest requester 1 request.toNat [] dma true s)

/-- DICTIONARY_WRITE (R376). -/
def execDictionaryWrite (requester : Requester) (request : BitVec 512) (data : List Byte) (dma : ReadResult) (flashGood : Bool) (s : State) :
    Host.Outcome State Fault Refusal :=
  .next (effRequest requester 2 request.toNat data dma flashGood s)

/-- INSTANCE_EXPORT (R361): a READ of InstanceExport through the physical function's window. -/
def execInstanceExport (offset length : BitVec 32) (s : State) : Host.Outcome State Fault Refusal :=
  .next (s.windowRequest .pf (1 * 2 ^ 504 + 0x9040 * 2 ^ 480 + (Tab.get {} s.host.windows 0).sequence.toNat * 2 ^ 448 +
    offset.toNat * 2 ^ 416 + length.toNat * 2 ^ 384) [] .good true)

end Sys2Proof.Machine
end

