-- ==== Sys2Proof/Machine/FarTier.lean ====
section
/-!
DEFINITION. Failures of the far tier (R313).
-/

namespace Sys2Proof.Machine

/-- The module address an access of kind 1, or of kind 2 to this module's own regions, reaches. -/
def State.accessAddress (s : State) (kind : BitVec 2) (a : W64) (bytes : Nat) : Option Nat :=
  if kind = 1 then some a.toNat
  else if kind = 2 ∧ gaModule a.toNat = s.moduleId then s.ownAddress a.toNat bytes
  else none

/-- Whether an access lies on a far port. -/
def State.onFarPort (s : State) (p : Fin 2) (kind : BitVec 2) (a : W64) (bytes : Nat) : Bool :=
  match s.accessAddress kind a bytes with
  | some x => s.farPortOf x == some p
  | none => false

/-- The reads of a context in flight at a far port, as (kind, source, tick of issue), and its writes likewise. -/
def State.farReads (s : State) (p : Fin 2) (k : EngineContext) : List (BitVec 2 × W64 × Nat) :=
  (k.runs.flatMap (fun r => r.fetching.filter (fun f => f.arrived.isNone && s.onFarPort p f.kind f.source f.bytes))).map
    (fun f => (f.kind, f.source, f.issuedAt))
def State.farWrites (s : State) (p : Fin 2) (k : EngineContext) : List (BitVec 2 × W64 × Nat) :=
  (k.runs.flatMap (fun r => r.writing.filter (fun w => s.onFarPort p w.kind w.target w.bytes))).map (fun w => (w.kind, w.target, w.issuedAt))

/-- Lines that end DATA_LOST carry no data. -/
def lostLine : List Byte := List.replicate 64 0xFF

/-- Whether an access in flight is to an address and has not completed within FarTimeout (0x7042, in microseconds). -/
def State.farOverdue (s : State) (address : W64) (q : BitVec 2 × W64 × Nat) : Bool :=
  q.2.1 == address && s.elapsed q.2.2 (s.act 0x7042 0 0)

/-- An access that has not completed within FarTimeout completes DATA_LOST; the completion of a read may still come. -/
def effFarTimeout (p : Fin 2) (e : EngineId) (c : ContextId) (write : Bool) (address : W64) (s : State) : State :=
  let k := s.ectx e c
  if write then
    match (s.farWrites p k).find? (s.farOverdue address) with
    | none => s
    | some q => s.ackTarget e c q.1 address stDataLost
  else
    match (s.farReads p k).find? (s.farOverdue address) with
    | none => s
    | some q =>
      let s1 := s.landSource e c q.1 address stDataLost lostLine
      { s1 with mem := { s1.mem with farPorts := Tab.upd {} s1.mem.farPorts p.val (fun x => { x with owed := x.owed + 1 }) } }

/-- FAR_TIMEOUT (R313). -/
def execFarTimeout (port : Fin 2) (engine : EngineId) (context : ContextId) (write : Bool) (address : BitVec 64) (s : State) :
    Host.Outcome State Fault Refusal := .next (effFarTimeout port engine context write address s)

/-- The accesses of one context in flight at a port complete DATA_LOST. (DEDUCED, assumption 89) -/
def State.endFar (s : State) (p : Fin 2) (e : EngineId) (c : ContextId) : State :=
  let k := s.ectx e c
  let s1 := (s.farReads p k).foldl (fun s q => s.landSource e c q.1 q.2.1 stDataLost lostLine) s
  (s.farWrites p k).foldl (fun s q => s.ackTarget e c q.1 q.2.1 stDataLost) s1

/-- A port goes DOWN, and stays so until the next start-up: its accesses in flight complete at once. -/
def effFarPortDown (p : Fin 2) (s : State) : State :=
  if (Tab.get {} s.mem.farPorts p.val).state ≠ .up then s
  else
    let at' := s.engines.flatMap (fun q => q.2.contexts.map (fun c => (q.1, c.1)))
    let s1 := at'.foldl (fun s q => s.endFar p (BitVec.ofNat 6 q.1) (BitVec.ofNat 10 q.2)) s
    { s1 with mem := { s1.mem with farPorts := Tab.upd {} s1.mem.farPorts p.val (fun x => { x with state := .down, owed := 0 }) } }.raise
      { area := 0x70, kind := 0x03, unit := unitId 0x0D p.val }

/-- FAR_PORT_DOWN (R313). -/
def execFarPortDown (port : Fin 2) (s : State) : Host.Outcome State Fault Refusal := .next (effFarPortDown port s)

end Sys2Proof.Machine
end

