-- ==== Sys2Proof/Machine/VectorUnit.lean ====
section
/-!
DEFINITION. Vector programs: the instructions of the vector unit, and a program run over a tile group by group (R158, R160,
R168 to R172).
-/

namespace Sys2Proof.Machine

/-! ### Registers (R154, R168) -/

/-- The 128 lanes of a vector register; the lanes of a predicate register, p0 being all ones; a scalar register. -/
def VectorUnit.lanes (u : VectorUnit) (r : Nat) : List W32 := (List.range 128).map (fun l => Tab.get 0 u.v (128 * r + l))
def VectorUnit.preds (u : VectorUnit) (r : Nat) : List Bool :=
  if r = 0 then List.replicate 128 true else (List.range 128).map (fun l => Tab.get false u.p (128 * r + l))
def VectorUnit.scalar (u : VectorUnit) (r : Nat) : W64 := Tab.get 0 u.s (r % 32)
/-- The FP32 value of a scalar register, bits [31:0]. -/
def VectorUnit.scalar32 (u : VectorUnit) (r : Nat) : W32 := (u.scalar r).setWidth 32

def VectorUnit.setLanes (u : VectorUnit) (r : Nat) (xs : List W32) : VectorUnit :=
  { u with v := (xs.zipIdx).foldl (fun t q => Tab.set 0 t (128 * r + q.2) q.1) u.v }
/-- Writes to p0 are ignored. -/
def VectorUnit.setPreds (u : VectorUnit) (r : Nat) (xs : List Bool) : VectorUnit :=
  if r = 0 then u else { u with p := (xs.zipIdx).foldl (fun t q => Tab.set false t (128 * r + q.2) q.1) u.p }
def VectorUnit.setScalar (u : VectorUnit) (r : Nat) (x : W64) : VectorUnit := { u with s := Tab.set 0 u.s (r % 32) x }
def VectorUnit.setScalar32 (u : VectorUnit) (r : Nat) (x : W32) : VectorUnit := u.setScalar r (x.setWidth 64)

/-- The columns present in a register: those of the piece it was entered with, of the widest piece for a register that held none, and all
lanes where no tile has entered (R160, R171). (DESIGN CHOICE, assumption 164) -/
def VectorUnit.width (u : VectorUnit) (r : Nat) : Nat :=
  match u.widths[r]? with
  | some n => n
  | none => if u.widths.isEmpty then 128 else u.widths.foldl Nat.max 0

/-- The lanes of a register that a reduction takes. -/
def VectorUnit.present (u : VectorUnit) (r : Nat) : List W32 := (u.lanes r).take (u.width r)

/-- The lanes an instruction writes: those its predicate, or its inverse, holds on (R170). -/
def VectorUnit.mask (u : VectorUnit) (w : Nat) : List Bool := (u.preds (vPred w)).map (fun b => b != vNeg w)

/-- Write the lanes the mask allows; the others keep the register's value. -/
def VectorUnit.setMasked (u : VectorUnit) (w r : Nat) (xs : List W32) : VectorUnit :=
  let old := u.lanes r
  u.setLanes r (((xs.zip old).zip (u.mask w)).map (fun q => if q.2 then q.1.1 else q.1.2))

/-! ### Instructions (R171) -/

/-- How a comparison of two lanes comes out; NaN compares false except under CNE. -/
def laneCompare (op : Nat) (a b : W32) : Bool :=
  let nan := isNan32 a || isNan32 b
  let o := cmpVal (un32 a) (un32 b)
  match op with
  | 0x10 => !nan && o == .eq
  | 0x11 => nan || o != .eq
  | 0x12 => !nan && o == .lt
  | 0x13 => !nan && o != .gt
  | 0x14 => !nan && o == .gt
  | _ => !nan && o != .lt

/-- The FP32 lane operations of one source pair: ADD, SUB, MUL, MAX, MIN, and the S forms. -/
def laneBinary (op : Nat) (a b : W32) : W32 :=
  match op with
  | 0x00 | 0x0A => fadd a b
  | 0x01 => fsub a b
  | 0x02 | 0x0B => fmul a b
  | 0x04 => fmax a b
  | _ => fmin a b

/-- One vector lane operation on two registers (or a register and a broadcast scalar). -/
def VectorUnit.binary (u : VectorUnit) (op w i : Nat) : VectorUnit :=
  let a := u.lanes ((vA w + i) % 64)
  let b := if op = 0x0A ∨ op = 0x0B then List.replicate 128 (u.scalar32 (vB w % 32 + i)) else u.lanes ((vB w + i) % 64)
  u.setMasked w ((vD w + i) % 64) (List.zipWith (laneBinary op) a b)

/-- One lane operation on one register: the lanes mapped by f, with the saturations counted. -/
def VectorUnit.unary (u : VectorUnit) (w i : Nat) (f : W32 → W32 × Nat) : VectorUnit × Nat :=
  let r := (u.lanes ((vA w + i) % 64)).map f
  let m := u.mask w
  (u.setMasked w ((vD w + i) % 64) (r.map (·.1)), ((r.zip m).map (fun q => if q.2 then q.1.2 else 0)).foldl (· + ·) 0)

/-- FMA: Va × Vb + Vc. -/
def VectorUnit.fma (u : VectorUnit) (w i : Nat) : VectorUnit :=
  let c := u.lanes ((vC w + i) % 64)
  u.setMasked w ((vD w + i) % 64)
    (((u.lanes ((vA w + i) % 64)).zip (u.lanes ((vB w + i) % 64))).zip c |>.map (fun q => ffma q.1.1 q.1.2 q.2))

/-- SEL: Va where the predicate holds and Vb elsewhere. -/
def VectorUnit.select (u : VectorUnit) (w i : Nat) : VectorUnit :=
  u.setLanes ((vD w + i) % 64) ((((u.lanes ((vA w + i) % 64)).zip (u.lanes ((vB w + i) % 64))).zip (u.mask w)).map
    (fun q => if q.2 then q.1.1 else q.1.2))

/-- A compare writes a predicate register; lanes its own predicate excludes keep their value. -/
def VectorUnit.compare (u : VectorUnit) (op w i : Nat) : VectorUnit :=
  let r := (vD w + i) % 8
  let c := List.zipWith (laneCompare op) (u.lanes ((vA w + i) % 64)) (u.lanes ((vB w + i) % 64))
  u.setPreds r (((c.zip (u.preds r)).zip (u.mask w)).map (fun q => if q.2 then q.1.1 else q.1.2))

/-- The integer quantisation of QNT: the value times the scale register, rounded half up and limited; the result stays an FP32
value. -/
def quantLane (round : Nat) (scale x : W32) : W32 × Nat :=
  let l := intLimits round false
  let q := quantInt l.1 l.2 (fmul x scale)
  (ofInt32 (BitVec.ofInt 32 q.1), b2n q.2)

/-- The pass whose tile the vector unit serves, or will next. -/
def Engine.servedPass (x : Engine) : Option Pass :=
  match x.vu.tilePass with
  | some q => some q
  | none => match x.tileIn false with | some t => some t.pass | none => (x.tileIn true).map (fun t => t.pass)

/-- The row of a buffer that LDV reads into a register: of a streamed one, the row's place in the slot of the tile at hand (R171,
R478). -/
def Engine.loadLanes (x : Engine) (p h d w row : Nat) : List W32 :=
  let e := x.entry p (selectedHandle h d (vSelector w))
  let q := x.servedPass
  let j := match q with | some q => if mStreamed e then fetchIndex d .tile q else 0 | none => 0
  let within := match q with | some q => if mStreamed e then row - q.m * dM d else row | none => row
  (List.range 128).map (fun k => x.value32 p e row within k j)

/-- What one register of an instruction does. -/
def Engine.vectorStep (x : Engine) (p d h op w i : Nat) : Engine × Nat :=
  let u := x.vu
  let put := fun (v : VectorUnit) => ({ x with vu := v }, 0)
  let put2 := fun (v : VectorUnit × Nat) => ({ x with vu := v.1 }, v.2)
  let va := (vA w + i) % 64
  if op ≤ 0x02 ∨ op = 0x04 ∨ op = 0x05 ∨ op = 0x0A ∨ op = 0x0B then put (u.binary op w i)
  else if op = 0x03 then put (u.fma w i)
  else if op = 0x06 then put2 (u.unary w i (fun v => noSat (fabs32 v)))
  else if op = 0x07 then put2 (u.unary w i (fun v => noSat (fneg v)))
  else if op = 0x08 then put2 (u.unary w i noSat)
  else if op = 0x09 then put (u.select w i)
  else if 0x10 ≤ op ∧ op ≤ 0x15 then put (u.compare op w i)
  else if op = 0x18 then put2 (u.unary w i (fun v => noSat (sfu (bits w 2 0) v)))
  else if op = 0x20 then put (u.setScalar32 (vD w % 32 + i) (treeReduce fadd 0 (u.present va)))
  else if op = 0x21 then put (u.setScalar32 (vD w % 32 + i) (treeReduce fmax negInf32 (u.present va)))
  else if op = 0x22 then put (u.setMasked w ((vD w + i) % 64) (List.replicate 128 (u.scalar32 (vA w % 32 + i))))
  else if op = 0x28 then put2 (u.unary w i (roundCode (vRound w) (vSat w)))
  else if op = 0x29 then put2 (u.unary w i (quantLane (vRound w) (u.scalar32 (vB w % 32 + i))))
  else if op = 0x2A then put2 (u.unary w i (fun v => noSat (ofInt32 v)))
  else if op = 0x30 then put (u.setMasked w ((vD w + i) % 64) (x.loadLanes p h d w (vRow w + (u.scalar 8).toNat + i)))
  else if op = 0x31 then
    let e := x.entry p (hHold h)
    let row := vRow w + i
    let addr := rowAddr p e 0 row row
    let old := (List.range 128).map (fun j => x.word32 (addr + 4 * j))
    let new := (((u.lanes va).zip old).zip (u.mask w)).map (fun q => if q.2 then q.1.1 else q.1.2)
    (x.writeBytes addr (new.flatMap (fun v => leBytes 4 v.toNat)), 0)
  else if op = 0x38 then put (u.setScalar32 (vD w % 32 + i) (fadd (u.scalar32 (vA w % 32 + i)) (u.scalar32 (vB w % 32 + i))))
  else if op = 0x39 then put (u.setScalar32 (vD w % 32 + i) (fmul (u.scalar32 (vA w % 32 + i)) (u.scalar32 (vB w % 32 + i))))
  else if op = 0x3A then put (u.setScalar (vD w % 32 + i) (u.scalar (vA w % 32 + i)))
  else put (u.setScalar32 (vD w % 32 + i) (hConst h (bits w 2 0)))

/-- One instruction, register by register over its span (R168, R170). (DEDUCED, assumption 52) -/
def Engine.vectorInstruction (x : Engine) (p d h op w : Nat) : Engine × Nat :=
  (List.range (vSpan w)).foldl (fun a i => let y := a.1.vectorStep p d h op w i; (y.1, a.2 + y.2)) (x, 0)

/-! ### Programs (R168, R169, R172) -/

/-- The pieces of a tile, row by row: 128 columns each. -/
def tilePieces (perRow : Nat) (rows : List (List W32)) : List (List W32) :=
  rows.flatMap (fun r => (List.range perRow).map (fun b => (r.drop (128 * b)).take 128))

/-- Cut a list into groups of 32. -/
def groups32 {α : Type} : Nat → List α → List (List α)
  | 0, _ => []
  | n + 1, xs => if xs.isEmpty then [] else xs.take 32 :: groups32 n (xs.drop 32)

/-- The registers on entry to a group: its pieces, the constants, the first row index; everything else zero (R168). -/
def VectorUnit.enter (u : VectorUnit) (h row : Nat) (pieces : List (List W32)) : VectorUnit :=
  let u0 := { u with v := [], p := [], s := [], widths := pieces.map List.length }
  let u1 := (pieces.zipIdx).foldl (fun u q => u.setLanes q.2 q.1) u0
  let u2 := (List.range 8).foldl (fun u k => u.setScalar32 k (hConst h k)) u1
  u2.setScalar 8 (BitVec.ofNat 64 row)

/-- One group of a program: entry, instructions, and the pieces on exit, with the saturations. -/
def Engine.runGroup (x : Engine) (p d h row : Nat) (pieces : List (List W32)) : Engine × List (List W32) × Nat :=
  let x0 := { x with vu := x.vu.enter h row pieces }
  let y := (x.program p d).foldl (fun (a : Engine × Nat) w => let z := a.1.vectorInstruction p d h (vOp w) w; (z.1, a.2 + z.2)) (x0, 0)
  (y.1, (pieces.zipIdx).map (fun q => (y.1.vu.lanes q.2).take q.1.length), y.2)

/-- Rejoin pieces into rows. -/
def joinPieces : Nat → Nat → List (List W32) → List (List W32)
  | 0, _, _ => []
  | n + 1, per, ps => (ps.take per).flatten :: joinPieces n per (ps.drop per)

/-- A program over a whole tile, in groups of 32 pieces; the rows on exit, converted and written (R168, R169). -/
def Engine.runProgram (x : Engine) (p : Nat) (c : ContextId) (r : Run) (h : Nat) (t : TileIn) : Work :=
  let d := r.step.descriptor.toNat
  let q := t.pass
  let per := Nat.max 1 (piecesPerRow d (q.kind == .vectorTile))
  let x1 := x.holdChain c r.serial
  let x0 := { x1 with vu := { x1.vu with tilePass := some q } }
  let pieces := tilePieces per t.tile
  let y := (groups32 (pieces.length + 1) pieces).foldl (fun (a : Engine × List (List W32) × Nat × Nat) g =>
    let z := a.1.runGroup p d h (q.m * dM d + a.2.2.2 / per) g
    (z.1, a.2.1 ++ z.2.1, a.2.2.1 + z.2.2, a.2.2.2 + g.length)) (x0, [], 0, 0)
  let rows := joinPieces t.tile.length per y.2.1
  let k : Work := { x := y.1, r, tile := rows, col0 := t.col0, sats := y.2.2.1 }
  (k.output (mFormat (x.entry p (dOut d))) []).write p c q q.key

/-- A vector program runs over the tile that waits (R172). -/
def effVectorProgramRun (e : EngineId) (a : ArrayId) (s : State) : State :=
  let x := s.engine e
  if s.noWork ∨ s.engineStopped e then s
  else
    match x.tileIn a with
    | none => s
    | some t =>
      let q := t.pass
      let c := q.context
      let p := x.part c
      match (x.ctx c).runs.find? (fun r => r.serial == q.serial) with
      | none => s.setEngine e (x.dropTile t)
      | some r =>
        match x.header p r.step.descriptor.toNat with
        | none => s
        | some h =>
          if q.discard then s.setEngine e (x.dropTile t)
          else if hForm h ≠ 1 ∨ x.outBlocked p r q then s
          else if x.pairsGood p r.step.descriptor.toNat = false then s.mooringFault e c
          else if (x.firstBad (x.chainReads p r.step.descriptor.toNat)).isSome then s.readChecked e c (x.chainReads p r.step.descriptor.toNat)
          else
            let k := (x.runProgram p c r h t).timed (chainBegins r.step.descriptor.toNat q) (x.chainEnd p c r.serial r.step.descriptor.toNat q) false
            s.settleWork e c q { k with x := k.x.dropTile t }

/-- VECTOR_PROGRAM_RUN (R172). -/
def execVectorProgramRun (engine : EngineId) (array : ArrayId) (s : State) : Host.Outcome State Fault Refusal :=
  .next (effVectorProgramRun engine array s)

/-! ### Instruction rows (R171) -/

/-- The partition, descriptor and header an instruction's memory operands and constants are taken from: those of the tile in or
about to enter the vector unit. -/
def Engine.programContext (x : Engine) : Option (Nat × Nat × Nat) :=
  match (match x.tileIn false with | some t => some t | none => x.tileIn true) with
  | none => none
  | some t =>
    let c := t.pass.context
    let p := x.part c
    match (x.ctx c).runs.find? (fun r => r.serial == t.pass.serial) with
    | none => none
    | some r => let d := r.step.descriptor.toNat; some (p, d, (x.header p d).getD 0)

/-- One instruction acts on the registers of the vector unit. The row names the operation; the word's other fields say how. With
no tile there is no chain, so no buffer to load from or store to, and every constant reads as zero. -/
def State.vectorRow (s : State) (e : EngineId) (op : Nat) (word : BitVec 64) : State :=
  let x := s.engine e
  if s.noWork ∨ s.engineStopped e then s
  else
    match x.programContext with
    | some k => let y := x.vectorInstruction k.1 k.2.1 k.2.2 op word.toNat; (s.setEngine e y.1).countEngine e 9 y.2
    | none =>
      if op = 0x30 ∨ op = 0x31 then s
      else let y := x.vectorInstruction 0 0 0 op word.toNat; (s.setEngine e y.1).countEngine e 9 y.2

/-- ADD (R171). -/
def execVecAdd (engine : EngineId) (word : BitVec 64) (s : State) : Host.Outcome State Fault Refusal := .next (s.vectorRow engine 0x00 word)
/-- SUB (R171). -/
def execVecSub (engine : EngineId) (word : BitVec 64) (s : State) : Host.Outcome State Fault Refusal := .next (s.vectorRow engine 0x01 word)
/-- MUL (R171). -/
def execVecMul (engine : EngineId) (word : BitVec 64) (s : State) : Host.Outcome State Fault Refusal := .next (s.vectorRow engine 0x02 word)
/-- FMA (R171). -/
def execFma (engine : EngineId) (word : BitVec 64) (s : State) : Host.Outcome State Fault Refusal := .next (s.vectorRow engine 0x03 word)
/-- MAX (R171). -/
def execMax (engine : EngineId) (word : BitVec 64) (s : State) : Host.Outcome State Fault Refusal := .next (s.vectorRow engine 0x04 word)
/-- MIN (R171). -/
def execMin (engine : EngineId) (word : BitVec 64) (s : State) : Host.Outcome State Fault Refusal := .next (s.vectorRow engine 0x05 word)
/-- ABS (R171). -/
def execAbs (engine : EngineId) (word : BitVec 64) (s : State) : Host.Outcome State Fault Refusal := .next (s.vectorRow engine 0x06 word)
/-- NEG (R171). -/
def execVecNeg (engine : EngineId) (word : BitVec 64) (s : State) : Host.Outcome State Fault Refusal := .next (s.vectorRow engine 0x07 word)
/-- MOV (R171). -/
def execMov (engine : EngineId) (word : BitVec 64) (s : State) : Host.Outcome State Fault Refusal := .next (s.vectorRow engine 0x08 word)
/-- SEL (R171). -/
def execSel (engine : EngineId) (word : BitVec 64) (s : State) : Host.Outcome State Fault Refusal := .next (s.vectorRow engine 0x09 word)
/-- ADDS (R171). -/
def execAdds (engine : EngineId) (word : BitVec 64) (s : State) : Host.Outcome State Fault Refusal := .next (s.vectorRow engine 0x0A word)
/-- MULS (R171). -/
def execMuls (engine : EngineId) (word : BitVec 64) (s : State) : Host.Outcome State Fault Refusal := .next (s.vectorRow engine 0x0B word)
/-- CEQ (R171). -/
def execCeq (engine : EngineId) (word : BitVec 64) (s : State) : Host.Outcome State Fault Refusal := .next (s.vectorRow engine 0x10 word)
/-- CNE (R171). -/
def execCne (engine : EngineId) (word : BitVec 64) (s : State) : Host.Outcome State Fault Refusal := .next (s.vectorRow engine 0x11 word)
/-- CLT (R171). -/
def execClt (engine : EngineId) (word : BitVec 64) (s : State) : Host.Outcome State Fault Refusal := .next (s.vectorRow engine 0x12 word)
/-- CLE (R171). -/
def execCle (engine : EngineId) (word : BitVec 64) (s : State) : Host.Outcome State Fault Refusal := .next (s.vectorRow engine 0x13 word)
/-- CGT (R171). -/
def execCgt (engine : EngineId) (word : BitVec 64) (s : State) : Host.Outcome State Fault Refusal := .next (s.vectorRow engine 0x14 word)
/-- CGE (R171). -/
def execCge (engine : EngineId) (word : BitVec 64) (s : State) : Host.Outcome State Fault Refusal := .next (s.vectorRow engine 0x15 word)
/-- SFU (R171). -/
def execSfu (engine : EngineId) (word : BitVec 64) (s : State) : Host.Outcome State Fault Refusal := .next (s.vectorRow engine 0x18 word)
/-- RSUM (R171). -/
def execVecRsum (engine : EngineId) (word : BitVec 64) (s : State) : Host.Outcome State Fault Refusal := .next (s.vectorRow engine 0x20 word)
/-- RMAX (R171). -/
def execRmax (engine : EngineId) (word : BitVec 64) (s : State) : Host.Outcome State Fault Refusal := .next (s.vectorRow engine 0x21 word)
/-- BCAST (R171). -/
def execVecBcast (engine : EngineId) (word : BitVec 64) (s : State) : Host.Outcome State Fault Refusal := .next (s.vectorRow engine 0x22 word)
/-- RND (R171). -/
def execRnd (engine : EngineId) (word : BitVec 64) (s : State) : Host.Outcome State Fault Refusal := .next (s.vectorRow engine 0x28 word)
/-- QNT (R171). -/
def execQnt (engine : EngineId) (word : BitVec 64) (s : State) : Host.Outcome State Fault Refusal := .next (s.vectorRow engine 0x29 word)
/-- CVTI (R171). -/
def execCvti (engine : EngineId) (word : BitVec 64) (s : State) : Host.Outcome State Fault Refusal := .next (s.vectorRow engine 0x2A word)
/-- LDV (R171). -/
def execLdv (engine : EngineId) (word : BitVec 64) (s : State) : Host.Outcome State Fault Refusal := .next (s.vectorRow engine 0x30 word)
/-- STV (R171). -/
def execStv (engine : EngineId) (word : BitVec 64) (s : State) : Host.Outcome State Fault Refusal := .next (s.vectorRow engine 0x31 word)
/-- SADD (R171). -/
def execSadd (engine : EngineId) (word : BitVec 64) (s : State) : Host.Outcome State Fault Refusal := .next (s.vectorRow engine 0x38 word)
/-- SMUL (R171). -/
def execSmul (engine : EngineId) (word : BitVec 64) (s : State) : Host.Outcome State Fault Refusal := .next (s.vectorRow engine 0x39 word)
/-- SMOV (R171). -/
def execSmov (engine : EngineId) (word : BitVec 64) (s : State) : Host.Outcome State Fault Refusal := .next (s.vectorRow engine 0x3A word)
/-- SFROM (R171). -/
def execSfrom (engine : EngineId) (word : BitVec 64) (s : State) : Host.Outcome State Fault Refusal := .next (s.vectorRow engine 0x3B word)

end Sys2Proof.Machine
end

