-- ==== Sys2Proof/Machine/Gather.lean ====
section
/-!
DEFINITION. Gathers from memory: table descriptors, pooling, expert routing, and the re-run of a producing step (R149, R196 to
R206).
-/

namespace Sys2Proof.Machine

/-! ### Table descriptors (R197, R198) -/

def gRowCount (t : Nat) : Nat := bits t 511 480
def gFormat (t : Nat) : Nat := bits t 479 476
def gElements (t : Nat) : Nat := bits t 475 463
def gRowScale (t : Nat) : Bool := bit t 462
def gUnsigned (t : Nat) : Bool := bit t 461
def gWeighted (t : Nat) : Bool := bit t 460
def gMean (t : Nat) : Bool := bit t 459
def gMode (t : Nat) : Nat := bits t 458 457
def gSegments (t : Nat) : Nat := bits t 456 452
def gCapacity (t : Nat) : Nat := bits t 451 436
def gExperts (t : Nat) : Nat := bits t 435 420
def gFirst (t : Nat) : Nat := bits t 419 404
def gCount (t : Nat) : Nat := bits t 403 388
def gReserved (t : Nat) : Nat := bits t 387 0

/-- A segment: base, first row, kind, reserved bits. -/
structure Segment where
  base : Nat
  first : Nat
  kind : Nat
  reserved : Nat
deriving DecidableEq, Repr

/-- The head line of a step's table descriptor. -/
def Engine.table (x : Engine) (p d : Nat) : Nat :=
  ofLeBytes (Tab.readBytes x.scratch (rowAddr p (x.entry p (dA d)) 0 0 0) 64)

/-- The segments of a step's table. -/
def Engine.segments (x : Engine) (p d : Nat) : List Segment :=
  let a := rowAddr p (x.entry p (dA d)) 0 0 0
  (List.range (gSegments (x.table p d))).map (fun i =>
    let v := ofLeBytes (Tab.readBytes x.scratch (a + 64 + 16 * i) 16)
    { base := bits v 127 64, first := bits v 63 32, kind := bits v 31 30, reserved := bits v 29 0 })

/-- Bytes of elements of a stored row; bytes of the row with its scale. -/
def elementBytes (t : Nat) : Nat := ceilDiv (gElements t * elemBits (gFormat t)) 8
def storedBytes (t : Nat) : Nat := if gRowScale t then ceilDiv (elementBytes t) 4 * 4 + 4 else elementBytes t

/-- The segment that holds a row: the last whose first row is not beyond it. -/
def segmentOf (ss : List Segment) (row : Nat) : Option Segment := (ss.filter (fun s => decide (s.first ≤ row))).getLast?

/-! ### Index entries (R199, R204) -/

def padRow : Nat := 0xFFFFFFFF

/-- Entry i of the index list as (low word, high word); a plain POOL entry has no high word. -/
def Engine.indexEntry (x : Engine) (p d i : Nat) : Nat × W32 :=
  let a := rowAddr p (x.entry p (dIndex d)) 0 0 0
  let t := x.table p d
  if gMode t = 1 ∨ gWeighted t then ((x.word32 (a + 8 * i)).toNat, x.word32 (a + 8 * i + 4))
  else ((x.word32 (a + 4 * i)).toNat, one32)

/-- What an FP32 routing value names: nothing valid, no expert (−1.0), or an expert. -/
def expertOf (v : Nat) : Option (Option Nat) :=
  if v = 0xBF800000 then some none
  else
    match un32 (BitVec.ofNat 32 v) with
    | .fin neg m e =>
      if m = 0 then some (some 0)
      else if neg then none
      else if 0 ≤ e then some (some (m * 2 ^ e.toNat))
      else if m % 2 ^ (-e).toNat = 0 then some (some (m / 2 ^ (-e).toNat))
      else none
    | _ => none

/-! ### The assignment of slots (R204) -/

/-- One choice of a token: expert and slot, or dropped, or no expert; with its weight. -/
structure Choice1 where
  token : Nat
  choice : Nat
  expert : Option Nat
  slot : Option Nat
  weight : W32
deriving DecidableEq, Repr

/-- Slots assigned over all experts, in token and choice order; with the counts taken and dropped per expert. -/
def Engine.assign (x : Engine) (p d : Nat) : List Choice1 × Tab Nat × Tab Nat :=
  let t := x.table p d
  (List.range (dRows d)).foldl (fun (a : List Choice1 × Tab Nat × Tab Nat) i =>
    let en := x.indexEntry p d i
    let tok := i / dPool d
    let ch := i % dPool d
    match expertOf en.1 with
    | some (some e) =>
      let n := Tab.get 0 a.2.1 e
      if n < gCapacity t then (a.1 ++ [{ token := tok, choice := ch, expert := some e, slot := some n, weight := en.2 }], Tab.set 0 a.2.1 e (n + 1), a.2.2)
      else (a.1 ++ [{ token := tok, choice := ch, expert := some e, slot := none, weight := en.2 }], a.2.1, Tab.upd 0 a.2.2 e (· + 1))
    | _ => (a.1 ++ [{ token := tok, choice := ch, expert := none, slot := none, weight := en.2 }], a.2.1, a.2.2)) ([], [], [])

/-! ### Checks (R201) -/

/-- The byte address of a row, before wrapping to 64 bits. -/
def rowAddress (g : Segment) (address stride row : Nat) : Nat := g.base + address + (row - g.first) * stride

/-- Whether a row's fabric address keeps its offset within 36 bits. -/
def rowFits (g : Segment) (address stride row : Nat) : Bool :=
  g.kind != 2 || decide (gaOffset g.base + address + (row - g.first) * stride < 2 ^ 36)

/-- Whether every check of R201 holds. (DESIGN CHOICE, assumption 163) -/
def Engine.gatherGood (x : Engine) (p d address : Nat) : Bool :=
  let t := x.table p d
  let ss := x.segments p d
  let route := gMode t == 1
  let ea := x.entry p (dA d)
  let ei := x.entry p (dIndex d)
  let eo := x.entry p (dOut d)
  let fmts := [0, 1, 2, 3, 4, 8, 9]
  let size := fun (h : Nat) => 64 * mSize (x.entry p h)
  let entrySize := if route ∨ gWeighted t then 8 else 4
  let outRows := if route then gCount t * gCapacity t else dStepM d
  x.inUse p (dA d) && x.inUse p (dIndex d) && x.inUse p (dOut d) && readable ea && readable ei &&
  mFormat ea == 0xB && mFormat ei == 0xB && decide (64 + 64 * ceilDiv (gSegments t) 4 ≤ size (dA d)) &&
  gReserved t == 0 && decide (gMode t ≤ 1) && fmts.contains (gFormat t) && decide (1 ≤ gRowCount t ∧ 1 ≤ gElements t ∧ gElements t ≤ 4096) &&
  decide (1 ≤ gSegments t ∧ gSegments t ≤ 16) && !(gUnsigned t && !isInt (gFormat t)) &&
  (!route || (!gWeighted t && !gMean t && !gRowScale t && decide (1 ≤ gCapacity t ∧ gCapacity t ≤ 4096 ∧ 1 ≤ gExperts t ∧ 1 ≤ gCount t))) &&
  ss.all (fun g => g.reserved == 0 && g.kind != 0 && decide (g.first < gRowCount t) && decide ((g.base + address) % 64 = 0)) &&
  (match ss with | g :: _ => g.first == 0 | [] => false) && (ss.zip (ss.drop 1)).all (fun q => decide (q.1.first ≤ q.2.first)) &&
  decide (dStride d % 64 = 0 ∧ storedBytes t ≤ dStride d) &&
  decide (1 ≤ dPool d ∧ dRows d % dPool d = 0 ∧ dStepM d = dRows d / dPool d ∧ dStepN d = gElements t) && (!route || decide (dPool d ≤ 16)) &&
  dChain d == noHandle && (route || (dB d == noHandle && dC d == noHandle)) && decide (entrySize * dRows d ≤ size (dIndex d)) &&
  (List.range (dRows d)).all (fun i =>
    let en := x.indexEntry p d i
    if route then
      decide (i / dPool d < gRowCount t) && (match expertOf en.1 with
        | none => false
        | some none => true
        | some (some e) => decide (e < gExperts t))
    else decide (en.1 = padRow ∨ en.1 < gRowCount t)) &&
  (if route then (List.range (dStepM d)) else ((List.range (dRows d)).map (fun i => (x.indexEntry p d i).1)).filter (fun r => r ≠ padRow)).all (fun r =>
    match segmentOf ss r with | some g => rowFits g address (dStride d) r | none => false) &&
  bufFits eo outRows (bytesOf (mFormat eo) (gElements t)) &&
  (if route then mFormat eo == gFormat t else decide (mFormat eo ≤ 3 ∨ mFormat eo = 9)) &&
  (!route || (x.inUse p (dB d) && decide (64 * ceilDiv (gCount t) 8 + 8 * gCount t * gCapacity t ≤ size (dB d)) &&
    (dC d == noHandle || (x.inUse p (dC d) && decide (8 * dRows d ≤ size (dC d))))))

/-! ### What is fetched and what it becomes (R200, R204, R205) -/

/-- A row to fetch: table row, output row, weight, and whether it is the last of its bag. -/
structure GatherItem where
  row : Nat
  out : Nat
  weight : W32
  last : Bool
deriving DecidableEq, Repr

/-- The rows of a GATHER in the order they are fetched. -/
def Engine.gatherItems (x : Engine) (p d : Nat) : List GatherItem :=
  let t := x.table p d
  if gMode t = 1 then
    (x.assign p d).1.filterMap (fun q => match q.expert, q.slot with
      | some e, some k => if gFirst t ≤ e ∧ e < gFirst t + gCount t then
          some { row := q.token, out := (e - gFirst t) * gCapacity t + k, weight := q.weight, last := true } else none
      | _, _ => none)
  else
    let es := ((List.range (dRows d)).map (fun i => (i / dPool d, x.indexEntry p d i))).filter (fun q => q.2.1 ≠ padRow)
    (es.zipIdx 1).map (fun q =>
      { row := q.1.2.1, out := q.1.1, weight := q.1.2.2, last := match es[q.2]? with | some n => n.1 != q.1.1 | none => true })

/-- The line fetches of a GATHER, row by row (R198, R202). -/
def Engine.gatherFetches (x : Engine) (p d address : Nat) : List Fetch :=
  let ss := x.segments p d
  let n := ceilDiv (storedBytes (x.table p d)) 64
  (x.gatherItems p d).flatMap (fun it => match segmentOf ss it.row with
    | none => []
    | some g => (List.range n).map (fun l =>
        { line := 0, kind := BitVec.ofNat 2 g.kind, source := BitVec.ofNat 64 (rowAddress g address (dStride d) it.row + 64 * l), bytes := 64 }))

/-- Write zeros to a row of an output. -/
def Engine.zeroRow (x : Engine) (p d row elements : Nat) : Engine :=
  let e := x.entry p (dOut d)
  x.putElems (rowAddr p e row row row) 0 (elemBits (mFormat e)) (List.replicate elements 0)

/-- The route list and combine list of a ROUTE step (R205). A pad's weight in the combine list is an open value. -/
def Engine.writeRoutes (x : Engine) (p d : Nat) (padWeight : W32) : Engine :=
  let t := x.table p d
  let y := x.assign p d
  let b := rowAddr p (x.entry p (dB d)) 0 0 0
  let entries := b + 64 * ceilDiv (gCount t) 8
  let x1 := (List.range (gCount t)).foldl (fun x j =>
    let e := gFirst t + j
    x.writeBytes (b + 8 * j) (leBytes 4 (Tab.get 0 y.2.1 e) ++ leBytes 4 (Tab.get 0 y.2.2 e))) x
  let x2 := (List.range (gCount t * gCapacity t)).foldl (fun x i => x.writeBytes (entries + 8 * i) (leBytes 8 0xFFFFFFFF)) x1
  let x3 := y.1.foldl (fun x q => match q.expert, q.slot with
    | some e, some k =>
      if gFirst t ≤ e ∧ e < gFirst t + gCount t then
        x.writeBytes (entries + 8 * ((e - gFirst t) * gCapacity t + k)) (leBytes 4 (q.token * 256 + q.choice) ++ leBytes 4 q.weight.toNat)
      else x
    | _, _ => x) x2
  if dC d = noHandle then x3
  else
    let c := rowAddr p (x.entry p (dC d)) 0 0 0
    (y.1.zipIdx).foldl (fun x q => x.writeBytes (c + 8 * q.2) (match q.1.expert, q.1.slot with
      | some e, some k => leBytes 4 (e * gCapacity t + k) ++ leBytes 4 q.1.weight.toNat
      | _, _ => leBytes 4 padRow ++ leBytes 4 padWeight.toNat)) x3

/-- The outputs a GATHER writes without fetching: rows of bags of pads, rows no token takes, and ROUTE's lists. -/
def Engine.gatherFixed (x : Engine) (p d : Nat) (padWeight : W32) : Engine :=
  let t := x.table p d
  let rows := if gMode t = 1 then gCount t * gCapacity t else dStepM d
  let taken := (x.gatherItems p d).map (·.out)
  let x1 := ((List.range rows).filter (fun r => !taken.contains r)).foldl (fun y r => y.zeroRow p d r (gElements t)) x
  if gMode t = 1 then x1.writeRoutes p d padWeight else x1

/-! ### GATHER (R196, R202) -/

/-- What an issued GATHER has to do. -/
def Engine.gatherWork (x : Engine) (p address : Nat) (r : Run) : Run :=
  let d := r.step.descriptor.toNat
  let fs := x.gatherFetches p d address
  { r with fetches := fs, gather := if fs.isEmpty then none else some {}, producing := true }

/-- A GATHER issues: every check comes first, and nothing is written when one fails (R201). (DEDUCED, assumption 39) -/
def effGather (e : EngineId) (c : ContextId) (s : State) : State :=
  s.issueStep e c opGather (fun s st =>
    let x := s.engine e
    let p := x.part c
    let d := st.descriptor.toNat
    let reads := [dA d, dIndex d].map (fun h => (rowAddr p (x.entry p h) 0 0 0, 64 * mSize (x.entry p h)))
    if stepEmpty d ∧ dPool d ≠ 0 then s.beginRun e c st id
    else if (x.firstBad reads).isSome then s.readChecked e c reads
    else if x.gatherGood p d st.address.toNat = false then s.failStep e c [stInvalid]
    else
      let w := s.draw
      let s1 := w.2.beginRun e c st (x.gatherWork p st.address.toNat)
      (s1.updEngine e (fun x => x.gatherFixed p d (BitVec.ofNat 32 w.1))).countEngine e 10 (dRows d))

/-- GATHER (R196). -/
def execGather (engine : EngineId) (context : ContextId) (s : State) : Host.Outcome State Fault Refusal :=
  .next (effGather engine context s)

/-! ### GATHER_POOL_LINE (R200, R202) -/

/-- The FP32 values of a row's elements, with its scale applied. -/
def rowValues (t : Nat) (row : List Byte) (weight : Option W32) : List W32 :=
  let n := ofLeBytes row
  let eb := elemBits (gFormat t)
  let scale : W32 := BitVec.ofNat 32 (ofLeBytes ((row.drop (ceilDiv (elementBytes t) 4 * 4)).take 4))
  (List.range (gElements t)).map (fun j =>
    let v := pk32 (elemVal (gFormat t) (gUnsigned t) (bits n (j * eb + eb - 1) (j * eb)))
    let v1 := if gRowScale t then fmul v scale else v
    match weight with | some w => fmul v1 w | none => v1)

/-- A whole row has arrived: it is added to its bag, or copied to its slot; a finished bag is written, and the conversions that
overflow are counted (R164, R200, R204). -/
def Engine.poolRow (x : Engine) (p d : Nat) (g : GatherState) (it : GatherItem) (row : List Byte) : Engine × GatherState × Nat :=
  let t := x.table p d
  let eo := x.entry p (dOut d)
  let at' := rowAddr p eo it.out it.out it.out
  if gMode t = 1 then
    let eb := elemBits (gFormat t)
    let n := ofLeBytes row
    let codes := (List.range (gElements t)).map (fun j => bits n (j * eb + eb - 1) (j * eb))
    (x.putElems at' 0 eb codes, { g with entry := g.entry + 1, row := [], acc := [], count := 0 }, 0)
  else
    let vs := rowValues t row (if gWeighted t then some it.weight else none)
    let acc := if g.count = 0 then vs else List.zipWith fadd g.acc vs
    let n := g.count + 1
    if it.last then
      let out := if gMean t then acc.map (fun a => fdiv a (ofNat32 n)) else acc
      let codes := out.map (convertOut (mFormat eo) true)
      (x.putElems at' 0 (elemBits (mFormat eo)) (codes.map (·.1)),
       { g with entry := g.entry + 1, row := [], acc := [], count := 0 }, (codes.map (·.2)).foldl (· + ·) 0)
    else (x, { g with entry := g.entry + 1, row := [], acc, count := n }, 0)

/-- The pooling unit takes one landed line of the first GATHER that has one; a GATHER whose fetches were stopped ends when
nothing of it is left in flight. -/
def effGatherPoolLine (e : EngineId) (c : ContextId) (s : State) : State :=
  let x := s.engine e
  let k := x.ctx c
  match k.runs.find? (fun r => r.gather.isSome) with
  | none => s
  | some r =>
    let p := x.part c
    let d := r.step.descriptor.toNat
    let g := r.gather.getD {}
    -- a line that is taken is no longer in flight
    let put := fun (x : Engine) (v : Option GatherState) (taken : Nat) =>
      let k := (x.ctx c).updRun r.serial (fun r => { r with gather := v })
      s.setEngine e (x.setCtx c { k with readLines := k.readLines - taken })
    if s.engineStopped e then s
    else
      match g.landed with
      | [] => if r.fetches.isEmpty ∧ r.fetching.isEmpty then put x none 0 else s
      | line :: rest =>
        let row := g.row ++ line
        let g1 := { g with landed := rest, row }
        let need := ceilDiv (storedBytes (x.table p d)) 64 * 64
        if row.length < need then put x (some g1) 1
        else
          let items := x.gatherItems p d
          match items[g.entry]? with
          | none => put x none 1
          | some it =>
            let y := x.poolRow p d g1 it row
            (put y.1 (if y.2.1.entry < items.length then some y.2.1 else none) 1).countEngine e 9 y.2.2

/-- GATHER_POOL_LINE (R202). -/
def execGatherPoolLine (engine : EngineId) (context : ContextId) (s : State) : Host.Outcome State Fault Refusal :=
  .next (effGatherPoolLine engine context s)

/-! ### PRODUCER_RERUN (R148, R149) -/

/-- A producing step of the log runs again from its logged inputs, before anything that waits; it keeps its serial, sends nothing
and signals nothing. An input that is itself bad comes first: until it is whole again, the step does not run. (DEDUCED, assumption 41) -/
def effProducerRerun (e : EngineId) (c : ContextId) (serial : BitVec 16) (s : State) : State :=
  let x := s.engine e
  let p := x.part c
  let k := x.ctx c
  match k.log.find? (fun l => l.serial == serial) with
  | none => s
  | some l =>
    let d := l.step.descriptor.toNat
    let same := l.reads.all (fun q => mWriteSeq (x.entry p q.1) == q.2.toNat)
    let bad := l.reads.any (fun q => x.badIn (rowAddr p (x.entry p q.1) 0 0 0) (64 * mSize (x.entry p q.1)))
    if same = false ∨ bad ∨ k.runs.any (fun r => r.again && r.serial == serial) ∨ s.engineStopped e ∨ s.noWork then s
    else
      let r0 : Run := { step := l.step, serial, reads := l.reads, again := true }
      let r := match dOp d with
        | 1 | 2 => x.productWork p c r0
        | 3 => { r0 with fetches := loadFetches p (x.entry p (dOut d)) d l.step.address.toNat, producing := true }
        | 5 => x.gatherWork p l.step.address.toNat r0
        | _ => r0
      let w := s.draw
      let route := decide (dOp d = opGather) && !stepEmpty d
      let s1 := (if route then w.2 else s).setEngine e ((if route then x.gatherFixed p d (BitVec.ofNat 32 w.1) else x).setCtx c { k with runs := r :: k.runs })
      (s1.countEngine e 13 1).raise
        { area := 0x40, kind := 0x04, unit := engineUnit e, ctx := some c }

/-- PRODUCER_RERUN (R149). -/
def execProducerRerun (engine : EngineId) (context : ContextId) (serial : BitVec 16) (s : State) : Host.Outcome State Fault Refusal :=
  .next (effProducerRerun engine context serial s)

end Sys2Proof.Machine
end

