-- ==== Sys2Proof/Machine/Keeper.lean ====
section
/-!
DEFINITION. The keeper line and the SPDM responder: frames, neighbours, sessions, attestation, and the DOE mailbox (R364, R389 to R395,
R439).
-/

namespace Sys2Proof.Machine

/-! ### The link (R389, R390) -/

/-- Whether the line is UP. -/
def State.keeperUp (s : State) : Bool := s.keeper.phase == .up

/-- Whether the keeper line serves: from host-ready on, never in recovery, and not while a test mode is set. -/
def State.keeperServes (s : State) : Bool := s.serving && !s.start.recovery && s.obj 0xE003 0 0 == 0

/-- The line is reported UP: the polarity is corrected in the SLAVE role only, and each address is solicited for duplicates. -/
def effKeeperLinkUp (sqi : BitVec 3) (polarity : Bool) (s : State) : State :=
  if s.start.running = false ∨ s.keeperUp then s
  else
    let s1 := { s with keeper := { s.keeper with
      phase := .up, sqi, polarity := polarity && !s.start.klMaster, ups := s.keeper.ups + 1, duplicate := [] } }
    if s1.keeperServes then s1.ownAddresses.foldl (fun s a => s.keeperOut (.solicitation a)) s1 else s1

/-- KEEPER_LINK_UP (R390). -/
def execKeeperLinkUp (sqi : BitVec 3) (polarity : Bool) (s : State) : Host.Outcome State Fault Refusal :=
  .next (effKeeperLinkUp sqi polarity s)

/-- The line goes DOWN; sessions survive until their idle timeout. -/
def effKeeperLinkDown (s : State) : State :=
  if s.keeperUp then
    { s with keeper := { s.keeper with phase := .down, sqi := 0, neighbours := [], waiting := [] } }.raise { area := 0xE0, kind := 0x03 }
  else s

/-- KEEPER_LINK_DOWN (R390). -/
def execKeeperLinkDown (s : State) : Host.Outcome State Fault Refusal := .next (effKeeperLinkDown s)

/-! ### Frames (R391, R392) -/

/-- Run f on a frame that has arrived: nothing arrives on a line that is not UP, and what arrives while nothing is served is dropped and
counted. -/
def State.received (s : State) (f : State → State) : State :=
  if s.keeperUp = false then s
  else if s.keeperServes then f (s.keeperStat 0) else (s.keeperStat 0).keeperStat 3

/-- A REJECT frame. -/
def State.keeperReject (s : State) (dest : BitVec 128) (port : W16) (reason : Nat) : State := (s.keeperStat 4).keeperSend dest port 2 [] reason

/-- Whether a Keeper frame's header, apart from its Version, is well formed. -/
def keeperHeaderGood (h length : Nat) : Bool :=
  decide (bits h 123 120 ≤ 1 ∧ 1 ≤ bits h 119 104 ∧ bits h 119 104 ≤ 1280 ∧ bits h 119 104 = length ∧ bits h 103 0 = 0)

/-- The session a secured message names by its first four bytes. -/
def State.sessionNamed (s : State) (id : Nat) : Option (BitVec 2) :=
  [0, 1, 2, 3].find? (fun k => (s.session k).phase != .closed && (s.session k).spdmId.toNat == id)

/-- A secured message: it names an open session and decrypts, or it is rejected, or ends the session. -/
def State.securedArrives (s : State) (address : BitVec 128) (port : W16) (message : List Byte) : State :=
  match s.sessionNamed (ofLeBytes (message.take 4)) with
  | none => s.keeperReject address port 1
  | some k =>
    match Config.spdmOpen (s.session k).keyNumber message with
    | some _ => s.setSession k { s.session k with lastValid := s.time.ticks }
    | none => (s.setSession k {}).keeperStat 7

/-- A Keeper frame: dispatched by Kind, or answered with a REJECT. The message it carries is a command of its own.
(DEDUCED, assumption 129) -/
def State.keeperFrame (s : State) (address : BitVec 128) (port : W16) (payload : List Byte) : State :=
  let h := ofBeBytes (payload.take 16)
  if payload.length < 16 then s.keeperReject address port 3
  else if bits h 127 124 ≠ 1 then s.keeperReject address port 2
  else if keeperHeaderGood h (payload.length - 16) = false then s.keeperReject address port 3
  else if bits h 123 120 = 1 then s.securedArrives address port (payload.drop 16)
  else s

/-- A frame of the line: its FCS, what it carries, and its address and port, are checked first. -/
def effKeeperFrameRx (good plain : Bool) (destination : BitVec 128) (toPort : BitVec 16) (address : BitVec 128) (port : BitVec 16)
    (payload : List Byte) (s : State) : State :=
  s.received (fun s =>
    if good = false then s.keeperStat 2
    else if plain = false ∨ s.ownAddresses.contains destination = false ∨ toPort.toNat ≠ s.keeperObject 0xE012 then s.keeperStat 3
    else s.keeperFrame address port payload)

/-- KEEPER_FRAME_RX (R392). -/
def execKeeperFrameRx (good plain : Bool) (destination : BitVec 128) (toPort : BitVec 16) (address : BitVec 128) (port : BitVec 16)
    (payload : List Byte) (s : State) : Host.Outcome State Fault Refusal :=
  .next (effKeeperFrameRx good plain destination toPort address port payload s)

/-- SECURED_REQUEST (R394). -/
def execSecuredRequest (session : BitVec 2) (request : BitVec 512) (data : List Byte) (flashGood : Bool) (s : State) :
    Host.Outcome State Fault Refusal := .next (s.securedRequest session request.toNat data flashGood)

/-! ### Neighbours and echo (R391) -/

/-- A neighbour's address is resolved: what waited for it is sent. -/
def State.resolve (s : State) (address : BitVec 128) (mac : BitVec 48) : State :=
  let ready := (s.keeper.waiting.filter (fun w => w.1 == address)).map (·.2)
  let s1 := { s with keeper := { s.keeper with
    neighbours := (s.keeper.neighbours.filter (fun n => n.1 != address)) ++ [(address, mac)],
    waiting := s.keeper.waiting.filter (fun w => w.1 != address) } }
  ready.foldl State.keeperOut s1

/-- A solicitation of one of the port's addresses is answered; one of another address is dropped and counted. -/
def effNeighbourSolicitation (source target : BitVec 128) (mac : Option (BitVec 48)) (s : State) : State :=
  s.received (fun s =>
    if s.ownAddresses.contains target = false then s.keeperStat 3
    else
      let s1 := match mac with | some m => s.resolve source m | none => s
      if source = 0 then s1.keeperOut (.advertisement (BitVec.ofNat 128 (0xFF02 * 2 ^ 112 + 1)) target)
      else s1.keeperTransmit source (.advertisement source target))

/-- NEIGHBOUR_SOLICITATION (R391). -/
def execNeighbourSolicitation (source target : BitVec 128) (mac : Option (BitVec 48)) (s : State) : Host.Outcome State Fault Refusal :=
  .next (effNeighbourSolicitation source target mac s)

/-- An advertisement of one of the port's own addresses reveals a duplicate, which is not used and raises an event; any other resolves a
neighbour. -/
def effNeighbourAdvertisement (target : BitVec 128) (mac : BitVec 48) (s : State) : State :=
  s.received (fun s =>
    if s.ownAddresses.contains target then
      { s with keeper := { s.keeper with duplicate := s.keeper.duplicate ++ [target] } }.raise
        { area := 0xE0, kind := 0x10, detail := [(128, target.toNat)] }
    else s.resolve target mac)

/-- NEIGHBOUR_ADVERTISEMENT (R391). -/
def execNeighbourAdvertisement (target : BitVec 128) (mac : BitVec 48) (s : State) : Host.Outcome State Fault Refusal :=
  .next (effNeighbourAdvertisement target mac s)

/-- An echo request to one of the port's addresses is answered. -/
def effIcmpv6Echo (source destination : BitVec 128) (body : List Byte) (s : State) : State :=
  s.received (fun s =>
    if s.ownAddresses.contains destination then s.keeperTransmit source (.echoReply destination source body) else s.keeperStat 3)

/-- ICMPV6_ECHO (R391). -/
def execIcmpv6Echo (source destination : BitVec 128) (body : List Byte) (s : State) : Host.Outcome State Fault Refusal :=
  .next (effIcmpv6Echo source destination body s)

/-! ### Idle timeout (R393) -/

/-- A session without a valid secured message for its idle limit ends. -/
def effKeeperSessionIdleTimeout (k : BitVec 2) (s : State) : State :=
  let x := s.session k
  if x.phase ≠ .closed ∧ x.lastValid + x.idleLimit.toNat * 781250000 ≤ s.time.ticks then s.setSession k {} else s

/-- KEEPER_SESSION_IDLE_TIMEOUT (R393). -/
def execKeeperSessionIdleTimeout (session : BitVec 2) (s : State) : Host.Outcome State Fault Refusal :=
  .next (effKeeperSessionIdleTimeout session s)

/-! ### The SPDM responder (R439) -/

/-- Codes of the responses, and of two errors, in the DMTF standard (PRESUMED: the manual names the messages and not their codes).
(PRESUMED, assumption 131) -/
def spdmVersion : Nat := 0x04
def spdmCapabilities : Nat := 0x61
def spdmAlgorithms : Nat := 0x63
def spdmDigests : Nat := 0x01
def spdmCertificate : Nat := 0x02
def spdmChallengeAuth : Nat := 0x03
def spdmMeasurements : Nat := 0x60
def spdmKeyExchangeRsp : Nat := 0x64
def spdmFinishRsp : Nat := 0x65
def spdmHeartbeatAck : Nat := 0x68
def spdmKeyUpdateAck : Nat := 0x69
def spdmEndSessionAck : Nat := 0x6C
def spdmError : Nat := 0x7F
def spdmBusy : Byte := 0x03
def spdmUnexpected : Byte := 0x04
def spdmDecryptError : Byte := 0x06

/-- The responder's state on a connection. -/
def State.spdmOf (s : State) : SpdmPath → SpdmState
  | .doe => s.keeper.doe
  | .keeper k _ _ => Tab.get {} s.keeper.spdm k.toNat
def State.setSpdm (s : State) (p : SpdmPath) (v : SpdmState) : State :=
  match p with
  | .doe => { s with keeper := { s.keeper with doe := v } }
  | .keeper k _ _ => { s with keeper := { s.keeper with spdm := Tab.set {} s.keeper.spdm k.toNat v } }

/-- Whether a path's messages reach the responder: the physical function's mailbox, or the keeper line. -/
def State.spdmReaches (s : State) : SpdmPath → Bool
  | .doe => s.linkUp && s.serving
  | .keeper _ _ _ => s.keeperUp && s.keeperServes

/-- How far the session of a path has come. -/
def State.sessionPhase (s : State) : SpdmPath → SessionPhase
  | .doe => s.keeper.doe.session
  | .keeper k _ _ => (s.session k).phase

/-- An SPDM response: kept as the connection's last, and on the keeper line sent, in an open session as a secured message and otherwise in
the clear. -/
def State.spdmRespond (s : State) (p : SpdmPath) (response : List Byte) : State :=
  let s1 := s.setSpdm p { s.spdmOf p with response, transcript := (s.spdmOf p).transcript ++ response }
  match p with
  | .doe => s1
  | .keeper k dest port => if (s1.session k).phase = .closed then s1.keeperSend dest port 0 response 0 else s1.sendSecured (s1.session k) response

/-- Serve an SPDM message that reaches the responder: it joins the transcript, and where its turn has not come the answer is an error. -/
def State.spdmServe (s : State) (p : SpdmPath) (message : List Byte) (ready : Bool) (f : State → State) : State :=
  if s.spdmReaches p = false then s
  else
    let x := s.spdmOf p
    let s1 := s.setSpdm p { x with transcript := x.transcript ++ message }
    if ready then f s1 else s1.spdmRespond p (Config.spdmBody spdmError message [spdmUnexpected])

/-- A response whose signature by the alias key covers the messages of the connection. -/
def State.spdmSigned (s : State) (p : SpdmPath) (code : Nat) (message contents : List Byte) : List Byte :=
  Config.spdmBody code message (contents ++ leBytes 132 (Config.ecdsaSign 1 (Config.sha512 (s.spdmOf p).transcript).toNat).toNat)

/-- Whether a connection's algorithms are negotiated, or its session open. -/
def State.negotiated (s : State) (p : SpdmPath) : Bool := (s.spdmOf p).algorithms || s.sessionPhase p == .opened

/-- GET_VERSION: 1.3 and 1.2; negotiation starts anew. -/
def effGetVersion (p : SpdmPath) (message : List Byte) (s : State) : State :=
  if s.spdmReaches p = false then s
  else
    (s.setSpdm p { version := true, transcript := message, session := (s.spdmOf p).session }).spdmRespond p
      (Config.spdmBody spdmVersion message [0x13, 0x12])

/-- GET_VERSION (R439). -/
def execGetVersion (path : SpdmPath) (message : List Byte) (s : State) : Host.Outcome State Fault Refusal :=
  .next (effGetVersion path message s)

/-- GET_CAPABILITIES, after GET_VERSION. -/
def effGetCapabilities (p : SpdmPath) (message : List Byte) (s : State) : State :=
  s.spdmServe p message (s.spdmOf p).version (fun s =>
    (s.setSpdm p { s.spdmOf p with capabilities := true }).spdmRespond p (Config.spdmBody spdmCapabilities message []))

/-- GET_CAPABILITIES (R439). -/
def execGetCapabilities (path : SpdmPath) (message : List Byte) (s : State) : Host.Outcome State Fault Refusal :=
  .next (effGetCapabilities path message s)

/-- NEGOTIATE_ALGORITHMS, after GET_CAPABILITIES: ECDSA P-521, SHA-512, ECDHE on P-521, AES-256-GCM. -/
def effNegotiateAlgorithms (p : SpdmPath) (message : List Byte) (s : State) : State :=
  s.spdmServe p message (s.spdmOf p).capabilities (fun s =>
    (s.setSpdm p { s.spdmOf p with algorithms := true }).spdmRespond p (Config.spdmBody spdmAlgorithms message []))

/-- NEGOTIATE_ALGORITHMS (R439). -/
def execNegotiateAlgorithms (path : SpdmPath) (message : List Byte) (s : State) : Host.Outcome State Fault Refusal :=
  .next (effNegotiateAlgorithms path message s)

/-- The slot 0 certificate chain of this boot. -/
def State.chain (s : State) : List Byte := Config.certificateChain s.start.aliasEpoch

/-- GET_DIGESTS: the digest of the slot 0 chain. -/
def effGetDigests (p : SpdmPath) (message : List Byte) (s : State) : State :=
  s.spdmServe p message (s.negotiated p) (fun s =>
    s.spdmRespond p (Config.spdmBody spdmDigests message (leBytes 64 (Config.sha512 s.chain).toNat)))

/-- GET_DIGESTS (R439). -/
def execGetDigests (path : SpdmPath) (message : List Byte) (s : State) : Host.Outcome State Fault Refusal :=
  .next (effGetDigests path message s)

/-- GET_CERTIFICATE: the slot 0 chain. -/
def effGetCertificate (p : SpdmPath) (message : List Byte) (s : State) : State :=
  s.spdmServe p message (s.negotiated p) (fun s => s.spdmRespond p (Config.spdmBody spdmCertificate message s.chain))

/-- GET_CERTIFICATE (R439). -/
def execGetCertificate (path : SpdmPath) (message : List Byte) (s : State) : Host.Outcome State Fault Refusal :=
  .next (effGetCertificate path message s)

/-- CHALLENGE: signed by the alias key. -/
def effChallenge (p : SpdmPath) (message : List Byte) (s : State) : State :=
  s.spdmServe p message (s.negotiated p) (fun s =>
    s.spdmRespond p (s.spdmSigned p spdmChallengeAuth message (leBytes 64 (Config.sha512 s.chain).toNat)))

/-- CHALLENGE (R439). -/
def execChallenge (path : SpdmPath) (message : List Byte) (s : State) : Host.Outcome State Fault Refusal :=
  .next (effChallenge path message s)

/-! ### Measurements (R439) -/

/-- The booted slot's image; one that is erased in recovery. -/
def State.bootedImage (s : State) : ImageSlot := if s.start.recovery then {} else s.start.image s.start.bootedSlot.toNat

/-- The bytes of the booted image's section of a kind. -/
def State.bootedSection (s : State) (kind : Nat) : List Byte :=
  match s.bootedImage.sections.find? (fun e => scKind e == kind) with
  | some e => s.bootedImage.section' e
  | none => []

/-- What measurement i digests. (DESIGN CHOICE, assumption 132) -/
def State.measured (s : State) (i : Nat) : List Byte :=
  match i with
  | 1 => Config.bootRom
  | 2 => s.bootedSection 1
  | 3 => s.bootedSection 2
  | 4 => (match s.bootedImage.signalBody with | some q => q.1 | none => []) ++ [s.start.scSigner]
  | 5 => leBytes 1 (ihSecurityVersion s.bootedImage.header) ++ leBytes 1 (fuseCounter s.start.fuses)
  | 6 => leBytes 4 s.vers.activeNo.toNat ++ leBytes 64 (Config.sha512 (Config.versionBody s.vers.active)).toNat
  | 7 => leBytes 8 (s.published none 0xA064 0 0) ++ leBytes 8 s.integ.lastSequence.toNat
  | _ => leBytes 1 (b2n s.start.debugLock) ++ leBytes 1 (s.obj 0x9050 0 0)

/-- The eight measurements, each a SHA-512 digest after its index. -/
def State.measurements (s : State) : List Byte :=
  (List.range 8).flatMap (fun k => leBytes 1 (k + 1) ++ leBytes 64 (Config.sha512 (s.measured (k + 1))).toNat)

/-- GET_MEASUREMENTS: served as one request, signed by the alias key. -/
def effGetMeasurements (p : SpdmPath) (message : List Byte) (s : State) : State :=
  s.spdmServe p message (s.negotiated p) (fun s => s.spdmRespond p (s.spdmSigned p spdmMeasurements message s.measurements))

/-- GET_MEASUREMENTS (R439). -/
def execGetMeasurements (path : SpdmPath) (message : List Byte) (s : State) : Host.Outcome State Fault Refusal :=
  .next (effGetMeasurements path message s)

/-! ### Sessions (R393) -/

/-- A session place that is free. -/
def State.freeSession (s : State) : Option (BitVec 2) := [0, 1, 2, 3].find? (fun k => (s.session k).phase == .closed)

/-- The new session of a KEY_EXCHANGE: the requester's half of its identifier is in the message, the module's is the count of sessions. -/
def State.newSession (s : State) (address : BitVec 128) (port : W16) (message : List Byte) : Session :=
  { phase := .exchanged, address, port, spdmId := BitVec.ofNat 32 (ofLeBytes ((message.drop 4).take 2) + (s.keeper.nextSession.toNat % 65536) * 65536),
    opened := s.time.ticks, lastValid := s.time.ticks, idleLimit := BitVec.ofNat 32 (s.obj 0xE014 0 0) }

/-- The signed answer of a KEY_EXCHANGE, with the module's half of the session identifier. -/
def State.exchangeAnswer (s : State) (p : SpdmPath) (message : List Byte) : List Byte :=
  s.spdmSigned p spdmKeyExchangeRsp message (leBytes 2 s.keeper.nextSession.toNat)

/-- KEY_EXCHANGE: a session begins, or the answer is Busy. -/
def effKeyExchange (p : SpdmPath) (message : List Byte) (s : State) : State :=
  s.spdmServe p message (s.spdmOf p).algorithms (fun s =>
    let busy := Config.spdmBody spdmError message [spdmBusy]
    match p with
    | .doe =>
      if s.keeper.doe.session ≠ .closed then s.spdmRespond p busy
      else (s.setSpdm p { s.keeper.doe with session := .exchanged }).spdmRespond p (s.exchangeAnswer p message)
    | .keeper _ address port =>
      match s.freeSession with
      | none => s.keeperSend address port 0 busy 0
      | some k =>
        let s1 := (s.setSpdm p { s.spdmOf p with response := s.exchangeAnswer p message }).keeperSend address port 0 (s.exchangeAnswer p message) 0
        ({ s1 with keeper := { s1.keeper with nextSession := s1.keeper.nextSession + 1 } }).setSession k (s.newSession address port message))

/-- KEY_EXCHANGE (R393). -/
def execKeyExchange (path : SpdmPath) (message : List Byte) (s : State) : Host.Outcome State Fault Refusal :=
  .next (effKeyExchange path message s)

/-- The registered operator roots (0xB030). (DEDUCED, assumption 133) -/
def State.operatorRoots (s : State) : List Nat := ((List.range 4).map (s.obj 0xB030 0)).filter (fun v => v != 0)

/-- FINISH: on the keeper line the requester's chain must end at a registered root, or the session ends; a session that completes it is
open. -/
def effFinish (p : SpdmPath) (message : List Byte) (s : State) : State :=
  s.spdmServe p message (s.sessionPhase p == .exchanged) (fun s =>
    let answer := Config.spdmBody spdmFinishRsp message []
    match p with
    | .doe => (s.setSpdm p { s.keeper.doe with session := .opened }).spdmRespond p answer
    | .keeper k _ _ =>
      if Config.chainEndsAt message s.operatorRoots then
        let s1 := s.spdmRespond p answer
        (s1.setSession k { s1.session k with
          phase := .opened, keyEpoch := 1, opened := s1.time.ticks, lastValid := s1.time.ticks, anyRequest := false }).keeperStat 6
      else (s.spdmRespond p (Config.spdmBody spdmError message [spdmDecryptError])).setSession k {})

/-- FINISH (R393). -/
def execFinish (path : SpdmPath) (message : List Byte) (s : State) : Host.Outcome State Fault Refusal := .next (effFinish path message s)

/-- A message of an open session that the session takes as valid, and its answer. -/
def State.inSession (s : State) (p : SpdmPath) (code : Nat) (message : List Byte) (f : Session → Session) : State :=
  s.spdmServe p message (s.sessionPhase p == .opened) (fun s =>
    let s1 := match p with
      | .doe => s
      | .keeper k _ _ => s.setSession k (f { s.session k with lastValid := s.time.ticks })
    s1.spdmRespond p (Config.spdmBody code message []))

/-- HEARTBEAT (R393): the session stays alive. -/
def execHeartbeat (path : SpdmPath) (message : List Byte) (s : State) : Host.Outcome State Fault Refusal :=
  .next (s.inSession path spdmHeartbeatAck message id)

/-- KEY_UPDATE (R393): the session goes on under new keys. -/
def execKeyUpdate (path : SpdmPath) (message : List Byte) (s : State) : Host.Outcome State Fault Refusal :=
  .next (s.inSession path spdmKeyUpdateAck message (fun x => { x with keyEpoch := x.keyEpoch + 1 }))

/-- END_SESSION: answered, then the session is closed. -/
def effEndSession (p : SpdmPath) (message : List Byte) (s : State) : State :=
  if s.spdmReaches p = false ∨ s.sessionPhase p ≠ .opened then s.inSession p spdmEndSessionAck message id
  else
    let s1 := s.inSession p spdmEndSessionAck message id
    match p with
    | .doe => s1.setSpdm p { s1.keeper.doe with session := .closed }
    | .keeper k _ _ => s1.setSession k {}

/-- END_SESSION (R393). -/
def execEndSession (path : SpdmPath) (message : List Byte) (s : State) : Host.Outcome State Fault Refusal :=
  .next (effEndSession path message s)

/-! ### DOE Discovery (R364) -/

/-- The protocols of the mailbox in the order of discovery: DOE Discovery, CMA/SPDM, Secured CMA/SPDM; their vendor and codes are those of
PCI-SIG (PRESUMED). The last names index 0 as the next. -/
def doeProtocol (index : Nat) : Nat :=
  if index < 3 then 1 + index * 2 ^ 16 + (if index = 2 then 0 else index + 1) * 2 ^ 24 else 0xFFFF

/-- DOE_DISCOVERY (R364). -/
def execDoeDiscovery (index : BitVec 8) (s : State) : Host.Outcome State Fault Refusal :=
  .next (if s.linkUp ∧ s.serving then
           { s with keeper := { s.keeper with doe := { s.keeper.doe with response := leBytes 4 (doeProtocol index.toNat) } } }
         else s)

end Sys2Proof.Machine
end

