-- ==== Sys2Proof/Machine/Orders.lean ====
section
/-!
DEFINITION. The writes of objects that have a row of their own and name their requester: each is the WRITE request of its object, with
the next Sequence of the requester (R367, R381, R395, R412, R419 to R422, R430, R437, R438, R451, R455).
-/

namespace Sys2Proof.Machine

/-- The Sequence a requester's next request carries. -/
def State.nextSequence (s : State) (who : Requester) : W16 :=
  match who with
  | .keeper k => (s.session k).lastSequence + 1
  | _ => (Tab.get {} s.host.windows (windowKey who)).sequence + 1

/-- The request block of a WRITE (R368); data beyond what a window carries inline moves by DMA. -/
def State.writeBlock (s : State) (who : Requester) (index sub offset length : Nat) : Nat :=
  2 * 2 ^ 504 + b2n (!ofSession who && decide (inlineLimit who < length)) * 2 ^ 501 + index * 2 ^ 480 + sub * 2 ^ 472 +
  (s.nextSequence who).toNat * 2 ^ 448 + offset * 2 ^ 416 + length * 2 ^ 384

/-- A WRITE of an object by a requester. (DEDUCED, assumption 109) -/
def State.order (s : State) (who : Requester) (index sub offset : Nat) (data : List Byte) (flashGood : Bool) : State :=
  effRequest who 2 (s.writeBlock who index sub offset data.length) data .good flashGood s

/-! ### Versions (R379, R381) -/

/-- COMMIT (R381). -/
def execCommit (requester : Requester) (version : BitVec 32) (s : State) : Host.Outcome State Fault Refusal :=
  .next (s.order requester 0x100A 0 0 (leBytes 8 (1 * 2 ^ 56 + version.toNat)) true)

/-- REVERT (R381). -/
def execRevert (requester : Requester) (version : BitVec 32) (s : State) : Host.Outcome State Fault Refusal :=
  .next (s.order requester 0x100A 0 0 (leBytes 8 (2 * 2 ^ 56 + version.toNat)) true)

/-- CONFIRM (R385). -/
def execConfirm (requester : Requester) (version : BitVec 32) (flashGood : Bool) (s : State) : Host.Outcome State Fault Refusal :=
  .next (s.order requester 0x100A 0 0 (leBytes 8 (3 * 2 ^ 56 + version.toNat)) flashGood)

/-- STAGE_RESET (R379). -/
def execStageReset (requester : Requester) (value : BitVec 8) (s : State) : Host.Outcome State Fault Refusal :=
  .next (s.order requester 0x100B 0 0 [value] true)

/-! ### The keeper line, integrity, fleet (R395, R412, R419 to R422) -/

/-- KEEPER_TEST_MODE_WRITE (R395). -/
def execKeeperTestModeWrite (requester : Requester) (value : BitVec 8) (s : State) : Host.Outcome State Fault Refusal :=
  .next (s.order requester 0xE003 0 0 [value] true)

/-- QUARANTINE_CLEAR (R412). -/
def execQuarantineClear (requester : Requester) (unit : BitVec 16) (s : State) : Host.Outcome State Fault Refusal :=
  .next (s.order requester 0xA034 0 0 (leBytes 2 unit.toNat) true)

/-- A manager order of one kind; bytes that are an order of another kind are no command of the row. -/
def State.fleetOrder (s : State) (who : Requester) (kind : Nat) (order : List Byte) (flashGood : Bool) : State :=
  if orKind (ofLeBytes order) = kind then s.order who 0xA060 0 0 order flashGood else s

/-- EXPEL (R422). -/
def execExpel (requester : Requester) (order : List Byte) (flashGood : Bool) (s : State) : Host.Outcome State Fault Refusal :=
  .next (s.fleetOrder requester 1 order flashGood)

/-- READMIT (R422). -/
def execReadmit (requester : Requester) (order : List Byte) (flashGood : Bool) (s : State) : Host.Outcome State Fault Refusal :=
  .next (s.fleetOrder requester 2 order flashGood)

/-- SET_KEYS (R422). -/
def execSetKeys (requester : Requester) (order : List Byte) (flashGood : Bool) (s : State) : Host.Outcome State Fault Refusal :=
  .next (s.fleetOrder requester 3 order flashGood)

/-- MANAGER_KEYS_APPLY (R419). -/
def execManagerKeysApply (requester : Requester) (value : BitVec 8) (flashGood : Bool) (s : State) : Host.Outcome State Fault Refusal :=
  .next (s.order requester 0xA063 0 0 [value] flashGood)

/-! ### Resets and firmware (R430, R437, R438) -/

/-- MODULE_RESET (R430). -/
def execModuleReset (requester : Requester) (s : State) : Host.Outcome State Fault Refusal := .next (s.order requester 0x1020 0 0 [1] true)

/-- FIRMWARE_RESTART (R430). -/
def execFirmwareRestart (requester : Requester) (s : State) : Host.Outcome State Fault Refusal := .next (s.order requester 0x1020 0 0 [2] true)

/-- A write of FirmwareCommand (0xB012). -/
def State.orderFirmware (s : State) (who : Requester) (code : Nat) : State := s.order who 0xB012 0 0 (leBytes 8 (code * 2 ^ 56)) true

/-- ERASE_INACTIVE (R437). -/
def execEraseInactive (requester : Requester) (s : State) : Host.Outcome State Fault Refusal := .next (s.orderFirmware requester 1)

/-- ARM_TRIAL (R437). -/
def execArmTrial (requester : Requester) (s : State) : Host.Outcome State Fault Refusal := .next (s.orderFirmware requester 2)

/-- CONFIRM_RUNNING (R437). -/
def execConfirmRunning (requester : Requester) (s : State) : Host.Outcome State Fault Refusal := .next (s.orderFirmware requester 3)

/-- ADVANCE_ROLLBACK (R437). -/
def execAdvanceRollback (requester : Requester) (s : State) : Host.Outcome State Fault Refusal := .next (s.orderFirmware requester 4)

/-- IMAGE_WRITE (R437). -/
def execImageWrite (requester : Requester) (offset : BitVec 32) (data : List Byte) (s : State) : Host.Outcome State Fault Refusal :=
  .next (s.order requester 0xB011 0 offset.toNat data true)

/-- INTEGRATOR_KEY_DIGEST_WRITE (R438). -/
def execIntegratorKeyDigestWrite (requester : Requester) (digest : BitVec 512) (s : State) : Host.Outcome State Fault Refusal :=
  .next (s.order requester 0xB020 0 0 (leBytes 64 digest.toNat) true)

/-! ### Counters (R451, R455) -/

/-- PROG_CONTROL_WRITE (R451). -/
def execProgControlWrite (requester : Requester) (counter : Fin 456) (record : BitVec 256) (s : State) : Host.Outcome State Fault Refusal :=
  .next (s.order requester 0xD010 0 (32 * counter.val) (leBytes 32 record.toNat) true)

/-- SNAPSHOT_NOW (R455). -/
def execSnapshotNow (requester : Requester) (value : BitVec 8) (s : State) : Host.Outcome State Fault Refusal :=
  .next (s.order requester 0xD0F0 0 0 [value] true)

end Sys2Proof.Machine
end

