-- ==== Sys2Proof/Machine/Period.lean ====
section
/-!
DEFINITION. The period boundary: the audit, snapshots, the activation of a version, orders that take effect there, and the automatic
revert (R60, R64, R77, R83, R97, R98, R120, R129, R280 to R284, R308, R339, R340, R383, R412, R422, R441, R451, R455, R459).
-/

namespace Sys2Proof.Machine

/-! ### Contexts and partitions (R98, R129, R131) -/

/-- Whether two lists hold the same numbers. -/
def sameNumbers (xs ys : List Nat) : Bool := xs.all ys.contains && ys.all xs.contains

/-- The partition records of a context, whole. -/
def partitionsOf (t : Tab Nat) (c : Nat) : List Nat :=
  ((listedRecs t 0x3031 0).map (fun r => getRec t 0x3031 0 r)).filter (fun v => v != 0 && parContext v == c)

/-- Whether a context's Contexts and Partitions records are the same in two versions. -/
def contextKept (old new : Tab Nat) (c : Nat) : Bool :=
  contextOf old c == contextOf new c && sameNumbers (partitionsOf old c) (partitionsOf new c)

/-- A context that a version drops or changes: its queued batches, but not one that has finished and waits for its record, end NOT_RESIDENT
and its partitions enter SCRUBBING (R98). -/
def State.dropContext (s : State) (c : ContextId) : State :=
  let finished := fun (b : Batch) => s.batchDone b && (b.committed != 0 || (s.oldestBatch c).map (·.id) == some b.id)
  let ids := (s.batches.filter (fun b => b.context == c && !b.foreign && !b.ended && !finished b)).map (·.id)
  (s.endBatches ids stNotResident).killContext c stNotResident none

/-- The contexts of the active version that a new one drops or changes. -/
def State.droppedContexts (s : State) (t : Tab Nat) : List ContextId :=
  ((contextRecs s.vers.active).filter (fun r => !contextKept s.vers.active t (ctxId r))).map (fun r => BitVec.ofNat 10 (ctxId r))

/-- The bounds a version gives an engine, each with the complement of its record. -/
def boundsIn (t : Tab Nat) (e : Nat) : Tab Pair64 :=
  (((listedRecs t 0x3031 0).map (fun r => getRec t 0x3031 0 r)).filter (fun v => v != 0 && parEngine v == e)).foldl
    (fun b v => Tab.set {} b (parContext v) { value := BitVec.ofNat 64 v, comp := BitVec.ofNat 64 (v >>> 64) }) []

/-- FREE granules that a version declares become ACTIVE; those that are scrubbed settle when their scrub is done. -/
def grantGranules (t : Tab Nat) (e : Nat) (gs : Tab Granule) : Tab Granule :=
  (List.range 16).foldl (fun gs g =>
    match (Tab.get ({} : Granule) gs g).state, declaredOn t e g with
    | .free, some c => Tab.set {} gs g { state := .active, context := c }
    | _, _ => gs) gs

/-- An array at an activation: one that was to return does, and what it kept of the last window's cycles ends. -/
def MatrixArray.activate (m : MatrixArray) : MatrixArray :=
  let m1 := { m with freeAt := 0, turn := 0, slots := 0, nextInference := 0 }
  if m.returning then { m1 with health := .inService, returning := false, bySelfTest := false, counts := [] } else m1

/-- An engine at an activation: its bounds, granules, round robin and arrays (R83, R120, R129, R131, R412). -/
def Engine.activate (x : Engine) (t : Tab Nat) (e : Nat) : Engine :=
  { x with boundsPrevious := x.bounds, bounds := boundsIn t e, granules := grantGranules t e x.granules,
           deficit := [], debt := [], stale := [], cursor := 0,
           vu := { x.vu with freeAt := 0 },
           contexts := Tab.mapAll {} (fun _ c => { c with pairedNoted := false, outReady := [] }) x.contexts,
           arrays := Tab.mapAll {} (fun _ a => a.activate) x.arrays }

/-- A core at an activation. -/
def SignalCore.activate (c : SignalCore) : SignalCore :=
  if c.returning then { c with health := .inService, returning := false } else c

/-! ### Islands (R77) -/

/-- An island at an activation: its list is the new version's, and the outgoing version's is the one its fallbacks come from. -/
def Island.activate (i : Island) (list : List ListEntry) : Island :=
  { i with previous := i.list, list, current := none, emitted := 0, taken := 0, waitsForLate := false, lastWindow := none }

/-- Every island that windows can name. -/
def State.activateIslands (s : State) (t : Tab Nat) : State :=
  namedUnits.foldl (fun s u => s.setIsland u ((s.island u).activate (islandList t u))) s

/-! ### Ports (R60, R267, R280 to R284) -/

/-- A port at an activation: enabled ones leave DISABLED, others enter it; shapers and policers start full, and the gate list anew. -/
def Port.activate (p : Port) (enabled : Bool) : Port :=
  let p1 := { p with gateEntry := 0, spent := [], tcSpent := [], teSpent := [] }
  if enabled then (if p.state = .disabled then { p1 with state := .down } else p1)
  else { p1 with state := .disabled, localFault := false, remoteFault := false, wire := none, queues := [] }

/-- Every port. -/
def State.activatePorts (s : State) (t : Tab Nat) : State :=
  { s with ports := (List.range 84).foldl (fun (ps : Tab Port) p => Tab.upd {} ps p (fun x => x.activate (portEnabled t p))) s.ports }.loseSynce

/-- The rate a link's latencies were last set for: that of the default configuration until a version sets another (R60). -/
def State.lastRate (s : State) (l : Nat) : Nat :=
  if Tab.get 0 s.links.linkRates l = 0 then linkRate [] l else Tab.get 0 s.links.linkRates l

/-- A link whose rate changes takes the characterised latencies of the new rate (R60). -/
def State.activateLatencies (s : State) (new : Tab Nat) : State :=
  (List.range 64).foldl (fun s l =>
    let rate := linkRate new l
    if rate = 0 ∨ rate = s.lastRate l then s
    else
      let q := linkLatency rate
      let s1 := s.setObj 0x2010 0 l (s.obj 0x2010 0 l % 2 ^ 64 + q.1 * 2 ^ 96 + q.2 * 2 ^ 64)
      { s1 with links := { s1.links with linkRates := Tab.set 0 s1.links.linkRates l rate } }) s

/-! ### Regions, peers and mirrors (R308, R339, R340, R342) -/

/-- A record's number in another version: the first of `count` with the same value. (DEDUCED, assumption 118) -/
def sameRecord (t : Tab Nat) (index count v : Nat) : Option Nat := (List.range count).find? (fun j => getRec t index 0 j == v)

/-- The regions: one whose record is new becomes CLEARING, the others keep their state. -/
def State.activateRegions (s : State) (old new : Tab Nat) : State :=
  let regions := (List.range (getRec new 0x7011 0 0)).foldl (fun (r : Tab Region) i =>
    Tab.set {} r i (match sameRecord old 0x7010 (getRec old 0x7011 0 0) (getRec new 0x7010 0 i) with
      | some j => Tab.get {} s.mem.regions j
      | none => { phase := .clearing })) []
  { s with mem := { s.mem with regions } }

/-- The peers that a version drops: their operations end (R339). -/
def State.dropPeers (s : State) (t : Tab Nat) : State :=
  (peersOf s.vers.active).foldl (fun s q =>
    match sameRecord t 0x8010 (getRec t 0x8011 0 0) q.2 with
    | some _ => s
    | none => s.loseOps (BitVec.ofNat 12 q.1)) s

/-- The peers of the new version: those whose records are unchanged keep their streams, the others start afresh. -/
def State.activatePeers (s : State) (old new : Tab Nat) : State :=
  let count := getRec old 0x8011 0 0
  let place := fun (j : Nat) => sameRecord new 0x8010 (getRec new 0x8011 0 0) (getRec old 0x8010 0 j)
  let peers := (peersOf new).foldl (fun (t : Tab Peer) q =>
    Tab.set {} t q.1 (match sameRecord old 0x8010 count q.2 with
      | some j => Tab.get {} s.fabric.peers j
      | none => {})) []
  let fences := s.fabric.fences.map (fun f => { f with counted := f.counted.filterMap (fun c => (place c.1).map (fun j => (j, c.2))) })
  { s with fabric := { s.fabric with peers, fences } }

/-- The mirrors of the new version: an unchanged record keeps its state; the writes of one that is gone are given up, and what waited for
them is acknowledged. -/
def State.activateMirrors (s : State) (old new : Tab Nat) : State :=
  let place := fun (j : Nat) => sameRecord new 0x8040 (getRec new 0x8041 0 0) (getRec old 0x8040 0 j)
  let mirrors := (List.range (getRec new 0x8041 0 0)).foldl (fun (t : Tab MirrorState) i =>
    Tab.set .active t i (match sameRecord old 0x8040 (getRec old 0x8041 0 0) (getRec new 0x8040 0 i) with
      | some j => Tab.get .active s.fabric.mirrors j
      | none => .active)) []
  let gone := s.fabric.mirrorWaiting.filter (fun w => (place w.record).isNone)
  let kept := s.fabric.mirrorWaiting.filterMap (fun w => (place w.record).map (fun i => { w with record := i }))
  gone.foldl (fun s w => s.releaseMirror (w.address / 256)) { s with fabric := { s.fabric with mirrors, mirrorWaiting := kept } }

/-! ### Activation (R27, R77, R379, R381, R383) -/

/-- A version takes over the device: everything but the versions' own numbers and states. -/
def State.takeOver (s : State) (t : Tab Nat) : State :=
  let old := s.vers.active
  let s1 := ((s.droppedContexts t).foldl State.dropContext s).dropPeers t
  let s2 := { s1 with vers := { s1.vers with active := t } }
  let s3 := (s2.ungateGroups t).activateIslands t
  let s4 := { s3 with
    engines := (List.range 64).foldl (fun (es : Tab Engine) e => Tab.upd {} es e (fun x => x.activate t e)) s3.engines,
    cores := Tab.mapAll {} (fun _ c => c.activate) s3.cores }
  ((((s4.activatePorts t).activateLatencies t).activateRegions old t).activatePeers old t).activateMirrors old t

/-- The confirm deadline: a + ceil(ConfirmTimeout × 100 / P) periods. -/
def State.deadlineFrom (s : State) (a : W32) : W32 := a + BitVec.ofNat 32 (ceilDiv (s.obj 0x100E 0 0 * 100) s.periodFrames)

/-- The numbers and states after a commit. -/
def Versions.committed (v : Versions) (old : Tab Nat) (a deadline : W32) : Versions :=
  let v1 := { v with
    previous := old, previousNo := v.activeNo, previousNoC := v.activeNoC, previousValid := true, previousRejected := false,
    activeNo := v.stagingNo, activeNoC := v.stagingNoC, phase := .unconfirmed, stored := v.holds v.stagingNo,
    activationPeriod := a, deadline, due := none }
  v1.formStaging

/-- The numbers and states after a revert: the version reverted from is rejected. -/
def Versions.reverted (v : Versions) (old : Tab Nat) (a : W32) : Versions :=
  let v1 := (v.rejectSlots v.activeNo)
  let v2 := { v1 with
    previous := old, previousNo := v.activeNo, previousNoC := v.activeNoC, previousValid := true, previousRejected := true,
    activeNo := v.previousNo, activeNoC := v.previousNoC, phase := .confirmed, stored := v1.holds v.previousNo,
    activationPeriod := a, deadline := 0, due := none }
  v2.formStaging

/-- The count of the period in progress under the active version's length. -/
def State.periodNow (s : State) : W32 := s.time.periodCount s.periodFrames

/-- The staged version activates. -/
def State.activateCommit (s : State) : State :=
  let old := s.vers.active
  let s1 := s.takeOver s.vers.staging
  { s1 with vers := s1.vers.committed old s1.periodNow (s1.deadlineFrom s1.periodNow) }

/-- The previous version activates. -/
def State.activateRevert (s : State) : State :=
  let old := s.vers.active
  let s1 := s.takeOver s.vers.previous
  { s1 with vers := s1.vers.reverted old s1.periodNow }

/-- Whether the confirm deadline has come with no CONFIRM, at the instant of a boundary. -/
def State.revertDue (s : State) : Bool :=
  s.vers.phase == .unconfirmed && (match s.deadlineLeft s.periodNow with | some left => decide (left ≤ 0) | none => false)

/-- What activates at this boundary, if anything does. -/
def State.activateDue (s : State) : State :=
  if s.revertDue then s.activateRevert
  else match s.vers.due with
    | some (kind, tick) => if s.time.ticks < tick then s else match kind with
      | .commit => s.activateCommit
      | .revert => s.activateRevert
    | none => s

/-! ### Counters at a boundary (R451, R455) -/

/-- The counters that a snapshot holds beside the fixed ones: Pending of each array that has passes in flight. -/
def State.pendingEntries (s : State) : List (Nat × Nat) :=
  s.engines.flatMap (fun q => [false, true].map (fun a =>
    (ctrKey 0xD000 q.1 (24 * b2n a + acPending), s.pendingCycles (BitVec.ofNat 6 q.1) a)))

/-- A snapshot of every counter. (DEDUCED, assumption 145) -/
def State.snapshot (s : State) : State :=
  let fixed := s.pendingEntries.foldl (fun (t : Tab W64) q => Tab.set 0 t q.1 (BitVec.ofNat 64 q.2)) s.ctrs.fixed
  { s with ctrs := { s.ctrs with
    snapControl := s.ctrs.control, snapFixed := fixed, snapProg := s.ctrs.prog, snapRequested := false, snapCount := s.ctrs.snapCount + 1 } }

/-- Snapshots that are due: the first boundary after SnapshotNow, and every SnapshotPeriod boundaries. -/
def State.snapshots (s : State) : State :=
  let n := s.ctrs.sinceSnap + 1
  let period := s.obj 0xD0F1 0 0
  let auto : Bool := decide (period ≠ 0 ∧ period ≤ n)
  let s1 := { s with ctrs := { s.ctrs with sinceSnap := if auto ∨ period = 0 then 0 else n } }
  if auto ∨ s.ctrs.snapRequested then s1.snapshot else s1

/-- Controls that were written take effect, each with its counter zeroed. -/
def State.applyControls (s : State) : State :=
  let c := s.ctrs.waiting.foldl (fun (c : CounterBlock) q =>
    match q.2 with
    | some r => { c with control := Tab.set 0 c.control q.1 (BitVec.ofNat 256 (Nat.xor r.toNat controlDefault)), prog := Tab.erase c.prog q.1 }
    | none => c) s.ctrs
  { s with ctrs := { c with waiting := [] } }

/-! ### Orders, radio, edges -/

/-- Expulsion: every instance is reset, and the module gives no work from now on. (DEDUCED, assumption 128) -/
def State.expelNow (s : State) : State :=
  let s1 := { s with integ := { s.integ with expelled := true, orderPending := none } }
  (s1.resetAll.raise { area := 0xA0, kind := 0x41 }).storeSettings

/-- Readmission: the streams restart. -/
def State.readmitNow (s : State) : State :=
  let s1 := { s with integ := { s.integ with expelled := false, orderPending := none } }
  let s2 := (peersOf s1.vers.active).foldl (fun s q =>
    let p : BitVec 12 := BitVec.ofNat 12 q.1
    let s := s.loseOps p
    (s.setPeer p (s.peer p).resetStreams).sendReset p) s1
  (s2.raise { area := 0xA0, kind := 0x41 }).storeSettings

/-- An accepted manager order takes effect at the first boundary at least 50 µs after it (R422). -/
def State.ordersDue (s : State) : State :=
  match s.integ.orderPending with
  | some (expel, tick) => if s.time.ticks < tick then s else if expel then s.expelNow else s.readmitNow
  | none => s

/-- RadioReady (R441). -/
def State.noteRadioReady (s : State) : State :=
  let ready := s.host.radioReady || (s.host.hostReady && hasRanWindow s.vers.active && s.time.quality != .unset && s.start.scImageAccepted)
  { s with host := { s.host with radioReady := ready } }

/-- A period begins: edges emitted ahead of it count for it, gates start anew, and an eclipse ends unless a load is still awaited or the
new version's own first period has not begun. -/
def State.beginPeriod (s : State) : State :=
  let into := (s.time.frame % s.periodFrames).toNat
  { s with
    chr := { s.chr with
      periodCount := s.periodNow, suspended := s.time.load.isSome || into != 0, eclipse := s.time.load.isSome,
      islands := Tab.mapAll {} (fun _ i =>
        { i with emitted := if into = 0 then i.emittedEarly else 0, emittedEarly := 0, taken := 0 }) s.chr.islands },
    ports := Tab.mapAll {} (fun _ p => { p with gateEntry := 0 }) s.ports }

/-! ### PERIOD_BOUNDARY (R97) -/

/-- Whether the time has entered another period than the one PeriodCount names (R64). (DEDUCED, assumption 16) -/
def State.boundaryReached (s : State) : Bool := s.start.running && s.chr.periodCount != s.periodNow

/-- The boundary: the audit and the snapshot, the activation of what is due, then the new period and what takes effect with it.
(DEDUCED, assumption 17) -/
def effPeriodBoundary (s : State) : State :=
  if s.boundaryReached = false then s
  else
    let s0 := if s.vers.phase = .unconfirmed then s.noteWrap 0x10 controlUnit (s.deadlineLeft s.periodNow) else s
    let s1 := s0.auditLedgers.snapshots.applyControls
    (s1.activateDue.beginPeriod.ordersDue.noteRadioReady).readHostCounts

/-- PERIOD_BOUNDARY (R97). -/
def execPeriodBoundary (s : State) : Host.Outcome State Fault Refusal := .next (effPeriodBoundary s)

/-- The confirm deadline has passed with no CONFIRM: the previous version activates as a REVERT would. -/
def effAutoRevert (s : State) : State :=
  if s.start.running ∧ (s.revertDue ∨ (s.vers.phase = .unconfirmed ∧ s.deadlinePassed)) then s.activateRevert else s

/-- AUTO_REVERT (R383). -/
def execAutoRevert (s : State) : Host.Outcome State Fault Refusal := .next (effAutoRevert s)

end Sys2Proof.Machine
end

