-- ==== Sys2Proof/Machine/Power.lean ====
section
/-!
DEFINITION. Power and temperature: samples, duties, thermal bands and shutdown (R428, R442 to R444).
-/

namespace Sys2Proof.Machine

/-! ### Duties (R442, R443) -/

/-- A group's duty set to D, held as 64 − D. -/
def Power.setDuty (p : Power) (g d : Nat) : Power := { p with duty := Tab.set 0 p.duty g (64 - d) }
def Power.dutyAt (p : Power) (g : Nat) : Nat := 64 - Tab.get 0 p.duty g

/-- The duties of a set of groups changed. -/
def Power.mapDuty (p : Power) (gs : List Nat) (f : Nat → Nat) : Power := gs.foldl (fun p g => p.setDuty g (f (p.dutyAt g))) p

/-- A group's ThrottlePriority in the active version. -/
def State.throttlePriority (s : State) (g : Nat) : Nat := s.act 0xC003 0 g

/-- The groups that hold a property and whose ThrottlePriority is the lowest, or the highest, of those that do. -/
def State.ranked (s : State) (highest : Bool) (p : Nat → Bool) : List Nat :=
  let gs := (List.range 8).filter p
  let better := fun (a b : Nat) => if highest then decide (s.throttlePriority b < s.throttlePriority a) else decide (s.throttlePriority a < s.throttlePriority b)
  gs.filter (fun g => gs.all (fun h => !better h g))

/-- Rails in µW: millivolts times milliamperes, summed (R442). (DEDUCED, assumption 134) -/
def railPower (rails : List (BitVec 32 × BitVec 32)) : Nat := sumOf (fun q => q.1.toNat * q.2.toNat) rails

/-- Watts in µW. -/
def watts (w : Nat) : Nat := w * 1000000

/-! ### The scope of a sensor (R444) -/

/-- The groups of a sensor: its own, all for a Gallery sensor, those of its die for a memory device. -/
def sensorGroups (k : Nat) : List Nat :=
  if k < 8 then [k] else if k < 11 then List.range 8 else if k - 11 < 24 then [0, 1, 2, 3] else [4, 5, 6, 7]

/-- The unit a sensor's events name. -/
def sensorUnit (k : Nat) : UnitId := if k < 8 then unitId 1 k else if k < 11 then unitId 2 2 else unitId 3 (k - 11)

/-- Whether a group is under a trip. -/
def Power.tripped (p : Power) (g : Nat) : Bool := p.sensors.any (fun q => q.2.trip && (sensorGroups q.1).contains g)

/-- Whether a group's duty is lowered by an excursion. -/
def Power.excursion (p : Power) (g : Nat) : Bool := p.sensors.any (fun q => q.2.excursion && (sensorGroups q.1).contains g)

/-- MOD_ALERT_N is asserted: a duty is below 64, or the module is fenced (R428). -/
def State.modAlert (s : State) : Bool := s.start.running && ((List.range 8).any (fun g => decide (s.power.dutyAt g < 64)) || s.integ.fenced)

/-- THERM_TRIP_N is asserted (R428). -/
def State.thermTripN (s : State) : Bool := s.start.thermTrip

/-! ### Power samples (R442, R443) -/

/-- The duties after one sample, before temperature has its say. -/
def State.adjustDuty (s : State) : Power :=
  let p := s.power
  let limit := watts (s.obj 0xC001 0 0)
  if watts (s.obj 0xC002 0 0) < p.p10 then p.mapDuty (List.range 8) (fun d => min d 16)
  else if limit < p.mean then p.mapDuty (s.ranked false (fun g => decide (0 < p.dutyAt g))) (fun d => d - 8)
  else if p.mean + watts 20 < limit then p.mapDuty (s.ranked true (fun g => decide (p.dutyAt g < 64))) (fun d => min (d + 4) 64)
  else p

/-- One sample of every rail: P10 and P1000, then the duties; a trip holds its groups at 0. -/
def effPowerSample (rails : List (BitVec 32 × BitVec 32)) (s : State) : State :=
  if s.start.running = false then s
  else
    let t := (rails.take 10).zipIdx.foldl (fun (t : Tab (BitVec 32 × BitVec 32)) q => Tab.set (0, 0) t q.2 q.1) s.power.rails
    let p10 := railPower (t.map (·.2))
    let s1 := { s with power := { s.power with rails := t, p10, history := lastN 100 (s.power.history ++ [p10]) } }
    let p := s1.adjustDuty
    let p1 := p.mapDuty ((List.range 8).filter p.tripped) (fun _ => 0)
    let overflow : Bool := decide (watts (s.obj 0xC001 0 0) < p1.mean) && (List.range 8).all (fun g => p1.dutyAt g == 0)
    { s1 with power := { p1 with overFor := if overflow then p1.overFor + 1 else 0, overRaised := overflow && p1.overRaised } }

/-- POWER_SAMPLE (R443). -/
def execPowerSample (rails : List (BitVec 32 × BitVec 32)) (s : State) : Host.Outcome State Fault Refusal := .next (effPowerSample rails s)

/-- P1000 has stayed above PowerLimit for 100 ms, 10,000 samples, with every duty at 0: raised once. -/
def effPowerLimitEvent (s : State) : State :=
  if s.power.overFor < 10000 ∨ s.power.overRaised then s
  else { s with power := { s.power with overRaised := true } }.raise { area := 0xC0, kind := 0x10 }

/-- POWER_LIMIT_EVENT (R443). -/
def execPowerLimitEvent (s : State) : Host.Outcome State Fault Refusal := .next (effPowerLimitEvent s)

/-! ### Temperature samples (R444) -/

/-- A thermal shutdown: the module fences itself, then THERM_TRIP_N is asserted until the rails are removed. -/
def State.thermalShutdown (s : State) : State :=
  let s1 := s.selfFence
  { s1 with start := { s1.start with thermTrip := true } }

/-- A sensor after a reading, in units of 1/256 °C: the excursion ends below 98 °C, the trip below 105 °C. -/
def Sensor.read (t : Sensor) (r : BitVec 16) : Sensor :=
  let v := r.toInt
  let hot := decide (100 * 256 ≤ v)
  let trip := decide (105 * 256 ≤ v)
  { reading := r, excursion := hot || (t.excursion && decide (98 * 256 ≤ v)), trip,
    tripSamples := if trip then t.tripSamples + 1 else 0,
    excursions := if hot ∧ t.excursion = false then t.excursions + 1 else t.excursions,
    trips := if trip ∧ t.trip = false then t.trips + 1 else t.trips,
    samples := if hot then t.samples + 1 else t.samples }

/-- The arrays of a group. -/
def groupArrays (g : Nat) : List (EngineId × ArrayId) :=
  (List.range 8).flatMap (fun k => [(BitVec.ofNat 6 (8 * g + k), false), (BitVec.ofNat 6 (8 * g + k), true)])

/-- A trip on entry: the passes in flight on the arrays of its groups are abandoned. -/
def State.tripGroups (s : State) (gs : List Nat) : State :=
  (gs.flatMap groupArrays).foldl (fun s q => effPassAbandon q.1 q.2 .thermal s) s

/-- One sensor's reading and what it begins: a THERMAL event on entry to the excursion band, and the abandonment a trip brings. A memory
device's reading is its channel's temperature in whole °C, 0 below zero (R315). (DEDUCED, assumption 135) -/
def State.readSensor (s : State) (k : Nat) (r : BitVec 16) : State :=
  let old := Tab.get ({} : Sensor) s.power.sensors k
  let new := old.read r
  let s1 := { s with power := { s.power with sensors := Tab.set {} s.power.sensors k new } }
  let s2 := if 11 ≤ k then
      { s1 with mem := { s1.mem with channels := Tab.upd {} s1.mem.channels (k - 11) (fun c =>
          { c with temperature := BitVec.ofNat 8 (r.toInt / 256).toNat }) } }
    else s1
  let s3 := s2.raiseIf (new.excursion && !old.excursion) { area := 0xC0, kind := 0x11, unit := sensorUnit k }
  if new.trip ∧ old.trip = false then s3.tripGroups (sensorGroups k) else s3

/-- Whether the sensors are read: while the module runs, and in boundary-scan mode, where a thermal shutdown still acts (R470). -/
def State.sensing (s : State) : Bool := s.start.running || s.start.testEn

/-- Every sensor read; then the duties of groups in an excursion fall by 8 and those under a trip to 0; at 115 °C the module shuts down. -/
def effTemperatureSample (readings : List (BitVec 16)) (s : State) : State :=
  if s.sensing = false then s
  else
    let s1 := (readings.take 59).zipIdx.foldl (fun s q => s.readSensor q.2 q.1) s
    let p := s1.power.mapDuty ((List.range 8).filter s1.power.excursion) (fun d => d - 8)
    let s2 := { s1 with power := p.mapDuty ((List.range 8).filter p.tripped) (fun _ => 0) }
    if (readings.take 59).any (fun r => decide (115 * 256 ≤ r.toInt)) then s2.thermalShutdown else s2

/-- TEMPERATURE_SAMPLE (R444). -/
def execTemperatureSample (readings : List (BitVec 16)) (s : State) : Host.Outcome State Fault Refusal := .next (effTemperatureSample readings s)

/-- A trip has lasted 10 ms, 1,000 samples. -/
def effThermalTripTimeout (k : Fin 59) (s : State) : State :=
  if (Tab.get ({} : Sensor) s.power.sensors k.val).tripSamples < 1000 then s else s.thermalShutdown

/-- THERMAL_TRIP_TIMEOUT (R444). -/
def execThermalTripTimeout (sensor : Fin 59) (s : State) : Host.Outcome State Fault Refusal := .next (effThermalTripTimeout sensor s)

end Sys2Proof.Machine
end

