-- ==== Sys2Proof/Machine/Sends.lean ====
section
/-!
DEFINITION. STORE and the operation port, fences, and the sends of fused chains (R183 to R186, R331, R332, R336, R476).
-/

namespace Sys2Proof.Machine

/-! ### STORE (R331, R332, R476) -/

/-- The records of an operation list, one to a 64-byte line of the buffer (R331). -/
def Engine.portRecords (x : Engine) (p ent d : Nat) : List (BitVec 512) :=
  (List.range (dRows d)).flatMap (fun r => (List.range (dLength d / 64)).map (fun l =>
    BitVec.ofNat 512 (ofLeBytes (Tab.readBytes x.scratch (partBase p + 64 * (mOffset ent + r * mPitch ent + l)) 64))))

/-- Whether a record's opcode and fields are as R331 states, its addresses aligned. -/
def recordGood (r : BitVec 512) : Bool :=
  let fence := decide (prOp r = opFence)
  decide (3 ≤ prOp r ∧ prOp r ≤ 7) && decide (bits r.toNat 503 448 = 0 ∧ bits r.toNat 191 0 = 0) &&
  decide ((prTarget r).toNat % 8 = 0 ∧ (prResult r).toNat % 16 = 0) && (!fence || (prTarget r == 0 && prOperand1 r == 0)) &&
  (decide (prOp r = opCas) || prOperand2 r == 0)

/-- The bytes of a record's result. -/
def resultLength (r : BitVec 512) : Nat := if prOp r = opFence then 8208 else 16

/-- The failures of a record: its form, the grant of its Target, the region of its ResultAddress (R332). -/
def State.recordCheck (s : State) (c : ContextId) (r : BitVec 512) : List (BitVec 8) :=
  (if recordGood r then [] else [stInvalid]) ++
  (if prOp r = opFence ∨ s.granted (s.ctxSource c) (prTarget r).toNat false then [] else [stSecurity]) ++
  (if prResult r = 0 ∨ s.regionAllows c (prResult r).toNat (resultLength r) true then [] else [stSecurity])

/-- STORE: HandleA's rows are to be written to its backing; to the operation port, its lines are the records of an operation
list, each checked before any is issued (R332, R476). -/
def effStore (e : EngineId) (c : ContextId) (s : State) : State :=
  s.issueStep e c opStore (fun s st =>
    let x := s.engine e
    let p := x.part c
    let d := st.descriptor.toNat
    let ent := x.entry p (dA d)
    if stepEmpty d then s.beginRun e c st id
    else if s.isPort ent then
      let rs := x.portRecords p ent d
      let bad := rs.flatMap (s.recordCheck c)
      if bad.isEmpty = false then s.failStep e c bad
      else (s.beginRun e c st (fun r => { r with records := rs })).pumpPort e c rs.length
    else s.beginRun e c st (fun r => { r with writes := storeWrites p ent d st.address.toNat st.generation }))

/-- STORE (R476). -/
def execStore (engine : EngineId) (context : ContextId) (s : State) : Host.Outcome State Fault Refusal :=
  .next (effStore engine context s)

/-! ### FENCE (R336) -/

/-- The operations of a context on an engine that have not completed. -/
def State.openOps (s : State) (e : EngineId) (c : ContextId) : List (Nat × Nat) :=
  s.fabric.peers.flatMap (fun q => (q.2.ops.filter (fun o => o.ofContext e c)).map (fun o => (q.1, o.id)))

/-- The FENCE record that is next in the context's operation list is issued: it counts what has not completed, and completes at
once where there is nothing. The records after it do not wait for it. (DEDUCED, assumption 100) -/
def effFence (e : EngineId) (c : ContextId) (record : BitVec 512) (s : State) : State :=
  match (s.ectx e c).portRun with
  | none => s
  | some r =>
    match r.records with
    | [] => s
    | rec' :: rest =>
      if rec' ≠ record ∨ prOp rec' ≠ opFence ∨ s.engineStopped e then s
      else
        let f : Fence := { engine := e, context := c, serial := r.serial, result := prResult rec', issuedAt := s.time.ticks,
                           counted := s.openOps e c }
        let s1 := s.setEctx e c ((s.ectx e c).updRun r.serial (fun r => { r with records := rest }))
        let s2 := { s1 with fabric := { s1.fabric with fences := s1.fabric.fences ++ [f] } }
        s2.settleFences.pumpPort e c rest.length

/-- FENCE (R336). -/
def execFence (engine : EngineId) (context : ContextId) (record : BitVec 512) (s : State) : Host.Outcome State Fault Refusal :=
  .next (effFence engine context record s)

/-- FenceTimeout has passed for the context's oldest fence: it lists every module with a counted operation not complete or not
DONE. -/
def effFenceTimeout (e : EngineId) (c : ContextId) (s : State) : State :=
  match s.fabric.fences.find? (fun f => f.engine == e && f.context == c) with
  | none => s
  | some f => if s.elapsed f.issuedAt (s.act 0x8050 4 0) = false then s else s.finishFence f (f.missing ++ f.counted.map (fun o => peerModule (s.act 0x8010 0 o.1)))

/-- FENCE_TIMEOUT (R336). -/
def execFenceTimeout (engine : EngineId) (context : ContextId) (s : State) : Host.Outcome State Fault Refusal :=
  .next (effFenceTimeout engine context s)

/-! ### Destinations (R184, R185) -/

def sdAddress (r : Nat) : Nat := bits r 255 192
def sdNotify (r : Nat) : Nat := bits r 191 128
def sdCredit (r : Nat) : Nat := bits r 127 64
def sdSlotBytes (r : Nat) : Nat := bits r 63 32
def sdSlots (r : Nat) : Nat := bits r 31 24

/-- A destination entry of a step's send table. -/
def Engine.sendEntry (x : Engine) (p d destination : Nat) : Nat :=
  match x.header p d with
  | some h => ofLeBytes (Tab.readBytes x.scratch (rowAddr p (x.entry p (hSendTable h)) 0 0 0 + 64 + 32 * destination) 32)
  | none => 0

/-- The issued steps whose send to a destination entry may go on: tiles of one destination go out step by step, while other destinations
are not held back (R185). -/
def Engine.sendRuns (x : Engine) (c : ContextId) (destination : Nat) : List (Run × SendState) :=
  let k := x.ctx c
  let goal := fun (r : Run) (i : Nat) => sdAddress (x.sendEntry (x.part c) r.step.descriptor.toNat i)
  k.runs.filterMap (fun r =>
    let q := Tab.get {} r.sends destination
    let earlier := (k.runs.takeWhile (fun o => o.serial ≠ r.serial)).any (fun o => o.sends.any (fun v => v.2.live && goal o v.1 == goal r destination))
    if q.live && !earlier then some (r, q) else none)

/-- The Sent count and the credit of a destination (R185): a credit above Slots is noted and counts as Slots; a difference
that R11 does not interpret gives none. -/
def State.sendCredit (s : State) (e : EngineId) (c : ContextId) (r : Nat) : State × W64 × Int × List (BitVec 8) :=
  let q := s.readSpan (sdCredit r) 16 (engineUnit e) (BitVec.ofNat 2 (s.ctxClass c))
  let consumed := ofLeBytes (q.2.1.take 8)
  let sent := ofLeBytes (q.2.1.drop 8)
  let bad := q.1.raise { area := 0x40, kind := 0x10, unit := engineUnit e, ctx := some c }
  (wrapDiff 64 consumed sent).elim (bad, BitVec.ofNat 64 sent, 0, q.2.2) (fun v =>
    if v < 0 then (bad, BitVec.ofNat 64 sent, sdSlots r, q.2.2)
    else (q.1, BitVec.ofNat 64 sent, (sdSlots r : Int) - v, q.2.2))

/-- The bytes of a finished tile, its rows padded to whole lines; what the pad holds is an open value (R184). -/
def Engine.tileBytes (x : Engine) (p d : Nat) (q : Pass) (pad : Byte) : List Byte :=
  let e := x.entry p (dOut d)
  let ji := x.outIndex p d q
  let eb := elemBits (mFormat e)
  let col := if mStreamed e then 0 else x.outStart p d q.n
  let width := x.outWidth p d q.n
  let n := ceilDiv (width * eb) 8
  (List.range (tileRows d q)).flatMap (fun i =>
    let a := rowAddr p e ji.1 (q.m * dM d + i) i
    leBytes n (packElems eb ((List.range width).map (fun j => x.elem a (col + j) eb))) ++ List.replicate (ceilDiv n 64 * 64 - n) pad)

/-- The lines a tile takes in its slot (R184). -/
def Engine.tileLineCount (x : Engine) (p d : Nat) (q : Pass) : Nat :=
  tileRows d q * ceilDiv (ceilDiv (x.outWidth p d q.n * elemBits (mFormat (x.entry p (dOut d)))) 8) 64

/-- The bytes of the scratchpad that a tile's send reads. -/
def Engine.tileRanges (x : Engine) (p d : Nat) (q : Pass) : List (Nat × Nat) :=
  let e := x.entry p (dOut d)
  let eb := elemBits (mFormat e)
  let col := if mStreamed e then 0 else x.outStart p d q.n
  (List.range (tileRows d q)).map (fun i =>
    (rowAddr p e (x.outIndex p d q).1 (q.m * dM d + i) i + col * eb / 8, ceilDiv (x.outWidth p d q.n * eb) 8))

/-- The pass that wrote tile t of a step, once its output is written: the last second product of band t for a Form 2 chain. -/
def Engine.writtenTile (x : Engine) (p : Nat) (c : ContextId) (r : Run) (t : Nat) : Option Pass :=
  (((x.outputTiles p c r)[t]?).filter (fun q => r.tilesDone.contains q.2)).map (·.1)

/-- The tile a send is to go on with: the one owed, once it is written. -/
def Engine.sendTile (x : Engine) (p : Nat) (c : ContextId) (destination : Nat) (v : Run × SendState) : Option Pass :=
  (x.owedTile p v.1.step.descriptor.toNat destination v.2.next).bind (x.writtenTile p c v.1)

/-- The step whose send to a destination the tender goes on with: one with lines of a tile still to issue or a written tile to begin; a
destination that waits for credit comes last. -/
def Engine.sendNext (x : Engine) (c : ContextId) (destination : Nat) : Option (Run × SendState × Pass) :=
  let p := x.part c
  let ready := (x.sendRuns c destination).filterMap (fun v => (x.sendTile p c destination v).bind (fun t =>
    if v.2.notifying ∨ (v.2.active ∧ x.tileLineCount p v.1.step.descriptor.toNat t ≤ v.2.issued) then none else some (v.1, v.2, t)))
  (ready.find? (fun v => !v.2.1.waiting)).or ready.head?

/-- The WRITE operations of a transfer: packets of at most 64 lines that cross no 4 KiB boundary (R330). `fuel` bounds them. -/
def cutPackets (address : Nat) (bytes : List Byte) : Nat → List (Nat × List Byte)
  | 0 => []
  | fuel + 1 =>
    if bytes.isEmpty then []
    else
      let n := min 4096 (4096 - address % 4096)
      (address, bytes.take n) :: cutPackets (address + n) (bytes.drop n) fuel

/-! ### SEND_TILE and what follows it (R185, R186) -/

/-- Change the send of a step to a destination. -/
def State.setSend (s : State) (e : EngineId) (c : ContextId) (serial : W16) (destination : Nat) (v : SendState) : State :=
  s.setEctx e c ((s.ectx e c).updRun serial (fun r => { r with sends := Tab.set {} r.sends destination v }))

/-- A destination is without credit, from now on if it was not yet. -/
def SendState.awaits (q : SendState) (now : Nat) : SendState := { q with waiting := true, since := if q.waiting then q.since else now }

/-- A wait for credit is over: its cycles are counted (R450). -/
def State.endWait (s : State) (e : EngineId) (q : SendState) : State :=
  if q.waiting then s.countEngine e 12 (cyclesIn (islandKHz s.vers.active (engineUnit e)) ((s.time.ticks - q.since) * 128 / 100)) else s

/-- Write lines of a tile to its slot (R185): in this module over the die networks, elsewhere as WRITE packets. They draw on the context's
allotment until they are acknowledged (R36, R38). -/
def State.writeTile (s : State) (e : EngineId) (c : ContextId) (r : Run) (destination : Nat) (q : SendState) (target : Nat)
    (bytes : List Byte) (poison : Bool) : State :=
  let inst := (s.ctxInst c).map (fun n => (n, r.step.generation))
  let cls := BitVec.ofNat 2 (s.ctxClass c)
  let n := bytes.length / 64
  let q1 : SendState := { q with active := true, waiting := false, issued := q.issued + n }
  if gaModule target = s.moduleId then
    match s.ownAddress target bytes.length with
    | none => s.stopSend e c r.serial destination [stRemoteRefused]
    | some a =>
      let s1 := (s.writeTier e (s.ctxClass c) inst poison a bytes (bytes.length / 256 + 2)).setSend e c r.serial destination
                  { q1 with lines := q.lines + n }
      let k := s1.ectx e c
      s1.setEctx e c { k with writeLines := k.writeLines + n }
  else
    match s.livePeer (gaModule target) with
    | none => (s.remoteEvent (gaModule target) stRemoteTimeout false).stopSend e c r.serial destination [stRemoteTimeout]
    | some p =>
      let ps := cutPackets target bytes (bytes.length / 4096 + 2)
      ps.foldl (fun s k =>
        let mask : W64 := if poison then BitVec.ofNat 64 (2 ^ (k.2.length / 64) - 1) else 0
        (s.issueDrawn e c p { request := 0, opcode := 2, cls, use := .send e c r.serial destination, issuedAt := 0,
                              address := BitVec.ofNat 64 k.1, payload := k.2, operand1 := mask, poison }).1)
        (s.setSend e c r.serial destination { q1 with packets := q.packets + ps.length })

/-- The tender sends the next lines of the next tile owed to a destination, when the tile is written, credit allows and the context's
allotment has room (R36, R185); words found bad are handled as detected (R186). (DEDUCED, assumption 101) -/
def effSendTile (e : EngineId) (c : ContextId) (destination : BitVec 3) (s : State) : State :=
  let x := s.engine e
  let p := x.part c
  let i := destination.toNat
  match x.sendNext c i with
  | none => s
  | some (r, q, t) =>
    let d := r.step.descriptor.toNat
    let entry := x.sendEntry p d i
    let n := min (x.tileLineCount p d t - q.issued) (s.lineRoom e c)
    let lost := r.poisonTiles.contains (if x.form2 p d then t.m else t.ordinal)
    if s.noWork ∨ s.engineStopped e ∨ s.writeAdmitted e c = false ∨ n = 0 ∨ s.pathOpen e 2 (sdAddress entry) = false then s
    else if lost = false ∧ (x.firstBad (x.tileRanges p d t)).isSome then s.readChecked e c (x.tileRanges p d t)
    else if s.granted (s.ctxSource c) (sdAddress entry) false = false ∨ s.regionAllows c (sdCredit entry) 16 true = false then
      (s.stopSend e c r.serial i [stSecurity]).failRun r stSecurity
    else
      let k := s.sendCredit e c entry
      if k.2.2.2.isEmpty = false then k.1.stopSend e c r.serial i k.2.2.2
      else if q.active = false ∧ k.2.2.1 < 1 then k.1.setSend e c r.serial i (q.awaits s.time.ticks)
      else
        let w := (k.1.endWait e q).draw
        let bytes := (((w.2.engine e).tileBytes p d t (BitVec.ofNat 8 w.1)).drop (64 * q.issued)).take (64 * n)
        let target := sdAddress entry + sdSlotBytes entry * (k.2.1.toNat % Nat.max 1 (sdSlots entry)) + 64 * q.issued
        w.2.writeTile e c r i q target bytes (lost || mState (x.entry p (dOut d)) == mPoisoned)

/-- SEND_TILE (R185). -/
def execSendTile (engine : EngineId) (context : ContextId) (destination : BitVec 3) (s : State) : Host.Outcome State Fault Refusal :=
  .next (effSendTile engine context destination s)

/-- The notify of a tile: the new Sent goes to NotifyAddress (R185). -/
def State.sendNotify (s : State) (e : EngineId) (c : ContextId) (r : Run) (destination : Nat) (q : SendState) (target : Nat) (sent : W64) :
    State :=
  let more := ((s.engine e).owedTile ((s.engine e).part c) r.step.descriptor.toNat destination q.next).isSome
  if target = 0 then s.setSend e c r.serial destination { q with live := more }
  else if s.granted (s.ctxSource c) target false = false then
    (s.stopSend e c r.serial destination [stSecurity]).failRun r stSecurity
  else if gaModule target = s.moduleId then
    match s.ownAddress target 8 with
    | none => s.stopSend e c r.serial destination [stRemoteRefused]
    | some a => (s.applyNotify a sent (engineUnit e) (BitVec.ofNat 2 (s.ctxClass c))).setSend e c r.serial destination { q with live := more }
  else
    match s.livePeer (gaModule target) with
    | none => (s.remoteEvent (gaModule target) stRemoteTimeout false).stopSend e c r.serial destination [stRemoteTimeout]
    | some p =>
      ((s.setSend e c r.serial destination { q with notifying := true }).issueDrawn e c p
        { request := 0, opcode := 6, cls := BitVec.ofNat 2 (s.ctxClass c), use := .send e c r.serial destination, issuedAt := 0,
          address := BitVec.ofNat 64 target, operand1 := sent }).1

/-- Every line issued of a tile is acknowledged, and its credits come back; when the tile is whole, Sent advances and the notify goes
out. -/
def effSendLinesAcked (e : EngineId) (c : ContextId) (destination : BitVec 3) (s : State) : State :=
  let x := s.engine e
  let p := x.part c
  let i := destination.toNat
  match (x.sendRuns c i).find? (fun v => v.2.active && v.2.packets == 0) with
  | none => s
  | some (r, q) =>
    let d := r.step.descriptor.toNat
    let entry := x.sendEntry p d i
    let whole := match x.sendTile p c i (r, q) with | some t => decide (x.tileLineCount p d t ≤ q.issued) | none => true
    let s0 := (s.returnLines e c q.lines).setSend e c r.serial i { q with lines := 0 }
    if s.engineStopped e then s
    else if whole = false ∨ (sdNotify entry ≠ 0 ∧ s0.lineRoom e c = 0) then s0
    else
      let k := s0.sendCredit e c entry
      if k.2.2.2.isEmpty = false then k.1.stopSend e c r.serial i k.2.2.2
      else
        let sent := k.2.1 + 1
        let s1 := (k.1.writeBytes (sdCredit entry + 8) (leBytes 8 sent.toNat) false (engineUnit e) (BitVec.ofNat 2 (s.ctxClass c))).1.countEngine e 11 1
        let q1 := { q with active := false, next := q.next + 1, issued := 0, lines := 0 }
        (s1.setSend e c r.serial i q1).sendNotify e c r i q1 (sdNotify entry) sent

/-- SEND_LINES_ACKED (R185). -/
def execSendLinesAcked (engine : EngineId) (context : ContextId) (destination : BitVec 3) (s : State) :
    Host.Outcome State Fault Refusal := .next (effSendLinesAcked engine context destination s)

/-- The step whose send to a destination waits for credit. -/
def Engine.sendWaiting (x : Engine) (c : ContextId) (destination : Nat) : Option (Run × SendState) :=
  (x.sendRuns c destination).find? (fun v => v.2.waiting)

/-- A destination that waits for credit has Consumed read again; with credit it no longer waits. -/
def effSendCreditReread (e : EngineId) (c : ContextId) (destination : BitVec 3) (s : State) : State :=
  let x := s.engine e
  let i := destination.toNat
  match x.sendWaiting c i with
  | none => s
  | some (r, q) =>
    if s.engineStopped e then s
    else
      let k := s.sendCredit e c (x.sendEntry (x.part c) r.step.descriptor.toNat i)
      if k.2.2.2.isEmpty = false then k.1.stopSend e c r.serial i k.2.2.2
      else if k.2.2.1 < 1 then k.1
      else (k.1.endWait e q).setSend e c r.serial i { q with waiting := false }

/-- SEND_CREDIT_REREAD (R185). -/
def execSendCreditReread (engine : EngineId) (context : ContextId) (destination : BitVec 3) (s : State) :
    Host.Outcome State Fault Refusal := .next (effSendCreditReread engine context destination s)

/-- A destination has stayed without credit for SendCreditTimeout: its unsent tiles are not sent; before then it goes on waiting (R186). -/
def effSendCreditTimeout (e : EngineId) (c : ContextId) (destination : BitVec 3) (s : State) : State :=
  match (s.engine e).sendWaiting c destination.toNat with
  | none => s
  | some (r, q) =>
    if s.elapsed q.since (s.act 0x4033 0 0) then (s.endWait e q).stopSend e c r.serial destination.toNat [stRemoteTimeout] else s

/-- SEND_CREDIT_TIMEOUT (R186). -/
def execSendCreditTimeout (engine : EngineId) (context : ContextId) (destination : BitVec 3) (s : State) :
    Host.Outcome State Fault Refusal := .next (effSendCreditTimeout engine context destination s)

end Sys2Proof.Machine
end

