-- ==== Sys2Proof/Machine/SignalCore.lean ====
section
/-!
DEFINITION. Signal cores: jobs (R254 to R257, R261), the issue of one instruction with its interlock, budget and exceptions
(R251, R256, R259, R260), loops and repeats (R252, R253).
-/

namespace Sys2Proof.Machine

/-! ### Kernel records (R258) -/

def kernelId (r : Nat) : Nat := bits r 127 120
def kernelEntry (r : Nat) : Nat := bits r 119 106
def kernelBase (r : Nat) : Nat := bits r 105 90
def kernelPerUnit (r : Nat) : Nat := bits r 89 74
def kernelMaxUnits (r : Nat) : Nat := bits r 73 58
def kernelInX (r : Nat) : Nat := bits r 57 46
def kernelInY (r : Nat) : Nat := bits r 45 34
def kernelOutPerUnit (r : Nat) : Nat := bits r 33 22
def kernelOutBase (r : Nat) : Nat := bits r 21 8
def kernelOutFixed (r : Nat) : Nat := bits r 7 0

/-- The kernel record of an identifier in the image's table. -/
def State.kernel (s : State) (k : BitVec 8) : Option Nat :=
  (s.start.kernels.map (fun p => p.2.toNat)).find? (fun r => kernelId r == k.toNat)

/-- The budget of a job (R255). -/
def kernelBudget (r units : Nat) : Nat := kernelBase r + ceilDiv (kernelPerUnit r * units) 16

/-! ### Exception codes (R259) -/

def scParity : BitVec 8 := 0x01
def scIllegal : BitVec 8 := 0x02
def scBudget : BitVec 8 := 0x03
def scAccOverflow : BitVec 8 := 0x08
def scBreakCause : BitVec 8 := 0x09

/-! ### Instruction fields (R248 to R250) -/

def scClass (w : Nat) : Nat := bits w 31 28
def scSat (w : Nat) : Bool := bit w 27
def scOp (w : Nat) : Nat := bits w 26 22

/-- The control registers a program may read, and those it may write (R249). (DEDUCED, assumption 73) -/
def controlReadable (n : Nat) : Bool := n ≤ 0x06 || n == 0x08 || n == 0x09 || n == 0x0A || n == 0x10 || n == 0x11 || n == 0x12
def controlWritable (n : Nat) : Bool := n ≤ 0x06 || n == 0x08 || n == 0x0A

/-- Whether a word is a reserved encoding: a reserved class, operation or field value, a field not zero where it must be, or
a shift, pointer or register number outside what R249 allows. -/
def scReserved (w : Nat) : Bool :=
  match scClass w with
  | 0 => decide (5 < scOp w) || bits w 13 0 != 0
  | 1 => decide (3 < scOp w) || bits w 10 0 != 0 || (scOp w == 0 && decide (39 < bits w 16 11))
  | 2 => scSat w || decide (2 < scOp w) || bits w 3 0 != 0 || (scOp w == 2 && decide (7 < bits w 15 12))
  | 3 => scSat w || decide (3 < scOp w) || bits w 17 16 != 0 || (scOp w == 2 && decide (7 < bits w 21 18))
  | 4 => decide (11 < scOp w)
  | 5 => decide (7 < scOp w) || bits w 4 0 != 0
  | 6 => scSat w || decide (8 < scOp w) || (scOp w == 0 && decide (4 < bits w 21 18))
  | 7 => scSat w || decide (1 < scOp w) || bits w 9 0 != 0 ||
         (if scOp w = 0 then !controlReadable (bits w 17 10) else !controlWritable (bits w 17 10))
  | 8 => scOp w != 0
  | _ => true

/-! ### Registers and data memories (R244, R247, R254) -/

def SignalCore.acc (c : SignalCore) (r lane : Nat) : AccLane := Tab.get {} c.a (8 * r + lane)
def SignalCore.setAcc (c : SignalCore) (r lane : Nat) (v : AccLane) : SignalCore := { c with a := Tab.set {} c.a (8 * r + lane) v }
def SignalCore.scalar (c : SignalCore) (r : Nat) : W32 := Tab.get 0 c.s r
def SignalCore.setScalar (c : SignalCore) (r : Nat) (v : W32) : SignalCore := { c with s := Tab.set 0 c.s r v }
def SignalCore.ptr (c : SignalCore) (r : Nat) : W16 := Tab.get 0 c.p r
def SignalCore.setPtr (c : SignalCore) (r : Nat) (v : W16) : SignalCore := { c with p := Tab.set 0 c.p r v }
def SignalCore.step16 (c : SignalCore) (r : Nat) : W16 := Tab.get 0 c.m r

/-- The eight lanes of a vector register. -/
def SignalCore.vec (c : SignalCore) (r : Nat) : List (BitVec 32) := (List.range 8).map (fun l => Tab.get 0 c.v (8 * r + l))

/-- Write lanes from lane 0 of a vector register. -/
def SignalCore.setVec (c : SignalCore) (r : Nat) (lanes : List (BitVec 32)) : SignalCore :=
  { c with v := (lanes.zipIdx).foldl (fun t q => Tab.set 0 t (8 * r + q.2) q.1) c.v }

/-- Write the vector results that have arrived by an elapsed cycle, in the order they were issued. -/
def SignalCore.land (c : SignalCore) (t : Nat) : SignalCore :=
  let due := c.landing.filter (fun q => decide (q.1 ≤ t))
  due.foldl (fun c q => c.setVec q.2.1 q.2.2) { c with landing := c.landing.filter (fun q => !decide (q.1 ≤ t)) }

/-- The I and Q of a lane, and a lane of them. -/
def laneI (w : BitVec 32) : Int := toSigned 16 (w.toNat % 65536)
def laneQ (w : BitVec 32) : Int := toSigned 16 (w.toNat / 65536)
def mkLane (i q : Nat) : BitVec 32 := BitVec.ofNat 32 (q % 65536 * 65536 + i % 65536)

/-- The memory address of an offset of the running job's half. -/
def SignalCore.halfBase (c : SignalCore) : Nat := match c.job with | some j => if j.high then 65536 else 0 | none => 0

/-- The 32 bytes at a pointer of X (P0 to P7) or Y memory, as eight lanes; pointers wrap within the half. -/
def SignalCore.fetchVec (c : SignalCore) (p : Nat) : List (BitVec 32) :=
  let t := if p < 8 then c.x else c.y
  let a := (c.ptr p).toNat
  (List.range 8).map (fun l => BitVec.ofNat 32 (ofLeBytes ((List.range 4).map (fun k => Tab.get 0 t (c.halfBase + (a + 4 * l + k) % 65536)))))

/-- Store eight lanes at a pointer. -/
def SignalCore.storeVec (c : SignalCore) (p : Nat) (lanes : List (BitVec 32)) : SignalCore :=
  let a := (c.ptr p).toNat
  let bytes := lanes.flatMap (fun w => leBytes 4 w.toNat)
  let put := fun (t : Tab Byte) => (bytes.zipIdx).foldl (fun t q => Tab.set 0 t (c.halfBase + (a + q.2) % 65536) q.1) t
  if p < 8 then { c with x := put c.x } else { c with y := put c.y }

/-- Reduction to 16 bits: shift, round half up, then saturate or keep the low bits (R246). -/
def reduce16 (sat : Bool) (x : Int) (sh : Nat) : Nat :=
  let y := shiftRound x sh
  ofSigned 16 (if sat then clampBits 16 y else y)

/-! ### What an instruction does -/

/-- What one issue of an instruction comes to: the core, exceptions raised, the cycles it takes and the cycles its budget check
counts, and where the next instruction is: a taken jump's target, or the one after the address `last`. -/
structure CoreStep where
  core : SignalCore
  raised : List (BitVec 8) := []
  cost : Nat := 1
  check : Nat := 1
  jump : Option (BitVec 14) := none
  skip : Nat := 0

/-- The sources of R251, by key: accumulators to read 0 to 3, to accumulate into 4 to 7, scalars 8 to 23, vectors 24 to 31. -/
def keyAcc (r : Nat) : Nat := r
def keyAccumulate (r : Nat) : Nat := 4 + r
def keyScalar (r : Nat) : Nat := 8 + r
def keyVec (r : Nat) : Nat := 24 + r

/-- The cycle at which an instruction issues: the cycle the core has come to, or that from which its sources may be read. -/
def SignalCore.issueAt (c : SignalCore) (sources : List Nat) : Nat :=
  sources.foldl (fun t k => Nat.max t (Tab.get 0 c.ready k)) c.elapsed

/-- Note that a source is ready from a cycle. -/
def SignalCore.readyAt (c : SignalCore) (k t : Nat) : SignalCore := { c with ready := Tab.set 0 c.ready k t }

/-- A vector result issued at a cycle, to be read after its latency. -/
def SignalCore.resultVec (c : SignalCore) (t latency r : Nat) (lanes : List (BitVec 32)) : SignalCore :=
  { c with landing := c.landing ++ [(t + latency, r, lanes)] }.readyAt (keyVec r) (t + latency)

/-- The next address after the instruction at `last`, with the end of each active loop level detected, innermost first
(R252); levels a handler suspends are not (R260). (DEDUCED, assumption 71) -/
def SignalCore.after (c : SignalCore) (last : Nat) : Nat → SignalCore
  | 0 => { c with pc := BitVec.ofNat 14 (last + 1) }
  | fuel + 1 =>
    let d := c.depth.toNat
    let l := d - 1
    if d = 0 ∨ d ≤ c.suspended ∨ (Tab.get 0 c.le l).toNat ≠ last then { c with pc := BitVec.ofNat 14 (last + 1) }
    else
      let left := Tab.get 0 c.lc l - 1
      let c1 := { c with lc := Tab.set 0 c.lc l left }
      if left ≠ 0 then { c1 with pc := (Tab.get 0 c.ls l).setWidth 14 }
      else { c1 with depth := c.depth - 1 }.after last fuel

/-- Enter the handler for the lowest cause due, unless a handler or a repeat is in progress; the others are held (R259, R260). -/
def SignalCore.deliver (entry : BitVec 14) (raised : List (BitVec 8)) (c : SignalCore) : SignalCore :=
  let due := (c.held ++ raised).eraseDups
  if due.isEmpty ∨ c.inHandler ∨ c.rep.isSome then { c with held := due }
  else
    let low := due.foldl (fun a b => if b.toNat < a.toNat then b else a) (due.headD 0)
    { c with epc := c.pc.setWidth 32, cause := low, inHandler := true, suspended := c.depth.toNat, pc := entry,
             elapsed := c.elapsed + 3, held := due.filter (fun q => q != low), lastCause := low,
             lastEpc := c.pc.setWidth 16 }

/-! ### Jobs that fail (R261, R413) -/

/-- Free the half of a job. -/
def SignalCore.freeHalf (c : SignalCore) (j : Job) : SignalCore :=
  { c with busyHalf := c.busyHalf &&& (if j.high then 1 else 2) }

/-- Late work of a core has ended: its island's next start no longer waits (R82). -/
def State.coreIdle (s : State) (n : Fin 48) : State :=
  s.setIsland (coreUnit n) { s.island (coreUnit n) with waitsForLate := false }

/-- A job fails: an event names the core, the kernel, EPC and the cause, and an undecided uplink PDU reads NOT_DECODED. Three
failures with PARITY, the first and third within SoundingWindow, quarantine the core (R261, R413). (DEDUCED, assumption 75) -/
def State.jobFails (s : State) (n : Fin 48) (j : Job) (epc : W16) (cause : BitVec 8) (kind : Nat) (st : BitVec 8) : State :=
  let c := s.core n
  let times := if cause = scParity then lastN 3 (c.parityTimes ++ [s.time.seconds.toNat]) else c.parityTimes
  let out : Bool := cause == scParity && times.length == 3 &&
    decide (times.getLastD 0 - times.headD 0 ≤ s.act 0xA031 0 0) && c.health != .quarantined
  let c1 := { c.freeHalf j with failed := c.failed + 1, parityTimes := times, lastCause := cause, lastEpc := epc,
                                health := if out then .quarantined else c.health }
  let what := [(8, j.request.kernel.toNat), (16, epc.toNat), (8, cause.toNat)]
  let s1 := (s.setCore n c1).raise { area := 0x50, kind, unit := coreUnit n, status := st, ctx := some j.request.owner, detail := what }
  let s2 := s1.raiseIf out { area := 0xA0, kind := 0x12, unit := coreUnit n, status := stQuarantined }
  match (s2.cell j.request.cell).plans.find? (fun p => p.slot % 2 ^ 32 == j.request.slotLow.toNat) with
  | none => s2
  | some p => s2.updPlan j.request.cell p.slot (fun p => p.updPdu j.request.pdu.toNat (fun d =>
      if pdUplink d.record.toNat && !d.decided then { d with tb := .notDecoded } else d))

/-- The kind of the event of a failed job: uncorrectable data for a parity failure, else a state change (R398). -/
def failKind (cause : BitVec 8) : Nat := if cause = scParity then 0x06 else 0x10

/-- A fatal exception ends the running job (R261). -/
def State.failRunning (s : State) (n : Fin 48) (cause : BitVec 8) : State :=
  let c := s.core n
  match c.job with
  | none => s
  | some j =>
    (((s.setCore n { c with job := none, rep := none, held := [] }).coreIdle n).jobFails n j (c.pc.setWidth 16) cause (failKind cause) 0)

/-! ### One instruction (R251, R256, R259) -/

/-- Issue an instruction up to `count` times: wait for its sources, check the budget, act. The flag is a fatal cause that
came in place of an issue. -/
def SignalCore.issueTimes (budget : Nat) (sources : List Nat) (f : Nat → SignalCore → CoreStep) :
    Nat → SignalCore → List (BitVec 8) → Option (BitVec 8) × List (BitVec 8) × CoreStep
  | 0, c, raised => (none, raised, { core := c })
  | k + 1, c, raised =>
    let t := c.issueAt sources
    let r := f t (c.land t)
    if r.raised.contains scIllegal then (some scIllegal, raised, { core := c })
    else if budget < t + r.check then (some scBudget, raised, { core := c })
    else
      let c1 := { r.core with elapsed := t + r.cost }
      if k = 0 then (none, raised ++ r.raised, { r with core := c1 })
      else c1.issueTimes budget sources f k (raised ++ r.raised)

/-- A word reaches the issue of a core that runs a job: it must be the word its program memory holds there, when an image was
loaded. A reserved word, or one a repeat may not hold, is ILLEGAL; a word of another instruction is not this command's. Then it
issues, as often as a repeat asks; the next address follows, and exceptions are delivered. (DESIGN CHOICE, assumption 69) -/
def State.runWord (s : State) (n : Fin 48) (word : BitVec 32) (cls op : Nat) (sources : List Nat)
    (f : Nat → SignalCore → CoreStep) : State :=
  let c := s.core n
  let w := word.toNat
  match c.job with
  | none => s
  | some j =>
    if s.noWork ∨ c.stopped ∨ (c.program ≠ [] ∧ Tab.get 0 c.program c.pc.toNat ≠ word) then s
    else if scReserved w then s.failRunning n scIllegal
    else if scClass w ≠ cls ∨ scOp w ≠ op then s
    else if c.rep.isSome ∧ (cls = 6 ∨ cls = 7) then s.failRunning n scIllegal
    else
      let r := c.issueTimes j.budget sources f (c.rep.getD 1) []
      match r.1 with
      | some cause => (s.setCore n r.2.2.core).failRunning n cause
      | none =>
        let o := r.2.2
        let c1 := if c.rep.isSome then { o.core with rep := none } else o.core
        let c2 := match o.jump with
          | some target => { c1 with pc := target }
          | none => c1.after (c.pc.toNat + o.skip) 2
        s.setCore n (if c2.job.isNone then c2 else c2.deliver s.start.handlerEntry r.2.1)

/-! ### Job input and start (R254, R255) -/

/-- The core's DMA engine places a job's inputs in a free half (R254). -/
def effJobInputDma (n : Fin 48) (q : JobRequest) (xData yData : List Byte) (poisoned : Bool) (s : State) : State :=
  let c := s.core n
  match s.kernel q.kernel with
  | none => s
  | some r =>
    let half : BitVec 2 := if c.nextHigh then 2 else 1
    if s.noWork ∨ c.stopped ∨ c.health ≠ .inService ∨ c.loaded.isSome ∨ c.busyHalf &&& half ≠ 0 ∨ kernelMaxUnits r < q.units.toNat then s
    else
      let xs := xData.take (kernelInX r * q.units.toNat)
      let ys := yData.take (kernelInY r * q.units.toNat)
      let base := if c.nextHigh then 65536 else 0
      let j : Job := { request := q, budget := kernelBudget r q.units.toNat, xIn := xs, yIn := ys, high := c.nextHigh, poisoned }
      s.setCore n { c with x := Tab.writeBytes c.x base xs, y := Tab.writeBytes c.y base ys, loaded := some j,
                           nextHigh := !c.nextHigh, busyHalf := c.busyHalf ||| half }

/-- JOB_INPUT_DMA (R254). -/
def execJobInputDma (core : Fin 48) (job : JobRequest) (xData yData : List Byte) (poisoned : Bool) (s : State) :
    Host.Outcome State Fault Refusal := .next (effJobInputDma core job xData yData poisoned s)

/-- A core at a job's first cycle: registers zero, scalars loaded (R244, R254). -/
def SignalCore.begin (c : SignalCore) (j : Job) (entry cycle : Nat) : SignalCore :=
  let q := j.request
  let scalars : List W32 := [q.units.setWidth 32, q.cell.setWidth 32, q.slotLow, q.pdu.setWidth 32,
    BitVec.ofNat 32 (bits q.args.toNat 31 0), BitVec.ofNat 32 (bits q.args.toNat 63 32),
    BitVec.ofNat 32 (bits q.args.toNat 95 64), BitVec.ofNat 32 (bits q.args.toNat 127 96)]
  { c with v := [], landing := [], a := [], p := [], m := [], s := (scalars.zipIdx).foldl (fun t v => Tab.set 0 t v.2 v.1) [],
           eq := false, lt := false, link := none, ls := [], le := [], lc := [], depth := 0, suspended := 0, epc := 0, cause := 0,
           accTrap := false, inHandler := false, held := [], pc := BitVec.ofNat 14 entry, elapsed := 0, ready := [], rep := none,
           job := some { j with ends := ((cycle + j.budget : Nat) : Int) } }

/-- The window in effect at a core that gives it work of an owner (R255). -/
def State.coreWindow (s : State) (n : Fin 48) (owner : ContextId) : Option ListEntry :=
  (s.openWindow (coreUnit n)).filter (fun l => winClass l.win == 0 && winOwner l.win == owner.toNat)

/-- A loaded job starts when its window, budget and inputs allow; one with a poisoned input never starts and fails (R255, R261). -/
def effJobStart (n : Fin 48) (cycle : Nat) (s : State) : State :=
  let c := s.core n
  match c.loaded with
  | none => s
  | some j =>
    if s.noWork ∨ c.stopped then s
    else if j.poisoned then (s.setCore n { c with loaded := none }).jobFails n j 0 0 0x05 stPoisoned
    else
      match s.coreWindow n j.request.owner, s.kernel j.request.kernel with
      | some l, some r =>
        if s.mayStart ∧ c.job.isNone ∧ c.health = .inService ∧ (s.island (coreUnit n)).waitsForLate = false ∧ l.fits j.budget cycle then
          s.setCore n ({ c with loaded := none }.begin j (kernelEntry r) cycle)
        else s
      | _, _ => s

/-- JOB_START (R255). -/
def execJobStart (core : Fin 48) (cycle : BitVec 40) (s : State) : Host.Outcome State Fault Refusal := .next (effJobStart core cycle.toNat s)

/-! ### Output, re-run, reload (R257, R261) -/

/-- Bytes of X memory from an offset of a half. -/
def SignalCore.output (c : SignalCore) (j : Job) (r : Nat) : List Byte :=
  let base := if j.high then 65536 else 0
  Tab.readBytes c.x (base + kernelOutBase r * 4) (kernelOutFixed r * 4 + kernelOutPerUnit r * j.request.units.toNat)

/-- A stage's result for its PDU, which the next stage takes (R226, R233). -/
def State.stageDone (s : State) (j : Job) (free : Nat) : State :=
  match (s.cell j.request.cell).plans.find? (fun p => p.slot % 2 ^ 32 == j.request.slotLow.toNat) with
  | none => s
  | some p => s.updPlan j.request.cell p.slot (fun p => p.updPdu j.request.pdu.toNat (fun d => d.stageDone j free))

/-- The output of the oldest committed job leaves the core: an SRS estimate goes to the PDU's AuxAddress (R236); a PUCCH
decoded without a polar block takes its bits (R232); what the downlink stages write goes to the fronthaul block, which
DL_PAYLOAD_COMPLETE carries; any other stage's output goes to near memory, where the manual does not say (R257). The PDU's stage has its result. -/
def effJobOutputWrite (n : Fin 48) (s : State) : State :=
  let c := s.core n
  match c.done with
  | [] => s
  | j :: rest =>
    match s.kernel j.request.kernel with
    | none => s
    | some r =>
      let bytes := c.output j r
      let f := s.draw
      let s1 := (f.2.setCore n { c.freeHalf j with done := rest }).stageDone j f.1
      let k := j.request.kernel.toNat
      let plan := (s1.cell j.request.cell).plans.find? (fun p => p.slot % 2 ^ 32 == j.request.slotLow.toNat)
      let d := plan.bind (fun p => p.pdus[j.request.pdu.toNat]?)
      if k = 0x0C then
        match d with
        | some d => s1.post { source := .provider, address := pdAux d.record.toNat, bytes, purpose := .radio }
        | none => s1
      else if k = 0x0B then
        match plan with
        | some p => s1.updPlan j.request.cell p.slot (fun p => p.updPdu j.request.pdu.toNat (fun d =>
            if d.cbTotal = 0 && !d.decided then { d with tb := .crcPass, bits := Tab.set [] d.bits 0 bytes } else d))
        | none => s1
      else if k = 0x08 ∨ k = 0x09 ∨ k = 0x0A then s1
      else
        let q := s1.draw
        if s.ranHalf = 0 then q.2 else q.2.writeRan (s.ranPlace q.1) bytes (coreUnit n)

/-- JOB_OUTPUT_WRITE (R257). -/
def execJobOutputWrite (core : Fin 48) (s : State) : Host.Outcome State Fault Refusal := .next (effJobOutputWrite core s)

/-- A parity detect on a core abandons its job; in program memory the core also enters RELOADING. A job that was itself a
re-run fails (R261). (DEDUCED, assumption 76) -/
def State.detectParity (s : State) (n : Fin 48) (inProgram : Bool) : State :=
  let c := s.core n
  match c.job with
  | none => s
  | some j =>
    let s1 := if inProgram then s.setCore n { c with health := if c.health = .inService then .reloading else c.health } else s
    if j.rerun then s1.failRunning n scParity
    else
      let c1 := { (s1.core n).freeHalf j with job := none, rep := none, held := [], abandoned := some j, lastCause := scParity,
                                              lastEpc := c.pc.setWidth 16 }
      (s1.setCore n c1).coreIdle n

/-- A detect on a core's running job, and the re-run of an abandoned job on a core that an open window of the same owner names (R56), under
the re-run allowance of R78: its inputs are placed again and it starts (R261). -/
def effJobRerun (n from' : Fin 48) (inProgram : Bool) (cycle : Nat) (s0 : State) : State :=
  if s0.noWork ∨ (s0.core from').stopped then s0
  else
    let s := s0.detectParity from' inProgram
    match (s.core from').abandoned with
    | none => s
    | some j =>
      let c := s.core n
      let half : BitVec 2 := if c.nextHigh then 2 else 1
      match s.openWindow (coreUnit n), s.kernel j.request.kernel with
      | some l, some r =>
        if s.mayStart = false ∨ winOwner l.win ≠ j.request.owner.toNat ∨ l.maxPass < j.budget ∨ c.job.isSome ∨ c.health ≠ .inService ∨ c.stopped ∨
           c.busyHalf &&& half ≠ 0 then s
        else
          let s1 := s.setCore from' { s.core from' with abandoned := none }
          let c1 := s1.core n
          let base := if c1.nextHigh then 65536 else 0
          let c2 := { c1 with x := Tab.writeBytes c1.x base j.xIn, y := Tab.writeBytes c1.y base j.yIn, nextHigh := !c1.nextHigh,
                              busyHalf := c1.busyHalf ||| half }
          s1.setCore n (c2.begin { j with rerun := true, high := c1.nextHigh } (kernelEntry r) cycle)
      | _, _ => s

/-- JOB_RERUN (R261). -/
def execJobRerun (core from' : Fin 48) (inProgram : Bool) (cycle : BitVec 40) (s : State) : Host.Outcome State Fault Refusal :=
  .next (effJobRerun core from' inProgram cycle.toNat s)

/-- PROGRAM_RELOAD_COMPLETE (R261): the core returns to IN_SERVICE after its 2,048 cycles. -/
def execProgramReloadComplete (core : Fin 48) (s : State) : Host.Outcome State Fault Refusal :=
  .next (if (s.core core).health = .reloading then s.setCore core { s.core core with health := .inService } else s)

end Sys2Proof.Machine
end

