-- ==== Sys2Proof/Machine/SignalOps.lean ====
section
/-!
DEFINITION. The instructions of the signal cores (R245, R246, R249, R250, R252, R253, R257, R260).
-/

namespace Sys2Proof.Machine

/-! ### Classes CMAC and ACC (R245, R246, R249) -/

/-- Add to an accumulator component: saturated or wrapped, and whether it overflowed (R245). -/
def addAcc (sat : Bool) (old : BitVec 40) (d : Int) : BitVec 40 × Bool :=
  let x := old.toInt + d
  let overflow : Bool := decide (x < -(2 ^ 39) ∨ 2 ^ 39 - 1 < x)
  (if sat then BitVec.ofInt 40 (clampBits 40 x) else BitVec.ofInt 40 x, overflow)

/-- The exact complex product of two lanes, the first conjugated or not (R245). -/
def cmulExact (conj : Bool) (a b : BitVec 32) : Int × Int :=
  let q := if conj then -laneQ a else laneQ a
  (laneI a * laneI b - q * laneQ b, laneI a * laneQ b + q * laneI b)

/-- One lane of a CMAC-class operation, by its Op (0 CMUL, 1 CMAC, 2 CMULJ, 3 CMACJ, 4 CMSU, 5 CSQ), with the overflows. -/
def macLane (op : Nat) (sat : Bool) (acc : AccLane) (a b : BitVec 32) : AccLane × Nat :=
  let z := cmulExact (op == 2 || op == 3) a b
  let add := fun (x y : Int) =>
    let i := addAcc sat acc.i x
    let q := addAcc sat acc.q y
    (({ i := i.1, q := q.1 } : AccLane), b2n i.2 + b2n q.2)
  match op with
  | 0 | 2 => ({ i := BitVec.ofInt 40 z.1, q := BitVec.ofInt 40 z.2 }, 0)
  | 1 | 3 => add z.1 z.2
  | 4 => add (-z.1) (-z.2)
  | _ =>
    let i := addAcc sat acc.i (laneI a * laneI a + laneQ a * laneQ a)
    ({ acc with i := i.1 }, b2n i.2)

/-- Count overflows, and the exception they raise when AccTrap is set (R245). -/
def SignalCore.overflowed (c : SignalCore) (k : Nat) : SignalCore × List (BitVec 8) :=
  ({ c with overflows := c.overflows + BitVec.ofNat 32 k }, if c.accTrap && k != 0 then [scAccOverflow] else [])

/-- A CMAC-class operation on all eight lanes, issued at a cycle; its result may be read after 2 cycles and accumulated into
after 1 (R251). -/
def SignalCore.mac (c : SignalCore) (op : Nat) (sat : Bool) (acc va vb t : Nat) : SignalCore × List (BitVec 8) :=
  let rs := ((c.vec va).zip (c.vec vb)).zipIdx.map (fun q => (q.2, macLane op sat (c.acc acc q.2) q.1.1 q.1.2))
  let c1 := rs.foldl (fun (c : SignalCore) q => c.setAcc acc q.1 q.2.1) c
  ((c1.readyAt (keyAcc acc) (t + 2)).readyAt (keyAccumulate acc) (t + 1)).overflowed (rs.foldl (fun a q => a + q.2.2) 0)

/-- A CMAC-class row (R249). -/
def State.macRow (s : State) (n : Fin 48) (word : BitVec 32) (op : Nat) : State :=
  let w := word.toNat
  let acc := bits w 21 20
  let va := bits w 19 17
  let vb := bits w 16 14
  let sources := (if op = 0 ∨ op = 2 then [] else [keyAccumulate acc]) ++ [keyVec va] ++ (if op = 5 then [] else [keyVec vb])
  s.runWord n word 0 op sources (fun t c =>
    let r := c.mac op (scSat w) acc va vb t
    { core := r.1, raised := r.2 })

/-- The eight accumulator lanes of a register. -/
def SignalCore.accs (c : SignalCore) (r : Nat) : List AccLane := (List.range 8).map (fun l => c.acc r l)

/-- Write all lanes of an accumulator. -/
def SignalCore.setAccs (c : SignalCore) (r : Nat) (v : List AccLane) : SignalCore :=
  v.zipIdx.foldl (fun (c : SignalCore) q => c.setAcc r q.2 q.1) c

/-- An accumulator result readable, and open to accumulation, from a cycle. -/
def SignalCore.readyAccAt (c : SignalCore) (r t : Nat) : SignalCore := (c.readyAt (keyAcc r) t).readyAt (keyAccumulate r) t

/-- ACCRD: each component of each lane reduced to 16 bits (R246). -/
def opAccrd (w t : Nat) (c : SignalCore) : CoreStep :=
  let sh := bits w 16 11
  { core := c.resultVec t 2 (bits w 19 17) ((c.accs (bits w 21 20)).map (fun a =>
      mkLane (reduce16 (scSat w) a.i.toInt sh) (reduce16 (scSat w) a.q.toInt sh))) }

/-- ACCZ. -/
def opAccz (w t : Nat) (c : SignalCore) : CoreStep :=
  let r := bits w 21 20
  { core := (c.setAccs r (List.replicate 8 {})).readyAccAt r (t + 1) }

/-- ACCLD: the vector times 2^15, exact. -/
def opAccld (w t : Nat) (c : SignalCore) : CoreStep :=
  let r := bits w 21 20
  let lanes := (c.vec (bits w 19 17)).map (fun v =>
    ({ i := BitVec.ofInt 40 (laneI v * 2 ^ 15), q := BitVec.ofInt 40 (laneQ v * 2 ^ 15) } : AccLane))
  { core := (c.setAccs r lanes).readyAccAt r (t + 1) }

/-- ARSUM: lane 0 takes the sum of the eight lanes under R245, the others zero. (DEDUCED, assumption 74) -/
def opArsum (w t : Nat) (c : SignalCore) : CoreStep :=
  let r := bits w 21 20
  let i := addAcc (scSat w) 0 ((c.accs r).foldl (fun a q => a + q.i.toInt) 0)
  let q := addAcc (scSat w) 0 ((c.accs r).foldl (fun a q => a + q.q.toInt) 0)
  let c1 := (c.setAccs r (({ i := i.1, q := q.1 } : AccLane) :: List.replicate 7 {})).readyAccAt r (t + 2)
  let o := c1.overflowed (b2n i.2 + b2n q.2)
  { core := o.1, raised := o.2 }

/-! ### Classes MEM, ADDR and MACLD (R249, R250) -/

/-- A pointer advanced by the signed value of a step register, modulo 2^16, when a bit asks for it. -/
def SignalCore.modify (c : SignalCore) (on : Bool) (p m : Nat) : SignalCore := if on then c.setPtr p (c.ptr p + c.step16 m) else c

/-- LD. -/
def opLd (w t : Nat) (c : SignalCore) : CoreStep :=
  let p := bits w 15 12
  { core := (c.resultVec t 3 (bits w 21 19) (c.fetchVec p)).modify (bit w 8) p (bits w 6 4) }

/-- ST. -/
def opSt (w _ : Nat) (c : SignalCore) : CoreStep :=
  let p := bits w 15 12
  { core := (c.storeVec p (c.vec (bits w 21 19))).modify (bit w 8) p (bits w 6 4) }

/-- LD2: X through the first pointer, Y through the second; when both name one register the Y load is written last. -/
def opLd2 (w t : Nat) (c : SignalCore) : CoreStep :=
  let p := bits w 15 12
  let q := 8 + bits w 11 9
  let x := c.fetchVec p
  let y := c.fetchVec q
  let c1 := (c.resultVec t 3 (bits w 21 19) x).resultVec t 3 (bits w 18 16) y
  { core := (c1.modify (bit w 8) p (bits w 6 4)).modify (bit w 7) q (bits w 6 4) }

/-- SETP. -/
def opSetp (w _ : Nat) (c : SignalCore) : CoreStep := { core := c.setPtr (bits w 21 18) (BitVec.ofNat 16 (bits w 15 0)) }

/-- ADDP. -/
def opAddp (w _ : Nat) (c : SignalCore) : CoreStep :=
  { core := c.setPtr (bits w 21 18) (c.ptr (bits w 21 18) + BitVec.ofNat 16 (bits w 15 0)) }

/-- SETM. -/
def opSetm (w _ : Nat) (c : SignalCore) : CoreStep :=
  { core := { c with m := Tab.set 0 c.m (bits w 21 18) (BitVec.ofNat 16 (bits w 15 0)) } }

/-- MOVPS. -/
def opMovps (w _ : Nat) (c : SignalCore) : CoreStep :=
  { core := c.setPtr (bits w 21 18) ((c.scalar (bits w 3 0)).setWidth 16) }

/-- The Op of class CMAC that a MacOp of MACLD names (R250). -/
def macOpOf : Nat → Nat
  | 0 => 2
  | 1 => 3
  | 2 => 1
  | _ => 5

/-- MACLD: the MAC reads its vectors as they stand at issue; the loads are written 3 cycles later, Y last (R250). (DEDUCED, assumption 70) -/
def opMacld (w t : Nat) (c : SignalCore) : CoreStep :=
  let px := bits w 11 9
  let py := 8 + bits w 8 6
  let x := c.fetchVec px
  let y := c.fetchVec py
  let r := c.mac (macOpOf (bits w 19 18)) (scSat w) (bits w 21 20) (bits w 17 15) (bits w 14 12) t
  let c1 := (r.1.resultVec t 3 (4 + bits w 5 4) x).resultVec t 3 (4 + bits w 3 2) y
  let c2 := if bit w 1 then c1.setPtr px (c1.ptr px + 32) else c1
  let c3 := if bit w 0 then c2.setPtr py (c2.ptr py + 32) else c2
  { core := c3, raised := r.2 }

/-! ### Class SCALAR (R249) -/

/-- A scalar result, readable after a latency. -/
def SignalCore.resultScalar (c : SignalCore) (t latency r : Nat) (v : W32) : SignalCore :=
  (c.setScalar r v).readyAt (keyScalar r) (t + latency)

/-- A scalar row of two sources Sa and Sb. -/
def State.scalarRow (s : State) (n : Fin 48) (word : BitVec 32) (op latency : Nat) (f : W32 → W32 → W32) : State :=
  let w := word.toNat
  s.runWord n word 4 op [keyScalar (bits w 17 14), keyScalar (bits w 13 10)] (fun t c =>
    { core := c.resultScalar t latency (bits w 21 18) (f (c.scalar (bits w 17 14)) (c.scalar (bits w 13 10))) })

/-! ### Class LANE (R246, R249) -/

/-- A lane row: the result's lanes from those of Va and Vb. -/
def State.laneRow (s : State) (n : Fin 48) (word : BitVec 32) (op : Nat) (sources : List Nat)
    (f : List (BitVec 32) → List (BitVec 32) → List (BitVec 32)) : State :=
  let w := word.toNat
  s.runWord n word 5 op sources (fun t c => { core := c.resultVec t 2 (bits w 21 19) (f (c.vec (bits w 18 16)) (c.vec (bits w 15 13))) })

def laneVa (word : BitVec 32) : Nat := keyVec (bits word.toNat 18 16)
def laneVb (word : BitVec 32) : Nat := keyVec (bits word.toNat 15 13)

/-! ### Class CTRL (R249, R252, R253, R257, R260) -/

/-- Whether a branch's condition holds. -/
def SignalCore.condition (c : SignalCore) : Nat → Bool
  | 0 => true
  | 1 => c.eq
  | 2 => !c.eq
  | 3 => c.lt
  | _ => !c.lt

/-- A taken branch out of the innermost active body ends that level (R252). -/
def SignalCore.leaveBody (c : SignalCore) (target : Nat) : SignalCore :=
  let d := c.depth.toNat
  let l := d - 1
  if d = 0 ∨ d ≤ c.suspended ∨ ((Tab.get 0 c.ls l).toNat ≤ target ∧ target ≤ (Tab.get 0 c.le l).toNat) then c
  else { c with depth := c.depth - 1 }

/-- B. -/
def opB (w _ : Nat) (c : SignalCore) : CoreStep :=
  if c.condition (bits w 21 18) then
    { core := c.leaveBody (bits w 13 0), cost := 3, check := 3, jump := some (BitVec.ofNat 14 (bits w 13 0)) }
  else { core := c }

/-- CALL: ILLEGAL while a return is outstanding. -/
def opCall (w _ : Nat) (c : SignalCore) : CoreStep :=
  if c.link.isSome then { core := c, raised := [scIllegal] }
  else { core := { c with link := some (c.pc + 1) }, cost := 3, check := 3, jump := some (BitVec.ofNat 14 (bits w 13 0)) }

/-- RET, to the link register; with no return outstanding the manual gives no address, and one is left open. (DESIGN CHOICE, assumption 72) -/
def opRet (free _ _ : Nat) (c : SignalCore) : CoreStep :=
  { core := { c with link := none }, cost := 3, check := 3, jump := some (c.link.getD (BitVec.ofNat 14 free)) }

/-- The count of a LOOP or REP: from the S register or the immediate. -/
def SignalCore.countOf (c : SignalCore) (w immediate : Nat) : Nat :=
  if bit w 21 then (c.scalar (bits w 20 17)).toNat else immediate

/-- LOOP (R252): ILLEGAL at depth 2, for an inner body not within the outer one, or a count above 65,535; a count of zero
skips the body. -/
def opLoop (w _ : Nat) (c : SignalCore) : CoreStep :=
  let len := bits w 16 12 + 1
  let count := c.countOf w (bits w 11 0)
  let first := c.pc.toNat + 1
  let last := c.pc.toNat + len
  let d := c.depth.toNat
  let outside : Bool := d == 1 && (decide (first < (Tab.get 0 c.ls 0).toNat) || decide ((Tab.get 0 c.le 0).toNat < last))
  if 2 ≤ d ∨ outside ∨ 65535 < count then { core := c, raised := [scIllegal] }
  else if count = 0 then { core := c, cost := 2, check := 2, skip := len }
  else
    { core := { c with ls := Tab.set 0 c.ls d (BitVec.ofNat 16 first), le := Tab.set 0 c.le d (BitVec.ofNat 16 last),
                       lc := Tab.set 0 c.lc d (BitVec.ofNat 16 count), depth := c.depth + 1, suspended := min c.suspended d },
      cost := 2, check := 2 }

/-- REP (R253, R256): a count above 4,096 is ILLEGAL, and a count of zero skips the instruction. -/
def opRep (w _ : Nat) (c : SignalCore) : CoreStep :=
  let count := c.countOf w (bits w 12 0)
  if 4096 < count then { core := c, raised := [scIllegal] }
  else if count = 0 then { core := c, skip := 1 }
  else { core := { c with rep := some count }, check := 1 + count }

/-- END: the job commits (R257). -/
def opEnd (_ _ : Nat) (c : SignalCore) : CoreStep :=
  match c.job with
  | some j => { core := { c with job := none, done := c.done ++ [j], committed := c.committed + 1 } }
  | none => { core := c }

/-- ERET (R260). -/
def opEret (_ _ : Nat) (c : SignalCore) : CoreStep :=
  { core := { c with inHandler := false, suspended := 0 }, cost := 3, check := 3, jump := some (c.epc.setWidth 14) }

/-! ### Class SYS (R249) -/

/-- The value of a control register. -/
def SignalCore.control (c : SignalCore) (n : Fin 48) (budget t : Nat) : Nat → W32
  | 0x00 => (Tab.get 0 c.ls 0).setWidth 32
  | 0x01 => (Tab.get 0 c.le 0).setWidth 32
  | 0x02 => (Tab.get 0 c.lc 0).setWidth 32
  | 0x03 => (Tab.get 0 c.ls 1).setWidth 32
  | 0x04 => (Tab.get 0 c.le 1).setWidth 32
  | 0x05 => (Tab.get 0 c.lc 1).setWidth 32
  | 0x06 => c.depth
  | 0x08 => c.epc
  | 0x09 => c.cause.setWidth 32
  | 0x0A => BitVec.ofNat 32 (2 * b2n c.inHandler + b2n c.accTrap)
  | 0x10 => BitVec.ofNat 32 n.val
  | 0x11 => BitVec.ofNat 32 t
  | _ => BitVec.ofNat 32 budget

/-- Write a control register. -/
def SignalCore.setControl (c : SignalCore) (v : W32) : Nat → SignalCore
  | 0x00 => { c with ls := Tab.set 0 c.ls 0 (v.setWidth 16) }
  | 0x01 => { c with le := Tab.set 0 c.le 0 (v.setWidth 16) }
  | 0x02 => { c with lc := Tab.set 0 c.lc 0 (v.setWidth 16) }
  | 0x03 => { c with ls := Tab.set 0 c.ls 1 (v.setWidth 16) }
  | 0x04 => { c with le := Tab.set 0 c.le 1 (v.setWidth 16) }
  | 0x05 => { c with lc := Tab.set 0 c.lc 1 (v.setWidth 16) }
  | 0x06 => { c with depth := v, suspended := min c.suspended v.toNat }
  | 0x08 => { c with epc := v }
  | 0x0A => { c with accTrap := v.getLsbD 0 }
  | _ => c

/-! ### The rows -/

/-- CMUL (R249). -/
def execCmul (core : Fin 48) (word : BitVec 32) (s : State) : Host.Outcome State Fault Refusal :=
  .next (s.macRow core word 0)

/-- CMAC (R249). -/
def execCmac (core : Fin 48) (word : BitVec 32) (s : State) : Host.Outcome State Fault Refusal :=
  .next (s.macRow core word 1)

/-- CMULJ (R249). -/
def execCmulj (core : Fin 48) (word : BitVec 32) (s : State) : Host.Outcome State Fault Refusal :=
  .next (s.macRow core word 2)

/-- CMACJ (R249). -/
def execCmacj (core : Fin 48) (word : BitVec 32) (s : State) : Host.Outcome State Fault Refusal :=
  .next (s.macRow core word 3)

/-- CMSU (R249). -/
def execCmsu (core : Fin 48) (word : BitVec 32) (s : State) : Host.Outcome State Fault Refusal :=
  .next (s.macRow core word 4)

/-- CSQ (R249). -/
def execCsq (core : Fin 48) (word : BitVec 32) (s : State) : Host.Outcome State Fault Refusal :=
  .next (s.macRow core word 5)

/-- ACCRD (R246). -/
def execAccrd (core : Fin 48) (word : BitVec 32) (s : State) : Host.Outcome State Fault Refusal :=
  .next (s.runWord core word 1 0 [keyAcc (bits word.toNat 21 20)] (opAccrd word.toNat))

/-- ACCZ (R249). -/
def execAccz (core : Fin 48) (word : BitVec 32) (s : State) : Host.Outcome State Fault Refusal :=
  .next (s.runWord core word 1 1 [] (opAccz word.toNat))

/-- ACCLD (R249). -/
def execAccld (core : Fin 48) (word : BitVec 32) (s : State) : Host.Outcome State Fault Refusal :=
  .next (s.runWord core word 1 2 [keyVec (bits word.toNat 19 17)] (opAccld word.toNat))

/-- ARSUM (R249). -/
def execArsum (core : Fin 48) (word : BitVec 32) (s : State) : Host.Outcome State Fault Refusal :=
  .next (s.runWord core word 1 3 [keyAcc (bits word.toNat 21 20)] (opArsum word.toNat))

/-- LD (R249). -/
def execLd (core : Fin 48) (word : BitVec 32) (s : State) : Host.Outcome State Fault Refusal :=
  .next (s.runWord core word 2 0 [] (opLd word.toNat))

/-- ST (R249). -/
def execSt (core : Fin 48) (word : BitVec 32) (s : State) : Host.Outcome State Fault Refusal :=
  .next (s.runWord core word 2 1 [keyVec (bits word.toNat 21 19)] (opSt word.toNat))

/-- LD2 (R249). -/
def execLd2 (core : Fin 48) (word : BitVec 32) (s : State) : Host.Outcome State Fault Refusal :=
  .next (s.runWord core word 2 2 [] (opLd2 word.toNat))

/-- SETP (R249). -/
def execSetp (core : Fin 48) (word : BitVec 32) (s : State) : Host.Outcome State Fault Refusal :=
  .next (s.runWord core word 3 0 [] (opSetp word.toNat))

/-- ADDP (R249). -/
def execAddp (core : Fin 48) (word : BitVec 32) (s : State) : Host.Outcome State Fault Refusal :=
  .next (s.runWord core word 3 1 [] (opAddp word.toNat))

/-- SETM (R249). -/
def execSetm (core : Fin 48) (word : BitVec 32) (s : State) : Host.Outcome State Fault Refusal :=
  .next (s.runWord core word 3 2 [] (opSetm word.toNat))

/-- MOVPS (R249). -/
def execMovps (core : Fin 48) (word : BitVec 32) (s : State) : Host.Outcome State Fault Refusal :=
  .next (s.runWord core word 3 3 [keyScalar (bits word.toNat 3 0)] (opMovps word.toNat))

/-- SC_ADD (R249). -/
def execScAdd (core : Fin 48) (word : BitVec 32) (s : State) : Host.Outcome State Fault Refusal :=
  .next (s.scalarRow core word 0 1 (fun a b => a + b))

/-- ADDI (R249). -/
def execAddi (core : Fin 48) (word : BitVec 32) (s : State) : Host.Outcome State Fault Refusal :=
  .next (s.runWord core word 4 1 [keyScalar (bits word.toNat 17 14)] (fun t c =>
    { core := c.resultScalar t 1 (bits word.toNat 21 18)
        (c.scalar (bits word.toNat 17 14) + BitVec.ofInt 32 (toSigned 10 (bits word.toNat 9 0))) }))

/-- SC_SUB (R249). -/
def execScSub (core : Fin 48) (word : BitVec 32) (s : State) : Host.Outcome State Fault Refusal :=
  .next (s.scalarRow core word 2 1 (fun a b => a - b))

/-- AND (R249). -/
def execScAnd (core : Fin 48) (word : BitVec 32) (s : State) : Host.Outcome State Fault Refusal :=
  .next (s.scalarRow core word 3 1 (fun a b => a &&& b))

/-- OR (R249). -/
def execScOr (core : Fin 48) (word : BitVec 32) (s : State) : Host.Outcome State Fault Refusal :=
  .next (s.scalarRow core word 4 1 (fun a b => a ||| b))

/-- XOR (R249). -/
def execScXor (core : Fin 48) (word : BitVec 32) (s : State) : Host.Outcome State Fault Refusal :=
  .next (s.scalarRow core word 5 1 (fun a b => a ^^^ b))

/-- SHL (R249). -/
def execShl (core : Fin 48) (word : BitVec 32) (s : State) : Host.Outcome State Fault Refusal :=
  .next (s.scalarRow core word 6 1 (fun a b => if b.toNat < 32 then a <<< b.toNat else 0))

/-- SHR (R249). -/
def execShr (core : Fin 48) (word : BitVec 32) (s : State) : Host.Outcome State Fault Refusal :=
  .next (s.scalarRow core word 7 1 (fun a b => if b.toNat < 32 then a >>> b.toNat else 0))

/-- SAR (R249). -/
def execSar (core : Fin 48) (word : BitVec 32) (s : State) : Host.Outcome State Fault Refusal :=
  .next (s.scalarRow core word 8 1 (fun a b => a.sshiftRight (min b.toNat 32)))

/-- SC_MUL (R249). -/
def execScMul (core : Fin 48) (word : BitVec 32) (s : State) : Host.Outcome State Fault Refusal :=
  .next (s.scalarRow core word 9 2 (fun a b => a * b))

/-- CMP (R249). -/
def execCmp (core : Fin 48) (word : BitVec 32) (s : State) : Host.Outcome State Fault Refusal :=
  .next (s.runWord core word 4 10 [keyScalar (bits word.toNat 17 14), keyScalar (bits word.toNat 13 10)] (fun _ c =>
    let a := c.scalar (bits word.toNat 17 14)
    let b := c.scalar (bits word.toNat 13 10)
    { core := { c with eq := a == b, lt := a.slt b } }))

/-- MOVI (R249). -/
def execMovi (core : Fin 48) (word : BitVec 32) (s : State) : Host.Outcome State Fault Refusal :=
  .next (s.runWord core word 4 11 [] (fun t c =>
    { core := c.resultScalar t 1 (bits word.toNat 21 18) (BitVec.ofInt 32 (toSigned 18 (bits word.toNat 17 0))) }))

/-- CONJ (R249). -/
def execConj (core : Fin 48) (word : BitVec 32) (s : State) : Host.Outcome State Fault Refusal :=
  .next (s.laneRow core word 0 [laneVa word] (fun a _ =>
    a.map (fun v => mkLane (v.toNat % 65536) (reduce16 (scSat word.toNat) (-laneQ v) 0))))

/-- SC_NEG (R249). -/
def execScNeg (core : Fin 48) (word : BitVec 32) (s : State) : Host.Outcome State Fault Refusal :=
  .next (s.laneRow core word 1 [laneVa word] (fun a _ =>
    a.map (fun v => mkLane (reduce16 (scSat word.toNat) (-laneI v) 0) (reduce16 (scSat word.toNat) (-laneQ v) 0))))

/-- SHIFT (R246). -/
def execShift (core : Fin 48) (word : BitVec 32) (s : State) : Host.Outcome State Fault Refusal :=
  .next (s.laneRow core word 2 [laneVa word] (fun a _ => a.map (fun v =>
    mkLane (reduce16 (scSat word.toNat) (laneI v) (bits word.toNat 9 5)) (reduce16 (scSat word.toNat) (laneQ v) (bits word.toNat 9 5)))))

/-- SC_BCAST (R249). -/
def execScBcast (core : Fin 48) (word : BitVec 32) (s : State) : Host.Outcome State Fault Refusal :=
  .next (s.laneRow core word 3 [laneVa word] (fun a _ => List.replicate 8 (a.getD (bits word.toNat 12 10) 0)))

/-- ROT (R249: lanes move up by the lane field). -/
def execRot (core : Fin 48) (word : BitVec 32) (s : State) : Host.Outcome State Fault Refusal :=
  .next (s.laneRow core word 4 [laneVa word] (fun a _ =>
    (List.range 8).map (fun l => a.getD ((l + 8 - bits word.toNat 12 10) % 8) 0)))

/-- SC_RSUM (R249). -/
def execScRsum (core : Fin 48) (word : BitVec 32) (s : State) : Host.Outcome State Fault Refusal :=
  .next (s.laneRow core word 5 [laneVa word] (fun a _ =>
    mkLane (reduce16 (scSat word.toNat) (a.foldl (fun x v => x + laneI v) 0) 0) (reduce16 (scSat word.toNat) (a.foldl (fun x v => x + laneQ v) 0) 0) ::
      List.replicate 7 0))

/-- ZERO (R249). -/
def execZero (core : Fin 48) (word : BitVec 32) (s : State) : Host.Outcome State Fault Refusal :=
  .next (s.laneRow core word 6 [] (fun _ _ => List.replicate 8 0))

/-- ADDV (R249). -/
def execAddv (core : Fin 48) (word : BitVec 32) (s : State) : Host.Outcome State Fault Refusal :=
  .next (s.laneRow core word 7 [laneVa word, laneVb word] (fun a b => (a.zip b).map (fun q =>
    mkLane (reduce16 (scSat word.toNat) (laneI q.1 + laneI q.2) 0) (reduce16 (scSat word.toNat) (laneQ q.1 + laneQ q.2) 0))))

/-- B (R249). -/
def execBranch (core : Fin 48) (word : BitVec 32) (s : State) : Host.Outcome State Fault Refusal :=
  .next (s.runWord core word 6 0 [] (opB word.toNat))

/-- CALL (R249). -/
def execCall (core : Fin 48) (word : BitVec 32) (s : State) : Host.Outcome State Fault Refusal :=
  .next (s.runWord core word 6 1 [] (opCall word.toNat))

/-- RET (R249). -/
def execRet (core : Fin 48) (word : BitVec 32) (s : State) : Host.Outcome State Fault Refusal :=
  .next (let d := s.draw
    d.2.runWord core word 6 2 [] (opRet d.1 word.toNat))

/-- LOOP (R252). -/
def execLoop (core : Fin 48) (word : BitVec 32) (s : State) : Host.Outcome State Fault Refusal :=
  .next (s.runWord core word 6 3 (if bit word.toNat 21 then [keyScalar (bits word.toNat 20 17)] else []) (opLoop word.toNat))

/-- REP (R253). -/
def execRep (core : Fin 48) (word : BitVec 32) (s : State) : Host.Outcome State Fault Refusal :=
  .next (s.runWord core word 6 4 (if bit word.toNat 21 then [keyScalar (bits word.toNat 20 17)] else []) (opRep word.toNat))

/-- What the end of a job does outside its core: late work no longer holds the island's next start, and a late one marks its slot
with WINDOW_OVERRUN; a re-run completes DONE_AFTER_RERUN, raised as an event (R82, R261). -/
def State.jobEnded (s : State) (n : Fin 48) (j : Job) : State :=
  let s1 := s.coreIdle n
  let s2 := s1.raiseIf j.rerun { area := 0x50, kind := 0x04, unit := coreUnit n, status := stRerun, ctx := some j.request.owner }
  match (s2.cell j.request.cell).plans.find? (fun p => p.slot % 2 ^ 32 == j.request.slotLow.toNat) with
  | some p => if j.late then s2.updPlan j.request.cell p.slot (fun p => { p with statuses := p.statuses ++ [stOverrun] }) else s2
  | none => s2

/-- END (R257). -/
def execScEnd (core : Fin 48) (word : BitVec 32) (s : State) : Host.Outcome State Fault Refusal :=
  .next (let s1 := s.runWord core word 6 5 [] (opEnd word.toNat)
    match (s.core core).job with
    | some j => if (s.core core).committed = (s1.core core).committed then s1 else s1.jobEnded core j
    | none => s1)

/-- ERET (R260). -/
def execEret (core : Fin 48) (word : BitVec 32) (s : State) : Host.Outcome State Fault Refusal :=
  .next (s.runWord core word 6 6 [] (opEret word.toNat))

/-- BREAK (R259). -/
def execScBreak (core : Fin 48) (word : BitVec 32) (s : State) : Host.Outcome State Fault Refusal :=
  .next (s.runWord core word 6 7 [] (fun _ c => { core := c, raised := [scBreakCause] }))

/-- SC_NOP (R249). -/
def execScNop (core : Fin 48) (word : BitVec 32) (s : State) : Host.Outcome State Fault Refusal :=
  .next (s.runWord core word 6 8 [] (fun _ c => { core := c }))

/-- MFC (R249). -/
def execMfc (core : Fin 48) (word : BitVec 32) (s : State) : Host.Outcome State Fault Refusal :=
  .next (s.runWord core word 7 0 [] (fun t c =>
    { core := c.resultScalar t 1 (bits word.toNat 21 18)
        (c.control core (match c.job with | some j => j.budget | none => 0) t (bits word.toNat 17 10)) }))

/-- MTC (R249). -/
def execMtc (core : Fin 48) (word : BitVec 32) (s : State) : Host.Outcome State Fault Refusal :=
  .next (s.runWord core word 7 1 [keyScalar (bits word.toNat 21 18)] (fun _ c =>
    { core := c.setControl (c.scalar (bits word.toNat 21 18)) (bits word.toNat 17 10) }))

/-- MACLD (R250). -/
def execMacld (core : Fin 48) (word : BitVec 32) (s : State) : Host.Outcome State Fault Refusal :=
  .next (s.runWord core word 8 0
    (if bits word.toNat 19 18 = 0 then [] else [keyAccumulate (bits word.toNat 21 20)]) (opMacld word.toNat))

end Sys2Proof.Machine
end

