-- ==== Sys2Proof/Machine/Startup.lean ====
section
/-!
DEFINITION. Start-up and the reset kinds: what survives, the boot, memory training, settings, the selection of a version, and host-ready
(R28, R30, R45, R120, R258, R312, R316, R317, R319, R384, R386, R387, R426 to R431, R435, R436, R440, R456, R465, R470).
-/

namespace Sys2Proof.Machine

/-! ### What survives (R429) -/

/-- The repair record of an array: its spare row and state, and whether it returns at the next activation (R120, R412). -/
def MatrixArray.repairs (m : MatrixArray) : MatrixArray :=
  { health := m.health, sparedRow := m.sparedRow, latency := m.latency, bySelfTest := m.bySelfTest, returning := m.returning }

/-- The repair records of every array. -/
def repairsOf (es : Tab Engine) : Tab Engine :=
  Tab.mapAll {} (fun _ (x : Engine) => { arrays := Tab.mapAll {} (fun _ m => m.repairs) x.arrays }) es

/-- A core's quarantine. -/
def SignalCore.repairs (c : SignalCore) : SignalCore :=
  if c.health = .quarantined ∨ c.health = .disabled then { health := c.health, returning := c.returning } else {}

/-- The state with everything volatile at its reset value: flash contents, fuses, the fault log, repair records, far memory, the lanes'
last measurements, the level of PERST_N and the test port stay, as does the queue of commands. (DEDUCED, assumption 136) -/
def State.wiped (s : State) : State :=
  { pending := s.pending, freeCount := s.freeCount, engines := repairsOf s.engines,
    cores := Tab.mapAll {} (fun _ c => c.repairs) s.cores,
    chr := { islands := Tab.mapAll {} (fun _ (i : Island) => { latency := i.latency }) s.chr.islands },
    mem := { far := s.mem.far, farPoison := s.mem.farPoison },
    vers := { slots := s.vers.slots, settings := s.vers.settings },
    integ := { faultLog := s.integ.faultLog },
    host := { perst := s.host.perst }, tap := s.tap,
    start := { powered := s.start.powered, modRst := s.start.modRst, klMaster := s.start.klMaster, testEn := s.start.testEn,
               images := s.start.images, fuses := s.start.fuses, revoked := s.start.revoked, debugLock := s.start.debugLock,
               integratorDigest := s.start.integratorDigest, integratorLocked := s.start.integratorLocked,
               thermalBefore := s.start.thermalBefore, thermTrip := s.start.thermTrip } }

/-- What a firmware restart keeps beside that: the time base and its objects, near memory and the links behind memory, the host link and
the instances, power and temperature, the die-to-die links, and a self-fence (R423, R429). (DEDUCED, assumption 137) -/
def State.restarted (s : State) : State :=
  let w := s.wiped
  { w with
    time := s.time, links := s.links, mem := { s.mem with regions := [], mirrorAcks := [] }, host := { s.host with windows := [], hostReady := false, radioReady := false },
    insts := Tab.mapAll {} (fun _ i => { i with scrubsLeft := 0, importing := none, histogram := [], lateRun := 0 }) s.insts,
    power := s.power, d2d := s.d2d, chr := { w.chr with periodCount := s.chr.periodCount },
    integ := { w.integ with fenced := s.integ.fenced },
    rw := s.rw.filter (fun q => decide (q.1 / (256 * 65536) / 256 = 0x20)) }

/-! ### Straps, lanes, arrays (R28, R30, R119, R120, R465) -/

/-- One lane's measurement: it replaces the last, from which a difference above 1 ns is reported (R28, R30). A lane that has never been
measured holds 0, and its first measurement is compared with none. (DESIGN CHOICE, assumption 154) -/
def State.measureLane (s : State) (u : UnitId) (ps : BitVec 32) : State :=
  let i := s.island u
  let old := i.latency.toNat
  let far : Bool := decide (old ≠ 0 ∧ (old + 1000 < ps.toNat ∨ ps.toNat + 1000 < old))
  (s.setIsland u { i with latency := ps }).raiseIf far { area := 0x30, kind := 0x10, unit := u, detail := [(32, old), (32, ps.toNat)] }

/-- The arrays' self-test at start-up, and the seeds of the sounding registers (R120, R406). -/
def State.testArrays (s : State) (found : List (EngineId × Bool × BitVec 6)) : State :=
  (arraysOf (2 ^ 64 - 1)).foldl (fun s q =>
    let m := (s.engine q.1).array q.2
    let rows := (found.filter (fun f => f.1 == q.1 && f.2.1 == q.2)).map (fun f => f.2.2.toNat)
    let r : MatrixArray × Bool := { m with testRows := rows, lfsr := Config.soundingSeed (2 * q.1.toNat + b2n q.2) }.tested
    let gone : Bool := r.1.health == .disabled && m.health != .disabled
    (s.updEngine q.1 (fun x => x.setArray q.2 r.1)).raiseIf gone
      { area := 0x40, kind := 0x12, unit := engineUnit q.1, status := stQuarantined, detail := [(1, b2n q.2)] }) s

/-! ### Memory (R312, R316, R317) -/

/-- The near channels after training, near memory zeroed. -/
def State.trainMemory (s : State) (found : StartupReport) : State :=
  let channels := (List.range 48).foldl (fun (t : Tab Channel) c =>
    let failed := found.channelsFailed.any (fun x => x.val == c)
    let again := failed || found.channelsRetried.any (fun x => x.val == c)
    Tab.set {} t c { state := if failed then .failedTraining else .inService, runs := if again then 2 else 1 }) []
  let s1 := { s with mem := { s.mem with near := [], marks := [], channels } }
  found.channelsFailed.eraseDups.foldl (fun s c => s.raise { area := 0x70, kind := 0x06, unit := channelUnit c, detail := [(8, c.val)] }) s1

/-- A far port as training finds it: ABSENT when its link does not train or its device has no volatile capacity. -/
def farFound (found : StartupReport) (n : Nat) : FarPort :=
  let capacity := found.farCapacity.getD n 0
  let width := found.farWidth.getD n 0
  if capacity = 0 ∨ width = 0 then {}
  else { state := .up, width, fast := found.farSpeed.getD n false, capacity }

/-- The mapping of the far tier under FarMode, in units of 256 MiB: 4 TiB in all. -/
def State.mapFar (s : State) : State :=
  let p := fun (n : Nat) => Tab.get {} s.mem.farPorts n
  let cap := fun (n : Nat) => if (p n).state = .absent then 0 else (p n).capacity.toNat
  let wanted : Bool := s.obj 0x7041 0 0 == 1
  let both : Bool := cap 0 != 0 && cap 1 != 0
  let m := min (min (cap 0) (cap 1)) 8192
  let m0 := if wanted && both then m else min (cap 0) 16384
  let m1 := if wanted && both then m else min (cap 1) (16384 - m0)
  let t := Tab.set {} (Tab.set {} s.mem.farPorts 0 { p 0 with mapped := BitVec.ofNat 32 m0 }) 1 { p 1 with mapped := BitVec.ofNat 32 m1 }
  { s with mem := { s.mem with farPorts := t, interleaved := wanted && both } }.raiseIf (wanted && !both) { area := 0x70, kind := 0x10 }

/-- The far ports: trained anew, except at a firmware restart those that are up. -/
def State.trainFar (s : State) (found : StartupReport) : State :=
  let one := fun (t : Tab FarPort) (n : Nat) => if (Tab.get {} t n).state = .up then t else Tab.set {} t n (farFound found n)
  ({ s with mem := { s.mem with farPorts := one (one s.mem.farPorts 0) 1 } }).mapFar

/-! ### Settings (R319, R387) -/

/-- The verifying settings record of the higher count. -/
def Versions.bestSettings (v : Versions) : Option Settings :=
  let a := Tab.get ({} : Settings) v.settings 0
  let b := Tab.get ({} : Settings) v.settings 1
  if a.verified ∧ b.verified then some (if a.count.toNat < b.count.toNat then b else a)
  else if a.verified then some a
  else if b.verified then some b
  else none

/-- The persistent objects take what the record holds, or their defaults, and the incarnation advances and is stored. -/
def State.loadSettings (s : State) : State :=
  let s1 := match s.vers.bestSettings with
    | some (r : Settings) =>
      { s with rw := r.values.foldl (fun (t : Tab Nat) (q : Nat × Nat) => Tab.set 0 t q.1 q.2) s.rw,
               fabric := { s.fabric with incarnation := r.incarnation },
               integ := { s.integ with expelled := r.expelled, lastSequence := r.lastSequence, managerKeys := r.managerKeys, quorum := r.quorum } }
    | none => s.raise { area := 0x10, kind := 0x10, unit := controlUnit }
  ({ s1 with fabric := { s1.fabric with incarnation := s1.fabric.incarnation + 1 } }).storeSettings

/-! ### The version (R386) -/

/-- The candidates, the higher number first. -/
def Versions.candidates (v : Versions) : List ConfigSlot :=
  let order := if lower32 (v.slot 0).number (v.slot 1).number then [1, 0] else [0, 1]
  (order.map v.slot).filter ConfigSlot.good

/-- The higher of the numbers in the two headers, valid or not. -/
def Versions.highestNumber (v : Versions) : W32 :=
  if lower32 (v.slot 0).number (v.slot 1).number then (v.slot 1).number else (v.slot 0).number

/-- What start-up makes active: the body, its number, whether it is stored, the previous version with its number, whether the newest was
passed over, and the fault found in it. -/
structure Selection where
  body : Tab Nat := []
  number : W32 := 0
  stored : Bool := false
  previous : Option (Tab Nat × W32) := none
  fallback : Bool := false
  fault : Option Report := none

/-- The selection of R386, with every commit check against the hardware found. (DEDUCED, assumption 139) -/
def State.select (s : State) : Selection :=
  match s.vers.candidates with
  | [] => {}
  | a :: rest =>
    let good := rest.filter (fun c => (s.versionFault c.body).isNone)
    match s.versionFault a.body, good with
    | none, b :: _ => { body := a.body, number := a.number, stored := true, previous := some (b.body, b.number) }
    | none, [] => { body := a.body, number := a.number, stored := true }
    | some f, b :: _ => { body := b.body, number := b.number, stored := true, fallback := true, fault := some f }
    | some f, [] => { fallback := true, fault := some f }

/-- The versions after a selection: the active one CONFIRMED, a staging copy of it, and no commit pending. -/
def Versions.start (v : Versions) (q : Selection) : Versions :=
  let counter := v.highestNumber
  let v1 := { v with
    active := q.body, activeNo := q.number, activeNoC := ~~~q.number, counter, stored := q.stored, phase := .confirmed,
    previous := (q.previous.map (fun (p : Tab Nat × W32) => p.1)).getD [], previousNo := (q.previous.map (fun (p : Tab Nat × W32) => p.2)).getD 0, previousNoC := ~~~((q.previous.map (fun (p : Tab Nat × W32) => p.2)).getD 0),
    previousValid := q.previous.isSome, startupFallback := q.fallback,
    report := match q.fault with | some f => f.word | none => 0 }
  v1.formStaging

/-- The selected version takes over; its regions keep their contents, since there is no outgoing version. -/
def State.selectVersion (s : State) : State :=
  let q := s.select
  let s1 := (s.noteWrap 0x10 controlUnit s.vers.slotOrder).takeOver q.body
  let s2 := { s1 with mem := { s1.mem with regions := [] }, vers := s1.vers.start q }
  s2.raiseIf q.fallback { area := 0x10, kind := 0x10, unit := controlUnit }

/-! ### Boot (R431, R435, R436, R440) -/

/-- Near memory with the copy of a slot's signal-core image at the start of the RAN-reserved region (R258, R309).
(DESIGN CHOICE, assumption 61) -/
def State.imageCopy (s : State) (k : Nat) (near : Tab Byte) : Tab Byte :=
  match (s.start.image k).signalBody with
  | none => near
  | some (body, _, _) => if s.nearCapacity 0 < s.ranHalf then near else Tab.writeBytes near (s.ranAddress 0) body
def State.keepImageCopy (s : State) (k : Nat) : State := { s with mem := { s.mem with near := s.imageCopy k s.mem.near } }

/-- The firmware runs: everything from the settings to host-ready. -/
def State.bringUp (s : State) (k : Nat) (found : StartupReport) (train : Bool) : State :=
  let h := (s.start.image k).header
  let stage1 := ((s.start.image k).sections.find? (fun e => scKind e == 1)).map scDigest
  let s1 := { s with start := { s.start with
    running := true, recovery := false, bootedSlot := BitVec.ofNat 8 k, firmwareVersion := BitVec.ofNat 32 (ihFirmwareVersion h),
    aliasEpoch := stage1.getD 0 * 256 + ihSecurityVersion h } }
  let s2 := s1.loadSettings
  let s3 := (if train then s2.trainMemory found else s2).trainFar found
  let s4 := found.laneLatency.foldl (fun s q => s.measureLane q.1 q.2) ((s3.loadSignalImage k).testArrays found.arrayFaultyRows)
  let s5 := s4.selectVersion.keepImageCopy k
  { s5 with
    host := { s5.host with hostReady := true },
    keeper := { phase := .training, inForce := persistentValues s5.rw },
    integ := { s5.integ with decayTicks := s5.time.ticks } }

/-- The host port leaves reset unless PERST_N holds it. -/
def State.releaseHost (s : State) : State :=
  if s.host.phase = .inReset ∧ s.host.perst = false then { s with host := { s.host with phase := .training } } else s

/-- The boot ROM chooses a slot and runs it, or enters recovery, in which the host port serves a few objects and no window exists.
(DESIGN CHOICE, assumption 138) -/
def State.boot (s : State) (found : StartupReport) (train : Bool) (kind : ResetKind) : State :=
  let s0 := { s with start := { s.start with
    lastReset := kind, images := Tab.mapAll {} (fun _ (i : ImageSlot) => { i with verified := false }) s.start.images } }
  let q := s0.chooseSlot 3
  match q.2 with
  | some k => (q.1.bringUp k found train).releaseHost
  | none =>
    let s1 := { q.1 with start := { q.1.start with running := true, recovery := true, bootedSlot := 0xFF },
                         host := { q.1.host with hostReady := true } }
    s1.releaseHost

/-- The straps are sampled as MOD_RST_N is released (R465); in boundary-scan mode the boot ROM does not run and no pad is driven by the part
(R470). -/
def State.sampleStraps (s : State) (found : StartupReport) : State :=
  { s with start := { s.start with powered := true, modRst := false, klMaster := found.klMaster, testEn := found.testEn, thermalBefore := false },
           tap := { s.tap with drive := if found.testEn then .highZ else .functional } }

/-- MOD_RST_N is released: a cold reset when the rails have been applied, a module reset by the pad when it has been held. -/
def effModRstNRelease (found : StartupReport) (s : State) : State :=
  if s.start.powered ∧ s.start.modRst = false then s
  else
    let kind : ResetKind := if s.start.powered then .pad else if s.start.thermalBefore then .thermal else .cold
    let s1 := s.wiped.sampleStraps found
    if found.testEn then { s1 with start := { s1.start with lastReset := kind } } else s1.boot found true kind

/-- MOD_RST_N_RELEASE (R440). -/
def execModRstNRelease (found : StartupReport) (s : State) : Host.Outcome State Fault Refusal := .next (effModRstNRelease found s)

/-- MOD_RST_N is held low for 10 µs: everything volatile is lost, and the pads are off until it is released (R429, R431). Records that wait
for the fault log are written first, since the rails hold. -/
def effModRstNAssert (s : State) : State :=
  if s.start.powered = false ∨ s.start.modRst then s
  else
    let s1 := (effFaultLogWrite s).wiped
    { s1 with start := { s1.start with modRst := true } }

/-- MOD_RST_N_ASSERT (R429). -/
def execModRstNAssert (s : State) : Host.Outcome State Fault Refusal := .next (effModRstNAssert s)

/-- The reset that ResetCommand ordered begins: a module reset, or a firmware restart, at which every instance is reset and the ports go
DOWN (R429, R430). The straps are not sampled. -/
def effResetBegin (found : StartupReport) (s : State) : State :=
  match s.start.resetDue with
  | none => s
  | some (whole, tick) =>
    if s.time.ticks < tick then s
    else if whole then (effFaultLogWrite s).wiped.boot found true .command
    else (effFaultLogWrite s.resetAll.clearPfObjects).restarted.boot found false .firmware

/-- RESET_BEGIN (R430). -/
def execResetBegin (found : StartupReport) (s : State) : Host.Outcome State Fault Refusal := .next (effResetBegin found s)

/-- The rails are removed: all state is lost but what flash, fuses and the expanders hold, and THERM_TRIP_N is released (R427, R428). -/
def effPowerDown (s : State) : State :=
  if s.start.powered = false then s
  else
    let s1 := s.wiped
    { s1 with start := { s1.start with powered := false, modRst := false, klMaster := false, testEn := false, thermTrip := false,
                                       thermalBefore := s.start.thermTrip }, tap := {} }

/-- POWER_DOWN (R427). -/
def execPowerDown (s : State) : Host.Outcome State Fault Refusal := .next (effPowerDown s)

end Sys2Proof.Machine
end

