-- ==== Sys2Proof/Machine/Dispatch.lean ====
section
/-!
DEFINITION. Which meaning each command has: one arm per constructor of Instr, each one direct call.
-/

namespace Sys2Proof.Machine

/-- The effect of a command on everything but the queue of waiting commands. -/
def exec (i : Instr) (s : State) : Host.Outcome State Fault Refusal :=
  match i with
  | .timeBaseTick => Sys2Proof.Machine.execTimeBaseTick s
  | .timeIncrementWrite value complement => Sys2Proof.Machine.execTimeIncrementWrite value complement s
  | .timePhaseStepWrite step => Sys2Proof.Machine.execTimePhaseStepWrite step s
  | .phaseStepApply => Sys2Proof.Machine.execPhaseStepApply s
  | .timeSetWrite value => Sys2Proof.Machine.execTimeSetWrite value s
  | .timeSetLoad => Sys2Proof.Machine.execTimeSetLoad s
  | .holdoverDetectExpiry => Sys2Proof.Machine.execHoldoverDetectExpiry s
  | .holdoverLimitExpiry => Sys2Proof.Machine.execHoldoverLimitExpiry s
  | .ppsInEdge => Sys2Proof.Machine.execPpsInEdge s
  | .ref10mDriftSample => Sys2Proof.Machine.execRef10mDriftSample s
  | .synceLockLoss => Sys2Proof.Machine.execSynceLockLoss s
  | .edgeEmit unit index => Sys2Proof.Machine.execEdgeEmit unit index s
  | .windowStartEdge unit entry => Sys2Proof.Machine.execWindowStartEdge unit entry s
  | .windowEndEdge unit entry => Sys2Proof.Machine.execWindowEndEdge unit entry s
  | .periodBoundary => Sys2Proof.Machine.execPeriodBoundary s
  | .groupGate group => Sys2Proof.Machine.execGroupGate group s
  | .confirmDeadlineUngate => Sys2Proof.Machine.execConfirmDeadlineUngate s
  | .autoRevert => Sys2Proof.Machine.execAutoRevert s
  | .pollSlotStart window => Sys2Proof.Machine.execPollSlotStart window s
  | .summaryLineRead line result data => Sys2Proof.Machine.execSummaryLineRead line result data s
  | .batchRecordFetch source result data => Sys2Proof.Machine.execBatchRecordFetch source result data s
  | .stepRoute context descriptor argument => Sys2Proof.Machine.execStepRoute context descriptor argument s
  | .completionRecordWrite context => Sys2Proof.Machine.execCompletionRecordWrite context s
  | .nop engine context => Sys2Proof.Machine.execNop engine context s
  | .product engine context => Sys2Proof.Machine.execProduct engine context s
  | .vector engine context => Sys2Proof.Machine.execVector engine context s
  | .load engine context => Sys2Proof.Machine.execLoad engine context s
  | .store engine context => Sys2Proof.Machine.execStore engine context s
  | .gather engine context => Sys2Proof.Machine.execGather engine context s
  | .moor engine context image => Sys2Proof.Machine.execMoor engine context image s
  | .release engine context => Sys2Proof.Machine.execRelease engine context s
  | .stepCommit engine context => Sys2Proof.Machine.execStepCommit engine context s
  | .semaphoreSignal engine context => Sys2Proof.Machine.execSemaphoreSignal engine context s
  | .passStart engine array cycle => Sys2Proof.Machine.execPassStart engine array cycle s
  | .passCommit engine array error => Sys2Proof.Machine.execPassCommit engine array error s
  | .passAbandon engine array cause => Sys2Proof.Machine.execPassAbandon engine array cause s
  | .passRerun engine array cycle => Sys2Proof.Machine.execPassRerun engine array cycle s
  | .parityDetect engine line poisoned => Sys2Proof.Machine.execParityDetect engine line poisoned s
  | .producerRerun engine context serial => Sys2Proof.Machine.execProducerRerun engine context serial s
  | .tenderFetchIssue engine context => Sys2Proof.Machine.execTenderFetchIssue engine context s
  | .lineArrive engine context result data => Sys2Proof.Machine.execLineArrive engine context result data s
  | .writeIssue engine context => Sys2Proof.Machine.execWriteIssue engine context s
  | .writeAcknowledge engine context status => Sys2Proof.Machine.execWriteAcknowledge engine context status s
  | .scrubStart engine => Sys2Proof.Machine.execScrubStart engine s
  | .scrubComplete engine => Sys2Proof.Machine.execScrubComplete engine s
  | .tileChainWork engine array => Sys2Proof.Machine.execTileChainWork engine array s
  | .scale engine stage => Sys2Proof.Machine.execScale engine stage s
  | .bias engine stage => Sys2Proof.Machine.execBias engine stage s
  | .colscale engine stage => Sys2Proof.Machine.execColscale engine stage s
  | .residual engine stage => Sys2Proof.Machine.execResidual engine stage s
  | .act engine stage => Sys2Proof.Machine.execAct engine stage s
  | .gatepair engine stage => Sys2Proof.Machine.execGatepair engine stage s
  | .norm engine stage => Sys2Proof.Machine.execNorm engine stage s
  | .softmax engine stage => Sys2Proof.Machine.execSoftmax engine stage s
  | .online engine stage => Sys2Proof.Machine.execOnline engine stage s
  | .merge engine stage => Sys2Proof.Machine.execMerge engine stage s
  | .convert engine stage => Sys2Proof.Machine.execConvert engine stage s
  | .quant engine stage => Sys2Proof.Machine.execQuant engine stage s
  | .heldBandFinish engine array => Sys2Proof.Machine.execHeldBandFinish engine array s
  | .vectorProgramRun engine array => Sys2Proof.Machine.execVectorProgramRun engine array s
  | .vecAdd engine word => Sys2Proof.Machine.execVecAdd engine word s
  | .vecSub engine word => Sys2Proof.Machine.execVecSub engine word s
  | .vecMul engine word => Sys2Proof.Machine.execVecMul engine word s
  | .fma engine word => Sys2Proof.Machine.execFma engine word s
  | .max engine word => Sys2Proof.Machine.execMax engine word s
  | .min engine word => Sys2Proof.Machine.execMin engine word s
  | .abs engine word => Sys2Proof.Machine.execAbs engine word s
  | .vecNeg engine word => Sys2Proof.Machine.execVecNeg engine word s
  | .mov engine word => Sys2Proof.Machine.execMov engine word s
  | .sel engine word => Sys2Proof.Machine.execSel engine word s
  | .adds engine word => Sys2Proof.Machine.execAdds engine word s
  | .muls engine word => Sys2Proof.Machine.execMuls engine word s
  | .ceq engine word => Sys2Proof.Machine.execCeq engine word s
  | .cne engine word => Sys2Proof.Machine.execCne engine word s
  | .clt engine word => Sys2Proof.Machine.execClt engine word s
  | .cle engine word => Sys2Proof.Machine.execCle engine word s
  | .cgt engine word => Sys2Proof.Machine.execCgt engine word s
  | .cge engine word => Sys2Proof.Machine.execCge engine word s
  | .sfu engine word => Sys2Proof.Machine.execSfu engine word s
  | .vecRsum engine word => Sys2Proof.Machine.execVecRsum engine word s
  | .rmax engine word => Sys2Proof.Machine.execRmax engine word s
  | .vecBcast engine word => Sys2Proof.Machine.execVecBcast engine word s
  | .rnd engine word => Sys2Proof.Machine.execRnd engine word s
  | .qnt engine word => Sys2Proof.Machine.execQnt engine word s
  | .cvti engine word => Sys2Proof.Machine.execCvti engine word s
  | .ldv engine word => Sys2Proof.Machine.execLdv engine word s
  | .stv engine word => Sys2Proof.Machine.execStv engine word s
  | .sadd engine word => Sys2Proof.Machine.execSadd engine word s
  | .smul engine word => Sys2Proof.Machine.execSmul engine word s
  | .smov engine word => Sys2Proof.Machine.execSmov engine word s
  | .sfrom engine word => Sys2Proof.Machine.execSfrom engine word s
  | .gatherPoolLine engine context => Sys2Proof.Machine.execGatherPoolLine engine context s
  | .sendTile engine context destination => Sys2Proof.Machine.execSendTile engine context destination s
  | .sendLinesAcked engine context destination => Sys2Proof.Machine.execSendLinesAcked engine context destination s
  | .sendCreditReread engine context destination => Sys2Proof.Machine.execSendCreditReread engine context destination s
  | .sendCreditTimeout engine context destination => Sys2Proof.Machine.execSendCreditTimeout engine context destination s
  | .planFetch cell => Sys2Proof.Machine.execPlanFetch cell s
  | .planReadComplete cell result header pdus => Sys2Proof.Machine.execPlanReadComplete cell result header pdus s
  | .cplaneWindowOpen cell pdu weights => Sys2Proof.Machine.execCplaneWindowOpen cell pdu weights s
  | .ulWindowClose cell symbol => Sys2Proof.Machine.execUlWindowClose cell symbol s
  | .ldpcDecode unit block llrs cycle => Sys2Proof.Machine.execLdpcDecode unit block llrs cycle s
  | .ldpcEncode unit block cycle => Sys2Proof.Machine.execLdpcEncode unit block cycle s
  | .polarDecode unit block llrs cycle => Sys2Proof.Machine.execPolarDecode unit block llrs cycle s
  | .polarEncode unit block cycle => Sys2Proof.Machine.execPolarEncode unit block cycle s
  | .dft unit block inverse samples cycle => Sys2Proof.Machine.execDft unit block inverse samples cycle s
  | .interpolation unit block subcarriers samples cycle => Sys2Proof.Machine.execInterpolation unit block subcarriers samples cycle s
  | .prachCorrelation unit block roots samples cycle => Sys2Proof.Machine.execPrachCorrelation unit block roots samples cycle s
  | .codingOpComplete unit => Sys2Proof.Machine.execCodingOpComplete unit s
  | .ulResultDeadline cell => Sys2Proof.Machine.execUlResultDeadline cell s
  | .ulResultRecordWrite cell pdu => Sys2Proof.Machine.execUlResultRecordWrite cell pdu s
  | .dlPayloadComplete cell symbol stream samples => Sys2Proof.Machine.execDlPayloadComplete cell symbol stream samples s
  | .deadlineWatchdog cell symbol => Sys2Proof.Machine.execDeadlineWatchdog cell symbol s
  | .radioCompletionWrite cell => Sys2Proof.Machine.execRadioCompletionWrite cell s
  | .jobInputDma core job xData yData poisoned => Sys2Proof.Machine.execJobInputDma core job xData yData poisoned s
  | .jobStart core cycle => Sys2Proof.Machine.execJobStart core cycle s
  | .jobOutputWrite core => Sys2Proof.Machine.execJobOutputWrite core s
  | .jobRerun core from' inProgram cycle => Sys2Proof.Machine.execJobRerun core from' inProgram cycle s
  | .programReloadComplete core => Sys2Proof.Machine.execProgramReloadComplete core s
  | .cmul core word => Sys2Proof.Machine.execCmul core word s
  | .cmac core word => Sys2Proof.Machine.execCmac core word s
  | .cmulj core word => Sys2Proof.Machine.execCmulj core word s
  | .cmacj core word => Sys2Proof.Machine.execCmacj core word s
  | .cmsu core word => Sys2Proof.Machine.execCmsu core word s
  | .csq core word => Sys2Proof.Machine.execCsq core word s
  | .accrd core word => Sys2Proof.Machine.execAccrd core word s
  | .accz core word => Sys2Proof.Machine.execAccz core word s
  | .accld core word => Sys2Proof.Machine.execAccld core word s
  | .arsum core word => Sys2Proof.Machine.execArsum core word s
  | .ld core word => Sys2Proof.Machine.execLd core word s
  | .st core word => Sys2Proof.Machine.execSt core word s
  | .ld2 core word => Sys2Proof.Machine.execLd2 core word s
  | .setp core word => Sys2Proof.Machine.execSetp core word s
  | .addp core word => Sys2Proof.Machine.execAddp core word s
  | .setm core word => Sys2Proof.Machine.execSetm core word s
  | .movps core word => Sys2Proof.Machine.execMovps core word s
  | .scAdd core word => Sys2Proof.Machine.execScAdd core word s
  | .addi core word => Sys2Proof.Machine.execAddi core word s
  | .scSub core word => Sys2Proof.Machine.execScSub core word s
  | .scAnd core word => Sys2Proof.Machine.execScAnd core word s
  | .scOr core word => Sys2Proof.Machine.execScOr core word s
  | .scXor core word => Sys2Proof.Machine.execScXor core word s
  | .shl core word => Sys2Proof.Machine.execShl core word s
  | .shr core word => Sys2Proof.Machine.execShr core word s
  | .sar core word => Sys2Proof.Machine.execSar core word s
  | .scMul core word => Sys2Proof.Machine.execScMul core word s
  | .cmp core word => Sys2Proof.Machine.execCmp core word s
  | .movi core word => Sys2Proof.Machine.execMovi core word s
  | .conj core word => Sys2Proof.Machine.execConj core word s
  | .scNeg core word => Sys2Proof.Machine.execScNeg core word s
  | .shift core word => Sys2Proof.Machine.execShift core word s
  | .scBcast core word => Sys2Proof.Machine.execScBcast core word s
  | .rot core word => Sys2Proof.Machine.execRot core word s
  | .scRsum core word => Sys2Proof.Machine.execScRsum core word s
  | .zero core word => Sys2Proof.Machine.execZero core word s
  | .addv core word => Sys2Proof.Machine.execAddv core word s
  | .branch core word => Sys2Proof.Machine.execBranch core word s
  | .call core word => Sys2Proof.Machine.execCall core word s
  | .ret core word => Sys2Proof.Machine.execRet core word s
  | .loop core word => Sys2Proof.Machine.execLoop core word s
  | .rep core word => Sys2Proof.Machine.execRep core word s
  | .scEnd core word => Sys2Proof.Machine.execScEnd core word s
  | .eret core word => Sys2Proof.Machine.execEret core word s
  | .scBreak core word => Sys2Proof.Machine.execScBreak core word s
  | .scNop core word => Sys2Proof.Machine.execScNop core word s
  | .mfc core word => Sys2Proof.Machine.execMfc core word s
  | .mtc core word => Sys2Proof.Machine.execMtc core word s
  | .macld core word => Sys2Proof.Machine.execMacld core word s
  | .frameRx port frame fcsGood rawTime => Sys2Proof.Machine.execFrameRx port frame fcsGood rawTime s
  | .portDown port => Sys2Proof.Machine.execPortDown port s
  | .portUp port => Sys2Proof.Machine.execPortUp port s
  | .frameSelect port => Sys2Proof.Machine.execFrameSelect port s
  | .gateEdge port => Sys2Proof.Machine.execGateEdge port s
  | .mgmtTxDescriptor descriptor frame => Sys2Proof.Machine.execMgmtTxDescriptor descriptor frame s
  | .mgmtTxTimeout port => Sys2Proof.Machine.execMgmtTxTimeout port s
  | .mgmtEnableWrite value => Sys2Proof.Machine.execMgmtEnableWrite value s
  | .macsecSakInstall record => Sys2Proof.Machine.execMacsecSakInstall record s
  | .segmentRead channel segment line requester cls innerCorrected => Sys2Proof.Machine.execSegmentRead channel segment line requester cls innerCorrected s
  | .segmentWrite channel segment write => Sys2Proof.Machine.execSegmentWrite channel segment write s
  | .writeHoldExpiry channel segment => Sys2Proof.Machine.execWriteHoldExpiry channel segment s
  | .mergeReadDecode channel segment => Sys2Proof.Machine.execMergeReadDecode channel segment s
  | .edcReplay channel good => Sys2Proof.Machine.execEdcReplay channel good s
  | .patrolRead channel => Sys2Proof.Machine.execPatrolRead channel s
  | .regionClearComplete region => Sys2Proof.Machine.execRegionClearComplete region s
  | .farTimeout port engine context write address => Sys2Proof.Machine.execFarTimeout port engine context write address s
  | .farPortDown port => Sys2Proof.Machine.execFarPortDown port s
  | .d2dFlitReplay link => Sys2Proof.Machine.execD2dFlitReplay link s
  | .d2dTrainingLoss link => Sys2Proof.Machine.execD2dTrainingLoss link s
  | .d2dRetrainTimeout link => Sys2Proof.Machine.execD2dRetrainTimeout link s
  | .fabricRead header => Sys2Proof.Machine.execFabricRead header s
  | .fabricWrite header payload => Sys2Proof.Machine.execFabricWrite header payload s
  | .fetchAdd header => Sys2Proof.Machine.execFetchAdd header s
  | .swap header => Sys2Proof.Machine.execSwap header s
  | .cas header => Sys2Proof.Machine.execCas header s
  | .notify header => Sys2Proof.Machine.execNotify header s
  | .replyRx header payload => Sys2Proof.Machine.execReplyRx header payload s
  | .ackRx header => Sys2Proof.Machine.execAckRx header s
  | .keepaliveRx header => Sys2Proof.Machine.execKeepaliveRx header s
  | .resetRx header => Sys2Proof.Machine.execResetRx header s
  | .retransmitTimeout peer cls psn => Sys2Proof.Machine.execRetransmitTimeout peer cls psn s
  | .replyRetry peer request => Sys2Proof.Machine.execReplyRetry peer request s
  | .keepaliveTimer peer => Sys2Proof.Machine.execKeepaliveTimer peer s
  | .peerSilent peer => Sys2Proof.Machine.execPeerSilent peer s
  | .peerDead peer => Sys2Proof.Machine.execPeerDead peer s
  | .operationDeadTimeout peer request => Sys2Proof.Machine.execOperationDeadTimeout peer request s
  | .fence engine context record => Sys2Proof.Machine.execFence engine context record s
  | .fenceTimeout engine context => Sys2Proof.Machine.execFenceTimeout engine context s
  | .mirrorRestart record => Sys2Proof.Machine.execMirrorRestart record s
  | .instanceReset instanceId => Sys2Proof.Machine.execInstanceReset instanceId s
  | .instanceQuiesce instanceId => Sys2Proof.Machine.execInstanceQuiesce instanceId s
  | .instanceResume instanceId => Sys2Proof.Machine.execInstanceResume instanceId s
  | .vfFlr instanceId => Sys2Proof.Machine.execVfFlr instanceId s
  | .instanceRingsWrite instanceId record => Sys2Proof.Machine.execInstanceRingsWrite instanceId record s
  | .providerRingWrite record => Sys2Proof.Machine.execProviderRingWrite record s
  | .quiesceComplete instanceId => Sys2Proof.Machine.execQuiesceComplete instanceId s
  | .flushReadComplete function => Sys2Proof.Machine.execFlushReadComplete function s
  | .flushReadTimeout function => Sys2Proof.Machine.execFlushReadTimeout function s
  | .instanceResetComplete instanceId => Sys2Proof.Machine.execInstanceResetComplete instanceId s
  | .pfFlr => Sys2Proof.Machine.execPfFlr s
  | .vfEnableChange enable numVFs => Sys2Proof.Machine.execVfEnableChange enable numVFs s
  | .hotReset => Sys2Proof.Machine.execHotReset s
  | .linkDown => Sys2Proof.Machine.execLinkDown s
  | .perstNAssert => Sys2Proof.Machine.execPerstNAssert s
  | .hostReadCompletion tag result data => Sys2Proof.Machine.execHostReadCompletion tag result data s
  | .hostReadTimeout tag => Sys2Proof.Machine.execHostReadTimeout tag s
  | .atsInvalidation function page count => Sys2Proof.Machine.execAtsInvalidation function page count s
  | .barUnmappedWrite function offset => Sys2Proof.Machine.execBarUnmappedWrite function offset s
  | .msixUnmask function vector => Sys2Proof.Machine.execMsixUnmask function vector s
  | .dirtyLogWrite index record => Sys2Proof.Machine.execDirtyLogWrite index record s
  | .harvest index => Sys2Proof.Machine.execHarvest index s
  | .instanceExport offset length => Sys2Proof.Machine.execInstanceExport offset length s
  | .instanceImport instanceId records => Sys2Proof.Machine.execInstanceImport instanceId records s
  | .ideStreamLoss stream => Sys2Proof.Machine.execIdeStreamLoss stream s
  | .dictionaryRead requester request dma => Sys2Proof.Machine.execDictionaryRead requester request dma s
  | .dictionaryWrite requester request data dma flashGood => Sys2Proof.Machine.execDictionaryWrite requester request data dma flashGood s
  | .commit requester version => Sys2Proof.Machine.execCommit requester version s
  | .revert requester version => Sys2Proof.Machine.execRevert requester version s
  | .confirm requester version flashGood => Sys2Proof.Machine.execConfirm requester version flashGood s
  | .stageReset requester value => Sys2Proof.Machine.execStageReset requester value s
  | .keeperLinkUp sqi polarity => Sys2Proof.Machine.execKeeperLinkUp sqi polarity s
  | .keeperLinkDown => Sys2Proof.Machine.execKeeperLinkDown s
  | .keeperFrameRx good plain destination toPort address port payload => Sys2Proof.Machine.execKeeperFrameRx good plain destination toPort address port payload s
  | .securedRequest session request data flashGood => Sys2Proof.Machine.execSecuredRequest session request data flashGood s
  | .neighbourSolicitation source target mac => Sys2Proof.Machine.execNeighbourSolicitation source target mac s
  | .icmpv6Echo source destination body => Sys2Proof.Machine.execIcmpv6Echo source destination body s
  | .keeperSessionIdleTimeout session => Sys2Proof.Machine.execKeeperSessionIdleTimeout session s
  | .keeperTestModeWrite requester value => Sys2Proof.Machine.execKeeperTestModeWrite requester value s
  | .getVersion path message => Sys2Proof.Machine.execGetVersion path message s
  | .getCapabilities path message => Sys2Proof.Machine.execGetCapabilities path message s
  | .negotiateAlgorithms path message => Sys2Proof.Machine.execNegotiateAlgorithms path message s
  | .getDigests path message => Sys2Proof.Machine.execGetDigests path message s
  | .getCertificate path message => Sys2Proof.Machine.execGetCertificate path message s
  | .challenge path message => Sys2Proof.Machine.execChallenge path message s
  | .getMeasurements path message => Sys2Proof.Machine.execGetMeasurements path message s
  | .keyExchange path message => Sys2Proof.Machine.execKeyExchange path message s
  | .finish path message => Sys2Proof.Machine.execFinish path message s
  | .heartbeat path message => Sys2Proof.Machine.execHeartbeat path message s
  | .keyUpdate path message => Sys2Proof.Machine.execKeyUpdate path message s
  | .endSession path message => Sys2Proof.Machine.execEndSession path message s
  | .eventRecordWrite index => Sys2Proof.Machine.execEventRecordWrite index s
  | .faultLogWrite => Sys2Proof.Machine.execFaultLogWrite s
  | .complementSweep => Sys2Proof.Machine.execComplementSweep s
  | .selfTestSegment engine array faultyRow cycle => Sys2Proof.Machine.execSelfTestSegment engine array faultyRow cycle s
  | .soundingShadow engine array cycle => Sys2Proof.Machine.execSoundingShadow engine array cycle s
  | .arbiterPass engine slot error => Sys2Proof.Machine.execArbiterPass engine slot error s
  | .arbitrationTimeout slot => Sys2Proof.Machine.execArbitrationTimeout slot s
  | .healthDecay => Sys2Proof.Machine.execHealthDecay s
  | .expel requester order flashGood => Sys2Proof.Machine.execExpel requester order flashGood s
  | .readmit requester order flashGood => Sys2Proof.Machine.execReadmit requester order flashGood s
  | .setKeys requester order flashGood => Sys2Proof.Machine.execSetKeys requester order flashGood s
  | .managerKeysApply requester value flashGood => Sys2Proof.Machine.execManagerKeysApply requester value flashGood s
  | .quarantineClear requester unit => Sys2Proof.Machine.execQuarantineClear requester unit s
  | .firmwareHeartbeatTimeout => Sys2Proof.Machine.execFirmwareHeartbeatTimeout s
  | .modRstNRelease found => Sys2Proof.Machine.execModRstNRelease found s
  | .modRstNAssert => Sys2Proof.Machine.execModRstNAssert s
  | .moduleReset requester => Sys2Proof.Machine.execModuleReset requester s
  | .firmwareRestart requester => Sys2Proof.Machine.execFirmwareRestart requester s
  | .resetBegin found => Sys2Proof.Machine.execResetBegin found s
  | .eraseInactive requester => Sys2Proof.Machine.execEraseInactive requester s
  | .armTrial requester => Sys2Proof.Machine.execArmTrial requester s
  | .confirmRunning requester => Sys2Proof.Machine.execConfirmRunning requester s
  | .advanceRollback requester => Sys2Proof.Machine.execAdvanceRollback requester s
  | .imageWrite requester offset data => Sys2Proof.Machine.execImageWrite requester offset data s
  | .integratorKeyDigestWrite requester digest => Sys2Proof.Machine.execIntegratorKeyDigestWrite requester digest s
  | .powerSample rails => Sys2Proof.Machine.execPowerSample rails s
  | .powerLimitEvent => Sys2Proof.Machine.execPowerLimitEvent s
  | .temperatureSample readings => Sys2Proof.Machine.execTemperatureSample readings s
  | .thermalTripTimeout sensor => Sys2Proof.Machine.execThermalTripTimeout sensor s
  | .progControlWrite requester counter record => Sys2Proof.Machine.execProgControlWrite requester counter record s
  | .snapshotNow requester value => Sys2Proof.Machine.execSnapshotNow requester value s
  | .extest pads drive => Sys2Proof.Machine.execExtest pads drive s
  | .idcode => Sys2Proof.Machine.execIdcode s
  | .samplePreload pads preload => Sys2Proof.Machine.execSamplePreload pads preload s
  | .extestPulse pads drive => Sys2Proof.Machine.execExtestPulse pads drive s
  | .extestTrain pads drive => Sys2Proof.Machine.execExtestTrain pads drive s
  | .clamp => Sys2Proof.Machine.execClamp s
  | .highz => Sys2Proof.Machine.execHighz s
  | .bypass => Sys2Proof.Machine.execBypass s
  | .trstNAssert => Sys2Proof.Machine.execTrstNAssert s
  | .d2dLinkRetrained link => Sys2Proof.Machine.execD2dLinkRetrained link s
  | .hostLinkUp width rate flit => Sys2Proof.Machine.execHostLinkUp width rate flit s
  | .perstNRelease => Sys2Proof.Machine.execPerstNRelease s
  | .powerDown => Sys2Proof.Machine.execPowerDown s
  | .synceLockRegain => Sys2Proof.Machine.execSynceLockRegain s
  | .ref10mInLoss => Sys2Proof.Machine.execRef10mInLoss s
  | .uplaneWindowOpen cell symbol => Sys2Proof.Machine.execUplaneWindowOpen cell symbol s
  | .neighbourAdvertisement target mac => Sys2Proof.Machine.execNeighbourAdvertisement target mac s
  | .ideKmKeyProg stream sub key => Sys2Proof.Machine.execIdeKmKeyProg stream sub key s
  | .ideStreamSecure stream => Sys2Proof.Machine.execIdeStreamSecure stream s
  | .doeDiscovery index => Sys2Proof.Machine.execDoeDiscovery index s

end Sys2Proof.Machine
end

