-- ==== Sys2Proof/Machine/Step.lean ====
section
/-!
DEFINITION. One step: the command at the front of the queue takes effect; on an empty queue the host port puts its oldest
posted write on the link.
-/

namespace Sys2Proof.Machine

/-- What the block does while no command waits: the host port sends one posted write it holds (R347). (DESIGN CHOICE, assumption 2) -/
def idle (s : State) : State := s.sendWrite

/-- One step of the machine. (DESIGN CHOICE, assumption 1) -/
def step (s : State) : Host.Outcome State Fault Refusal :=
  match s.pending with
  | [] => .next (idle s)
  | c :: rest => exec c { s with pending := rest }

/-- The state with the command a word spells put at the front of the queue; no word spells one. -/
def State.withFetchWord (s : State) (nbits w : Nat) : State :=
  match decodeTableWord nbits w with
  | none => s
  | some c => { s with pending := c :: s.pending }

end Sys2Proof.Machine
end

