-- ==== Sys2Proof/Machine/DeviceMap.lean ====
section
/-!
DEFINITION. What a near-memory device holds byte by byte: the code page (R293), the check bytes of the outer code (R294) and the markers of a
segment that holds no valid data (R295). The state keeps each segment's data and its marker once; this is the device's view of it.
-/

namespace Sys2Proof.Machine

/-! ### GF(2^8) and the outer code (R294) -/

/-- Multiply by x modulo x^8 + x^4 + x^3 + x^2 + 1. -/
def gfTimesX (a : BitVec 8) : BitVec 8 := (a <<< 1) ^^^ (if a.msb then 0x1D else 0)

/-- Sum of b times the powers of x where a has a bit; `n` counts the bits. -/
def gfMulFrom : Nat → Nat → BitVec 8 → BitVec 8 → BitVec 8
  | 0, _, _, _ => 0
  | n + 1, i, a, b => (if a.getLsbD i then b else 0) ^^^ gfMulFrom n (i + 1) a (gfTimesX b)

/-- The product of two elements of the field. -/
def gfMul (a b : BitVec 8) : BitVec 8 := gfMulFrom 8 0 a b

/-- The polynomial times (x − r), coefficients from the highest. -/
def timesRoot (r : BitVec 8) (p : List (BitVec 8)) : List (BitVec 8) :=
  ((p ++ [0]).zip ((0 : BitVec 8) :: p)).map (fun (q : BitVec 8 × BitVec 8) => q.1 ^^^ gfMul r q.2)

/-- The generator (x − α^0)(x − α^1)(x − α^2)(x − α^3) below its leading term. -/
def outerGenerator : List (BitVec 8) := ((([1, 2, 4, 8] : List (BitVec 8)).foldl (fun p r => timesRoot r p) [1]).drop 1)

/-- The remainder after one more data byte. -/
def rsStep (r : List (BitVec 8)) (d : BitVec 8) : List (BitVec 8) :=
  let f := (r.headD 0) ^^^ d
  ((r.drop 1 ++ [0]).zip outerGenerator).map (fun (q : BitVec 8 × BitVec 8) => q.1 ^^^ gfMul f q.2)

/-- The four check bytes of one code for its data bytes in ascending order. -/
def outerCheck (data : List (BitVec 8)) : List (BitVec 8) := data.foldl rsStep [0, 0, 0, 0]

/-- Every second byte of a segment, from byte e. -/
def codeBytes (data : List Byte) (e : Nat) : List Byte := ((data.zipIdx).filter (fun q => q.2 % 2 == e)).map (·.1)

/-- The check bytes C0 to C7 of a segment's 256 data bytes: C(2j + e) belongs to code e. -/
def checkBytes (data : List Byte) : List Byte :=
  ((outerCheck (codeBytes data 0)).zip (outerCheck (codeBytes data 1))).flatMap (fun q => [q.1, q.2])

/-! ### Markers (R295) -/

def lostPattern : List Byte := [0x1D, 0xB7, 0x4E, 0xA2, 0x63, 0xF8, 0x09, 0xD5]
def poisonedPattern : List Byte := [0x8C, 0x25, 0xF1, 0x6B, 0xD4, 0x3A, 0x97, 0x40]

/-- The check bytes of a marker: those of data all ones, exclusive-or its pattern. -/
def markerCheck (pattern : List Byte) : List Byte := ((checkBytes (List.replicate 256 0xFF)).zip pattern).map (fun q => q.1 ^^^ q.2)

/-! ### Code pages (R293) -/

/-- What a device byte holds: byte b of channel segment t, check byte j of segment t, or nothing that is ever read. -/
inductive DevicePlace where
  | data (t b : Nat)
  | check (t j : Nat)
  | reserved
deriving DecidableEq, Repr

/-- The content of a device byte by its place in its code page (R293). -/
def devicePlace (a : Nat) : DevicePlace :=
  let p := a / 8192
  let r := a % 8192
  if r < 7936 then .data (31 * p + r / 256) (r % 256)
  else if r < 8184 then .check (31 * p + (r - 7936) / 8) ((r - 7936) % 8)
  else .reserved

/-- The device byte at which a segment's data, and its check bytes, begin (R293). -/
def dataPlace (t : Nat) : Nat := 8192 * (t / 31) + 256 * (t % 31)
def checkPlace (t : Nat) : Nat := 8192 * (t / 31) + 7936 + 8 * (t % 31)

/-- The data bytes of a segment as the device holds them: all ones under a marker. -/
def State.deviceData (s : State) (address : Nat) : List Byte :=
  match Tab.get .good s.mem.marks (address / 256) with
  | .lost | .poisoned => List.replicate 256 0xFF
  | _ => Tab.readBytes s.mem.near address 256

/-- The check bytes of a segment as the device holds them. -/
def State.deviceCheck (s : State) (address : Nat) : List Byte :=
  match Tab.get .good s.mem.marks (address / 256) with
  | .lost => markerCheck lostPattern
  | .poisoned => markerCheck poisonedPattern
  | _ => checkBytes (s.deviceData address)

/-- Whether a symbol of a segment is in error, so that its two bytes are open (R294). -/
def State.symbolBad (s : State) (address symbol : Nat) : Bool :=
  match Tab.get .good s.mem.marks (address / 256) with | .errors sy => sy.contains symbol | _ => false

/-- A byte of a channel's device: none where no segment is stored there, or where the byte is in error. -/
def State.deviceByte (s : State) (c : Fin 48) (a : Nat) : Option Byte :=
  match devicePlace a with
  | .reserved => some 0
  | .data t b => (s.segmentAddress c t).bind (fun x => if s.symbolBad x (b / 2) then none else (s.deviceData x)[b]?)
  | .check t j => (s.segmentAddress c t).bind (fun x => if s.symbolBad x (128 + j / 2) then none else (s.deviceCheck x)[j]?)

end Sys2Proof.Machine
end

