-- ==== Sys2Proof/Machine/Pads.lean ====
section
/-!
DEFINITION. What each group of pads does in each state of the module, and which fronthaul lanes a link uses (R431, R459, R463, R466, R470):
views of the state, which no command reads.
-/

namespace Sys2Proof.Machine

/-! ### Lanes (R459) -/

/-- The link of its block that a fronthaul lane serves under a division code, if any. -/
def laneLink (division lane : Nat) : Option Nat :=
  match division with
  | 0 => if lane < 4 then some 0 else none
  | 1 => if lane < 4 then some (lane / 2) else none
  | 2 => if lane < 4 then some lane else none
  | _ => some lane

/-- The link of the module, 0 to 63, that lane `lane` of a block serves; none where the lane is unused. -/
def State.laneServes (s : State) (block lane : Fin 8) : Option Nat :=
  match laneLink (bits (s.act 0x6000 0 block.val) 63 62) lane.val with
  | none => none
  | some l => if portEnabled s.vers.active (8 * block.val + l) then some (8 * block.val + l) else none

/-! ### Stages and pads (R431, R466) -/

/-- The columns of R431, and boundary-scan mode. -/
inductive PadStage where
  | unpowered | held | scan | boot | running | fenced
deriving DecidableEq, Repr

/-- The stage a module is in. A module in recovery serves its host, so it is past host-ready. (DEDUCED, assumption 173) -/
def State.padStage (s : State) : PadStage :=
  if s.start.powered = false then .unpowered
  else if s.start.modRst then .held
  else if s.start.testEn then .scan
  else if s.integ.fenced then .fenced
  else if s.start.running ∧ s.host.hostReady then .running
  else .boot

/-- The groups of pads. -/
inductive PadGroup where
  | fronthaulTx (block lane : Fin 8)
  | fabricTx (port : Fin 20)
  | cxlTx (port : Fin 2)
  | pcieTx | keeperMdi | ppsOut | ref10mOut | synceClkOutP | synceClkOutN | thermTripN | modAlertN | flash | straps | inputs | jtagInputs | tdo
deriving DecidableEq, Repr

/-- What a pad does: `off` is a transmitter that is off and in high impedance; `scanned` follows the boundary register. -/
inductive PadLevel where
  | highZ | off | training | active | idles | silent | low | high | clock | released | asserted | driven | input
  | scanned (drive : PadDrive)
deriving DecidableEq, Repr

def levelOf (b : Bool) : PadLevel := if b then .high else .low
def openDrain (b : Bool) : PadLevel := if b then .asserted else .released

/-- A serial transmitter: off where nothing enabled uses it, idles or idle once fenced (R423, R459). -/
def serialLevel (stage : PadStage) (used : Bool) : PadLevel :=
  match stage with
  | .unpowered => .highZ
  | .held | .boot => .off
  | .scan => .off
  | .running => if used then .active else .off
  | .fenced => if used then .idles else .off

/-- A time output: driven low until the module runs, then as R61 and R67 have it. -/
def timeLevel (stage : PadStage) (level : PadLevel) : PadLevel :=
  match stage with
  | .unpowered => .highZ
  | .held | .boot => .low
  | .scan => .highZ
  | .running | .fenced => level

/-- What a group of pads does in a stage, outside boundary-scan mode (R431, R466). -/
def State.padIn (s : State) (stage : PadStage) : PadGroup → PadLevel
  | .fronthaulTx b l => serialLevel stage (s.laneServes b l).isSome
  | .fabricTx p => serialLevel stage (portEnabled s.vers.active (64 + p.val))
  | .cxlTx p => serialLevel stage ((Tab.get {} s.mem.farPorts p.val).state == .up)
  | .pcieTx => match stage with
    | .unpowered => .highZ
    | .held | .scan => .off
    | .boot => if s.host.perst then .off else .training
    | .running | .fenced => .active
  | .keeperMdi => match stage with
    | .unpowered | .held | .scan => .highZ
    | .boot => .silent
    | .running | .fenced => .active
  | .ppsOut => timeLevel stage (levelOf s.time.ppsOut)
  | .ref10mOut => timeLevel stage (levelOf s.time.ref10mOut)
  | .synceClkOutP => timeLevel stage (if s.synceOut then .clock else .low)
  | .synceClkOutN => match stage with
    | .held | .boot => .high
    | _ => timeLevel stage (if s.synceOut then .clock else .high)
  | .thermTripN => match stage with | .unpowered => .highZ | .held => .released | _ => openDrain s.thermTripN
  | .modAlertN => match stage with | .unpowered => .highZ | .held => .released | _ => openDrain s.modAlert
  | .flash => match stage with | .unpowered | .held | .scan => .highZ | _ => .driven
  | .straps => .input
  | .inputs | .jtagInputs => match stage with | .unpowered => .highZ | _ => .input
  | .tdo => .highZ

/-- The pads whose drivers the boundary register sets in boundary-scan mode: the functional outputs; the two open-drain outputs keep their
meaning and inputs stay inputs (R467, R470). -/
def PadGroup.functional : PadGroup → Bool
  | .thermTripN | .modAlertN | .straps | .inputs | .jtagInputs | .tdo => false
  | _ => true

/-- What a group of pads does. TDO is driven only while a data or instruction register shifts, which lies within one command (R466). -/
def State.pad (s : State) (g : PadGroup) : PadLevel :=
  if s.padStage = .scan ∧ g.functional then .scanned s.tap.drive else s.padIn s.padStage g

end Sys2Proof.Machine
end

