-- ==== Sys2Proof/WellFormed.lean ====
section
/-!
DEFINITION. Well-formed commands: what the types of the operands do not already say about a command that can reach the block.
A stage, vector or signal-core row's word holds that row's opcode; frames, payloads, scans and samples have the sizes the manual
gives them. A command that is not well formed still has a meaning; these checks are for a surrounding that screens commands.
-/

namespace Sys2Proof

/-- The opcode of a stage word (R161), of a vector instruction (R170), and class and opcode of a signal-core instruction
(R248). -/
def stageOp (w : BitVec 32) : Nat := (w.extractLsb' 26 6).toNat
def vectorOp (w : BitVec 64) : Nat := (w.extractLsb' 58 6).toNat
def signalOp (w : BitVec 32) : Nat × Nat := ((w.extractLsb' 28 4).toNat, (w.extractLsb' 22 5).toNat)

/-- Whether a request block is a READ (0) or a WRITE (1) under R368; 2 where it is neither. -/
def rowOf (request : BitVec 512) : Nat :=
  match (request.extractLsb' 504 8).toNat with
  | 1 => 0
  | 2 => 1
  | _ => 2

/-- Cells of the boundary register (R467). -/
def boundaryCells : Nat := 3312

/-- The units that have an edge lane, by identifier: engines, signal cores and coding units (R22, R28, R31). -/
def edgeLanes : List UnitId :=
  [(0x00, 64), (0x06, 48), (0x07, 24), (0x08, 8), (0x09, 4), (0x0A, 8), (0x0B, 8)].flatMap
    (fun (p : Nat × Nat) => (List.range p.2).map (fun i => BitVec.ofNat 16 (p.1 * 256 + i)))

/-- A start-up report names both far ports, and each array row once (R28, R120). -/
def StartupReport.wf (r : StartupReport) : Bool :=
  decide (r.farCapacity.length = 2 ∧ r.farWidth.length = 2 ∧ r.farSpeed.length = 2 ∧ r.arrayFaultyRows.Nodup ∧
    r.laneLatency.map (fun q => q.1) = edgeLanes)

/-- Whether a command is well formed: sizes of R232, R254, R268, R271, R299, R322, R437, R443, R444 and R467, and the opcode of its
own row. -/
def Instr.wf : Instr → Bool
  | .timeBaseTick => true
  | .timeIncrementWrite _ _ => true
  | .timePhaseStepWrite _ => true
  | .phaseStepApply => true
  | .timeSetWrite _ => true
  | .timeSetLoad => true
  | .holdoverDetectExpiry => true
  | .holdoverLimitExpiry => true
  | .ppsInEdge => true
  | .ref10mDriftSample => true
  | .synceLockLoss => true
  | .edgeEmit _ _ => true
  | .windowStartEdge _ _ => true
  | .windowEndEdge _ _ => true
  | .periodBoundary => true
  | .groupGate _ => true
  | .confirmDeadlineUngate => true
  | .autoRevert => true
  | .pollSlotStart _ => true
  | .summaryLineRead _ _ _ => true
  | .batchRecordFetch _ _ _ => true
  | .stepRoute _ _ _ => true
  | .completionRecordWrite _ => true
  | .nop _ _ => true
  | .product _ _ => true
  | .vector _ _ => true
  | .load _ _ => true
  | .store _ _ => true
  | .gather _ _ => true
  | .moor _ _ _ => true
  | .release _ _ => true
  | .stepCommit _ _ => true
  | .semaphoreSignal _ _ => true
  | .passStart _ _ _ => true
  | .passCommit _ _ _ => true
  | .passAbandon _ _ _ => true
  | .passRerun _ _ _ => true
  | .parityDetect _ _ _ => true
  | .producerRerun _ _ _ => true
  | .tenderFetchIssue _ _ => true
  | .lineArrive _ _ _ _ => true
  | .writeIssue _ _ => true
  | .writeAcknowledge _ _ _ => true
  | .scrubStart _ => true
  | .scrubComplete _ => true
  | .tileChainWork _ _ => true
  | .scale _ stage => stageOp stage == 1
  | .bias _ stage => stageOp stage == 2
  | .colscale _ stage => stageOp stage == 3
  | .residual _ stage => stageOp stage == 4
  | .act _ stage => stageOp stage == 5
  | .gatepair _ stage => stageOp stage == 6
  | .norm _ stage => stageOp stage == 7
  | .softmax _ stage => stageOp stage == 8
  | .online _ stage => stageOp stage == 9
  | .merge _ stage => stageOp stage == 10
  | .convert _ stage => stageOp stage == 11
  | .quant _ stage => stageOp stage == 12
  | .heldBandFinish _ _ => true
  | .vectorProgramRun _ _ => true
  | .vecAdd _ word => vectorOp word == 0
  | .vecSub _ word => vectorOp word == 1
  | .vecMul _ word => vectorOp word == 2
  | .fma _ word => vectorOp word == 3
  | .max _ word => vectorOp word == 4
  | .min _ word => vectorOp word == 5
  | .abs _ word => vectorOp word == 6
  | .vecNeg _ word => vectorOp word == 7
  | .mov _ word => vectorOp word == 8
  | .sel _ word => vectorOp word == 9
  | .adds _ word => vectorOp word == 10
  | .muls _ word => vectorOp word == 11
  | .ceq _ word => vectorOp word == 16
  | .cne _ word => vectorOp word == 17
  | .clt _ word => vectorOp word == 18
  | .cle _ word => vectorOp word == 19
  | .cgt _ word => vectorOp word == 20
  | .cge _ word => vectorOp word == 21
  | .sfu _ word => vectorOp word == 24
  | .vecRsum _ word => vectorOp word == 32
  | .rmax _ word => vectorOp word == 33
  | .vecBcast _ word => vectorOp word == 34
  | .rnd _ word => vectorOp word == 40
  | .qnt _ word => vectorOp word == 41
  | .cvti _ word => vectorOp word == 42
  | .ldv _ word => vectorOp word == 48
  | .stv _ word => vectorOp word == 49
  | .sadd _ word => vectorOp word == 56
  | .smul _ word => vectorOp word == 57
  | .smov _ word => vectorOp word == 58
  | .sfrom _ word => vectorOp word == 59
  | .gatherPoolLine _ _ => true
  | .sendTile _ _ _ => true
  | .sendLinesAcked _ _ _ => true
  | .sendCreditReread _ _ _ => true
  | .sendCreditTimeout _ _ _ => true
  | .planFetch _ => true
  | .planReadComplete _ _ _ pdus => decide (pdus.length ≤ 128)
  | .cplaneWindowOpen _ _ _ => true
  | .ulWindowClose _ _ => true
  | .ldpcDecode _ block _ _ => decide (2 ≤ block.z.toNat ∧ block.z.toNat ≤ 384)
  | .ldpcEncode _ block _ => decide (2 ≤ block.z.toNat ∧ block.z.toNat ≤ 384)
  | .polarDecode _ _ _ _ => true
  | .polarEncode _ _ _ => true
  | .dft _ _ _ _ _ => true
  | .interpolation _ _ _ _ _ => true
  | .prachCorrelation _ _ _ _ _ => true
  | .codingOpComplete _ => true
  | .ulResultDeadline _ => true
  | .ulResultRecordWrite _ _ => true
  | .dlPayloadComplete _ _ _ _ => true
  | .deadlineWatchdog _ _ => true
  | .radioCompletionWrite _ => true
  | .jobInputDma _ _ xData yData _ => decide (xData.length ≤ 65536 ∧ yData.length ≤ 65536)
  | .jobStart _ _ => true
  | .jobOutputWrite _ => true
  | .jobRerun _ _ _ _ => true
  | .programReloadComplete _ => true
  | .cmul _ word => signalOp word == (0, 0)
  | .cmac _ word => signalOp word == (0, 1)
  | .cmulj _ word => signalOp word == (0, 2)
  | .cmacj _ word => signalOp word == (0, 3)
  | .cmsu _ word => signalOp word == (0, 4)
  | .csq _ word => signalOp word == (0, 5)
  | .accrd _ word => signalOp word == (1, 0)
  | .accz _ word => signalOp word == (1, 1)
  | .accld _ word => signalOp word == (1, 2)
  | .arsum _ word => signalOp word == (1, 3)
  | .ld _ word => signalOp word == (2, 0)
  | .st _ word => signalOp word == (2, 1)
  | .ld2 _ word => signalOp word == (2, 2)
  | .setp _ word => signalOp word == (3, 0)
  | .addp _ word => signalOp word == (3, 1)
  | .setm _ word => signalOp word == (3, 2)
  | .movps _ word => signalOp word == (3, 3)
  | .scAdd _ word => signalOp word == (4, 0)
  | .addi _ word => signalOp word == (4, 1)
  | .scSub _ word => signalOp word == (4, 2)
  | .scAnd _ word => signalOp word == (4, 3)
  | .scOr _ word => signalOp word == (4, 4)
  | .scXor _ word => signalOp word == (4, 5)
  | .shl _ word => signalOp word == (4, 6)
  | .shr _ word => signalOp word == (4, 7)
  | .sar _ word => signalOp word == (4, 8)
  | .scMul _ word => signalOp word == (4, 9)
  | .cmp _ word => signalOp word == (4, 10)
  | .movi _ word => signalOp word == (4, 11)
  | .conj _ word => signalOp word == (5, 0)
  | .scNeg _ word => signalOp word == (5, 1)
  | .shift _ word => signalOp word == (5, 2)
  | .scBcast _ word => signalOp word == (5, 3)
  | .rot _ word => signalOp word == (5, 4)
  | .scRsum _ word => signalOp word == (5, 5)
  | .zero _ word => signalOp word == (5, 6)
  | .addv _ word => signalOp word == (5, 7)
  | .branch _ word => signalOp word == (6, 0)
  | .call _ word => signalOp word == (6, 1)
  | .ret _ word => signalOp word == (6, 2)
  | .loop _ word => signalOp word == (6, 3)
  | .rep _ word => signalOp word == (6, 4)
  | .scEnd _ word => signalOp word == (6, 5)
  | .eret _ word => signalOp word == (6, 6)
  | .scBreak _ word => signalOp word == (6, 7)
  | .scNop _ word => signalOp word == (6, 8)
  | .mfc _ word => signalOp word == (7, 0)
  | .mtc _ word => signalOp word == (7, 1)
  | .macld _ word => signalOp word == (8, 0)
  | .frameRx _ frame _ _ => decide (frame.length ≤ 9000)
  | .portDown _ => true
  | .portUp _ => true
  | .frameSelect _ => true
  | .gateEdge _ => true
  | .mgmtTxDescriptor _ frame => decide (frame.length ≤ 9216)
  | .mgmtTxTimeout _ => true
  | .mgmtEnableWrite _ => true
  | .macsecSakInstall _ => true
  | .segmentRead _ _ _ _ _ _ => true
  | .segmentWrite _ _ write => decide (1 ≤ write.data.length ∧ write.offset.toNat + write.data.length ≤ 256)
  | .writeHoldExpiry _ _ => true
  | .mergeReadDecode _ _ => true
  | .edcReplay _ _ => true
  | .patrolRead _ => true
  | .regionClearComplete _ => true
  | .farTimeout _ _ _ _ _ => true
  | .farPortDown _ => true
  | .d2dFlitReplay _ => true
  | .d2dTrainingLoss _ => true
  | .d2dRetrainTimeout _ => true
  | .fabricRead _ => true
  | .fabricWrite _ payload => decide (payload.length % 64 = 0 ∧ payload.length ≤ 4096)
  | .fetchAdd _ => true
  | .swap _ => true
  | .cas _ => true
  | .notify _ => true
  | .replyRx _ payload => decide (payload.length % 64 = 0 ∧ payload.length ≤ 4096)
  | .ackRx _ => true
  | .keepaliveRx _ => true
  | .resetRx _ => true
  | .retransmitTimeout _ _ _ => true
  | .replyRetry _ _ => true
  | .keepaliveTimer _ => true
  | .peerSilent _ => true
  | .peerDead _ => true
  | .operationDeadTimeout _ _ => true
  | .fence _ _ _ => true
  | .fenceTimeout _ _ => true
  | .mirrorRestart _ => true
  | .instanceReset _ => true
  | .instanceQuiesce _ => true
  | .instanceResume _ => true
  | .vfFlr _ => true
  | .instanceRingsWrite _ _ => true
  | .providerRingWrite _ => true
  | .quiesceComplete _ => true
  | .flushReadComplete _ => true
  | .flushReadTimeout _ => true
  | .instanceResetComplete _ => true
  | .pfFlr => true
  | .vfEnableChange _ _ => true
  | .hotReset => true
  | .linkDown => true
  | .perstNAssert => true
  | .hostReadCompletion _ _ _ => true
  | .hostReadTimeout _ => true
  | .atsInvalidation _ _ _ => true
  | .barUnmappedWrite _ _ => true
  | .msixUnmask _ _ => true
  | .dirtyLogWrite _ _ => true
  | .harvest _ => true
  | .instanceExport _ _ => true
  | .instanceImport _ _ => true
  | .ideStreamLoss _ => true
  | .dictionaryRead _ request _ => rowOf request == 0
  | .dictionaryWrite _ request _ _ _ => rowOf request == 1
  | .commit _ _ => true
  | .revert _ _ => true
  | .confirm _ _ _ => true
  | .stageReset _ value => value == 1
  | .keeperLinkUp _ _ => true
  | .keeperLinkDown => true
  | .keeperFrameRx _ _ _ _ _ _ _ => true
  | .securedRequest _ request _ _ => decide (rowOf request ≤ 1)
  | .neighbourSolicitation _ _ _ => true
  | .icmpv6Echo _ _ _ => true
  | .keeperSessionIdleTimeout _ => true
  | .keeperTestModeWrite _ _ => true
  | .getVersion _ _ => true
  | .getCapabilities _ _ => true
  | .negotiateAlgorithms _ _ => true
  | .getDigests _ _ => true
  | .getCertificate _ _ => true
  | .challenge _ _ => true
  | .getMeasurements _ _ => true
  | .keyExchange _ _ => true
  | .finish _ _ => true
  | .heartbeat _ _ => true
  | .keyUpdate _ _ => true
  | .endSession _ _ => true
  | .eventRecordWrite _ => true
  | .faultLogWrite => true
  | .complementSweep => true
  | .selfTestSegment _ _ _ _ => true
  | .soundingShadow _ _ _ => true
  | .arbiterPass _ _ _ => true
  | .arbitrationTimeout _ => true
  | .healthDecay => true
  | .expel _ _ _ => true
  | .readmit _ _ _ => true
  | .setKeys _ _ _ => true
  | .managerKeysApply _ value _ => value == 1
  | .quarantineClear _ _ => true
  | .firmwareHeartbeatTimeout => true
  | .modRstNRelease found => found.wf
  | .modRstNAssert => true
  | .moduleReset _ => true
  | .firmwareRestart _ => true
  | .resetBegin found => found.wf
  | .eraseInactive _ => true
  | .armTrial _ => true
  | .confirmRunning _ => true
  | .advanceRollback _ => true
  | .imageWrite _ offset data => decide (offset.toNat % 4096 = 0 ∧ data.length % 4096 = 0)
  | .integratorKeyDigestWrite _ _ => true
  | .powerSample rails => decide (rails.length = 10)
  | .powerLimitEvent => true
  | .temperatureSample readings => decide (readings.length = 59)
  | .thermalTripTimeout _ => true
  | .progControlWrite _ _ _ => true
  | .snapshotNow _ value => value == 1
  | .extest pads drive => decide (pads.length = boundaryCells ∧ drive.length = boundaryCells)
  | .idcode => true
  | .samplePreload pads preload => decide (pads.length = boundaryCells ∧ preload.length = boundaryCells)
  | .extestPulse pads drive => decide (pads.length = boundaryCells ∧ drive.length = boundaryCells)
  | .extestTrain pads drive => decide (pads.length = boundaryCells ∧ drive.length = boundaryCells)
  | .clamp => true
  | .highz => true
  | .bypass => true
  | .trstNAssert => true
  | .d2dLinkRetrained _ => true
  | .hostLinkUp _ _ _ => true
  | .perstNRelease => true
  | .powerDown => true
  | .synceLockRegain => true
  | .ref10mInLoss => true
  | .uplaneWindowOpen _ _ => true
  | .neighbourAdvertisement _ _ => true
  | .ideKmKeyProg _ _ _ => true
  | .ideStreamSecure _ => true
  | .doeDiscovery _ => true

end Sys2Proof
end

