-- ==== Sys2Proof/Safety.lean ====
section
/-!
DEFINITION. What a claim calls a safe state: the bytes of both memory tiers in canonical form, so that equal memories are equal data.
-/

namespace Sys2Proof.Machine

/-- The canonical form of the two memory tiers: addresses strictly rising, and no byte listed that an unlisted address reads
as. -/
def Memory.wf (m : Memory) : Bool := Tab.wf 0 m.near && Tab.wf 0 m.far

/-- A state whose memory is in canonical form. -/
def State.memOk (s : State) : Prop := s.mem.wf = true

/-- Every command that waits is well formed. -/
def State.queueOk (s : State) : Prop := ∀ c ∈ s.pending, c.wf = true

/-- A signal core runs a job and the word is the well-formed instruction of a class and operation at its issue, outside a repeat and
with no exception held; what it reads is ready, and what it costs is left of the job's budget (R249, R251, R256). -/
def State.issuesWord (s : State) (n : Fin 48) (word : BitVec 32) (cls op : Nat) (sources : List Nat) (check : Nat) : Prop :=
  s.noWork = false ∧ (s.core n).stopped = false ∧
  ((s.core n).program = [] ∨ Tab.get 0 (s.core n).program (s.core n).pc.toNat = word) ∧
  scReserved word.toNat = false ∧ scClass word.toNat = cls ∧ scOp word.toNat = op ∧ (s.core n).rep = none ∧ (s.core n).held = [] ∧
  ∃ j, (s.core n).job = some j ∧ (s.core n).issueAt sources + check ≤ j.budget

/-- A core after an instruction whose results are `c`: it has come to a cycle and to the next address, and nothing else of it changed;
inside a loop the level's count and depth may have moved (R251, R252). -/
def SignalCore.goesOn (c d : SignalCore) (elapsed : Nat) (next : BitVec 14) : Prop :=
  d = { c with elapsed := elapsed, pc := d.pc, depth := d.depth, lc := d.lc } ∧
  (c.depth = 0 → d = { c with elapsed := elapsed, pc := next })

/-- A packet of a kind that a peer of this module sent to it: good version, destination and source, the peer's incarnation known and the
peer not DEAD (R321, R335, R338, R340). -/
def State.validFrom (s : State) (p : BitVec 12) (h : Header) (kind : Nat) : Prop :=
  h.version = 1 ∧ h.kind = kind ∧ h.dest = s.moduleId ∧ s.noWork = false ∧ s.peerOf h.source = some p ∧
  BitVec.ofNat 16 h.sourceInc = (s.peer p).remoteIncarnation ∧ (s.peer p).liveness ≠ .dead

/-- A request that carries no acknowledgement and is the next its stream expects, nothing of the stream waiting (R324). -/
def State.nextInOrder (s : State) (p : BitVec 12) (h : Header) : Prop :=
  h.destInc = s.fabric.incarnation.toNat ∧ h.ackValid = false ∧ ((s.peer p).stream h.cls).expect = h.psn ∧
  ((s.peer p).stream h.cls).bitmap = [] ∧ ((s.peer p).stream h.cls).notifies = [] ∧ ((s.peer p).stream h.cls).applied = []

/-- A byte of near memory whose segment reads as it was written: its channel serves, nothing is held for it, it carries no marker, and no
mirror covers it (R295, R299, R341). -/
def State.plainByte (s : State) (a : Nat) : Prop :=
  ∃ die, s.nearDie a = some die ∧ (s.channel (s.interleave die a).1).state ≠ .failed ∧
    (s.channel (s.interleave die a).1).held (s.interleave die a).2 = none ∧ Tab.get .good s.mem.marks (a / 256) = .good ∧
    s.mirrorOf (a / 256 * 256) = none

/-- The physical function's requests are served: its window is reached, the control cores serve, and the module is not in recovery (R349,
R371, R436). -/
def State.pfServed (s : State) : Prop := s.reaches .pf = true ∧ s.serving = true ∧ s.start.recovery = false

/-- The answer of a request stands in the physical function's window with a Reason, and is counted: nothing else of `t` differs from `s'`,
the state after the request's own effect (R369, R371). -/
def State.answered (s s' t : State) (reason : BitVec 8) : Prop :=
  t = { s' with vers := { s'.vers with stats := t.vers.stats }, host := { s'.host with windows := t.host.windows } } ∧
  (Tab.get {} t.host.windows 0).state = 2 ∧ (Tab.get {} t.host.windows 0).reason = reason ∧
  (∀ k, k ≠ 0 → Tab.get {} t.host.windows k = Tab.get {} s.host.windows k) ∧
  Tab.get 0 t.vers.stats 0 = Tab.get 0 s.vers.stats 0 + 1 ∧
  Tab.get 0 t.vers.stats 1 = Tab.get 0 s.vers.stats 1 + (if reason = rsNone then 0 else 1)

/-- What a reset keeps: flash, fuses, the fault log and far memory outlive every reset; the fault log takes the records that wait unless the
rails go. -/
def State.flashKept (s t : State) : Prop :=
  t.start.fuses = s.start.fuses ∧ t.start.revoked = s.start.revoked ∧ t.start.debugLock = s.start.debugLock ∧
  t.start.integratorDigest = s.start.integratorDigest ∧ t.start.integratorLocked = s.start.integratorLocked ∧
  t.mem.far = s.mem.far ∧ t.pending = s.pending

/-- The slot that boots, and what is found of it: what the boot ROM chooses after everything volatile is lost. -/
def State.bootChoice (s : State) (kind : ResetKind) : Option Nat :=
  (State.chooseSlot { s with start := { s.start with
    lastReset := kind, images := Tab.mapAll {} (fun _ (i : ImageSlot) => { i with verified := false }) s.start.images } } 3).2

end Sys2Proof.Machine
end

