-- ==== Sys2Proof/Certificates/Slice0/Obligations.lean ====
section
/-!
DEFINITION. The statements about the machine, family by family: what a step does, what each command does to the state when the
manual's conditions hold, and what it leaves as it was.
-/

open Sys2Proof Sys2Proof.Machine

/-! ### The queue and the whole machine -/

/-- A step takes the command at the front of the queue and is its effect on the state with the queue's rest. On an empty queue the host
port sends the oldest posted write it holds, and nothing happens while it holds none (R347; that the block does this in place of idling is
the model's choice, assumption 2). The model's own readings it rests on: assumption 1. -/
def Obligations.StepRunsTheFront : Prop :=
  (∀ (s : State) (c : Instr) (rest : List Instr), s.pending = c :: rest → step s = exec c { s with pending := rest }) ∧
  ((∀ s : State, s.pending = [] → step s = .next s.sendWrite) ∧
   (∀ s : State, s.pending = [] → s.host.writes = [] → step s = .next s))

/-- Every command completes: whatever waits at the front of the queue, a step answers a next state, in which the rest of the queue waits
as before; and every command, on any operands and in any state, is answered with a next state that keeps the queue. The model's own
readings it rests on: assumptions 1, 3. -/
def Obligations.EveryCommandCompletes : Prop :=
  (∀ (s : State) (c : Instr) (rest : List Instr), s.pending = c :: rest → ∃ t, step s = .next t ∧ t.pending = rest) ∧
  (∀ (s : State) (c : Instr), ∃ t, exec c s = .next t ∧ t.pending = s.pending)

/-- Memory in canonical form stays in canonical form, whatever the step. The model's own readings it rests on: assumption 8. -/
def Obligations.StepKeepsMemory : Prop :=
  ∀ s t : State, s.mem.wf = true → step s = .next t → t.mem.wf = true

/-- After reset the memory is in canonical form, no command waits, TimeQuality is UNSET and the increment pair is the nominal one with its
complement. The model's own readings it rests on: assumptions 5, 6. -/
def Obligations.ResetState : Prop :=
  State.reset.mem.wf = true ∧ State.reset.pending = [] ∧ State.reset.time.quality = .unset ∧
  State.reset.time.incActive = 0x147AE147B#64 ∧ State.reset.time.incActiveC = ~~~0x147AE147B#64

/-! ### Time -/

/-- A tick of the time base adds the active increment, whose pair is good, to the time, and counts; nothing but the time base changes. The
model's own readings it rests on: assumption 11. -/
def Obligations.TimeTick : Prop :=
  ∀ s : State, s.time.increment.2 = 0 → s.time.units + s.time.incActive.toNat < 2 ^ 48 * secondUnits →
    ∃ t, exec .timeBaseTick s = .next t ∧ t = { s with time := t.time } ∧
      t.time.units = s.time.units + s.time.incActive.toNat ∧ t.time.ticks = s.time.ticks + 1

/-- A write of TimeIncrement that carries a value in range and its exact complement is used from then on and refreshes the holdover timer;
any other write leaves the state as it was. -/
def Obligations.TimeIncrementWrite : Prop :=
  ∀ (s : State) (value comp : BitVec 64),
    (comp = ~~~value → 0x1479D4D84 ≤ value.toNat → value.toNat ≤ 0x147BEDB72 →
      ∃ t, exec (.timeIncrementWrite value comp) s = .next t ∧
        t = { s with time := t.time, freeCount := t.freeCount, integ := t.integ, host := t.host } ∧
        t.time.incActive = value ∧ t.time.incActiveC = comp ∧ t.time.sinceRefresh = 0 ∧ t.time.refreshed = true ∧
        t.time.units = s.time.units ∧
        (t.time.units + value.toNat < 2 ^ 48 * secondUnits →
          ∃ u, exec .timeBaseTick t = .next u ∧ u.time.units = t.time.units + value.toNat)) ∧
    (comp ≠ ~~~value ∨ value.toNat < 0x1479D4D84 ∨ 0x147BEDB72 < value.toNat →
      exec (.timeIncrementWrite value comp) s = .next s)

/-- A phase step, written while none awaits, that PhaseStepLimit allows waits to be applied; a larger one begins a load where the active
version has no RAN window and is refused where it has one. In the final eclipse of the period the pending step is applied: it moves the
time by the step and leaves nothing else changed; before it, it waits. A valid TimeSet, in UNSET or in a version without RAN windows, is
held and begins an eclipse; once every admitted operation has ended the time base takes its value, or moves by the step that was held. The
model's own readings it rests on: assumption 14. -/
def Obligations.TimeStepsAndSets : Prop :=
  (∀ (s : State) (step : BitVec 64),
     (s.time.stepAwaits = false → step.toInt.natAbs ≤ s.act 0x2007 0 0 * 65536 →
       ∃ t, exec (.timePhaseStepWrite step) s = .next t ∧ t = { s with time := { s.time with stepPending := some step } }) ∧
     (s.time.stepAwaits = false → s.act 0x2007 0 0 * 65536 < step.toInt.natAbs → hasRanWindow s.vers.active = false →
       ∃ t, exec (.timePhaseStepWrite step) s = .next t ∧ t = { s with time := { s.time with load := some (.step step) }, chr := t.chr } ∧
         t.chr.suspended = true) ∧
     (s.time.stepAwaits = true ∨ (s.act 0x2007 0 0 * 65536 < step.toInt.natAbs ∧ hasRanWindow s.vers.active = true) →
       exec (.timePhaseStepWrite step) s = .next s) ∧
     (s.time.stepPending = some step → s.finalEclipse = true →
       ∃ t, exec .phaseStepApply s = .next t ∧ t = { s with time := t.time } ∧ t.time.stepPending = none ∧
         (0 ≤ (s.time.units : Int) + step.toInt * 65536 → (s.time.units : Int) + step.toInt * 65536 < 2 ^ 48 * secondUnits →
           (t.time.units : Int) = s.time.units + step.toInt * 65536)) ∧
     (s.finalEclipse = false → exec .phaseStepApply s = .next s)) ∧
  ((∀ (s : State) (value : BitVec 96), value.toNat / 65536 % 2 ^ 32 < 10 ^ 9 →
     (s.time.quality = .unset ∨ hasRanWindow s.vers.active = false) →
     ∃ t, exec (.timeSetWrite value) s = .next t ∧
       t = { s with time := t.time, chr := t.chr, freeCount := t.freeCount, integ := t.integ, host := t.host } ∧
       t.time.load = some (.absolute value) ∧ t.time.setSinceReset = true ∧ t.chr.suspended = true ∧ t.time.units = s.time.units) ∧
   (∀ (s : State) (value : BitVec 96), value.toNat / 65536 % 2 ^ 32 < 10 ^ 9 → s.quiet = true → s.time.load = some (.absolute value) →
     ∃ t, exec .timeSetLoad s = .next t ∧ t = { s with time := t.time, chr := t.chr } ∧ t.time.load = none ∧
       t.time.units = unitsOfStamp value * 65536) ∧
   (∀ (s : State) (d : BitVec 64), s.quiet = true → s.time.load = some (.step d) →
     0 ≤ (s.time.units : Int) + d.toInt * 65536 → (s.time.units : Int) + d.toInt * 65536 < 2 ^ 48 * secondUnits →
     ∃ t, exec .timeSetLoad s = .next t ∧ t = { s with time := t.time, chr := t.chr } ∧ t.time.load = none ∧
       (t.time.units : Int) = s.time.units + d.toInt * 65536))

/-- The transitions of TimeQuality that no refresh makes: TRACKING becomes HOLDOVER once HoldoverDetectInterval has passed with none, and
HOLDOVER becomes HOLDOVER_EXPIRED once HoldoverElapsed has reached HoldoverLimit; until then, and in any other state, nothing changes. The
time pads: PPS_IN latches the time and counts; a sample of REF10M_IN starts a measurement or records the elapsed time less 1 s, rounded
half up to 2^-16 ns; losing the input makes the drift read its invalid value; the lock of the recovered clock is lost, and is regained
while the selected link is up, so that SYNCE_CLK_OUT carries the clock then and is held low otherwise. The model's own readings it rests
on: assumptions 3, 11, 12. -/
def Obligations.HoldoverAndPads : Prop :=
  ((∀ s : State, s.time.quality = .tracking → s.obj 0x2004 0 0 * 781250 ≤ s.time.sinceRefresh →
     ∃ t, exec .holdoverDetectExpiry s = .next t ∧
       t = { s with time := { s.time with quality := .holdover }, freeCount := t.freeCount, integ := t.integ, host := t.host } ∧
       s.integ.raised < t.integ.raised) ∧
   (∀ s : State, s.time.quality ≠ .tracking ∨ s.time.sinceRefresh < s.obj 0x2004 0 0 * 781250 →
     exec .holdoverDetectExpiry s = .next s) ∧
   (∀ s : State, s.time.quality = .holdover → s.obj 0x2005 0 0 ≤ s.time.holdoverElapsed.toNat →
     ∃ t, exec .holdoverLimitExpiry s = .next t ∧
       t = { s with time := { s.time with quality := .expired }, freeCount := t.freeCount, integ := t.integ, host := t.host } ∧
       s.integ.raised < t.integ.raised) ∧
   (∀ s : State, s.time.quality ≠ .holdover ∨ s.time.holdoverElapsed.toNat < s.obj 0x2005 0 0 →
     exec .holdoverLimitExpiry s = .next s)) ∧
  ((∀ s : State, ∃ t, exec .ppsInEdge s = .next t ∧ t = { s with time := t.time } ∧
     t.time = { s.time with ppsCapture := s.time.stamp, ppsCount := s.time.ppsCount + 1 }) ∧
   (∀ s : State, s.time.ref10mStart = none →
     exec .ref10mDriftSample s = .next { s with time := { s.time with ref10mStart := some s.time.units } }) ∧
   (∀ (s : State) (t0 : Nat) (d : Int), s.time.ref10mStart = some t0 →
     65536 * d ≤ (s.time.units : Int) - t0 - secondUnits + 32768 → (s.time.units : Int) - t0 - secondUnits + 32768 < 65536 * d + 65536 →
     -2147483648 ≤ d → d < 2147483648 →
     ∃ t, exec .ref10mDriftSample s = .next t ∧ t = { s with time := t.time } ∧ t.time.ref10mDrift.toInt = d ∧
       t.time = { s.time with ref10mStart := some s.time.units, ref10mDrift := t.time.ref10mDrift }) ∧
   (∀ s : State, ∃ t, exec .ref10mInLoss s = .next t ∧ t = { s with time := t.time } ∧
     t.time = { s.time with ref10mStart := none, ref10mDrift := 0x80000000#32 }) ∧
   (∀ s : State, ∃ t, exec .synceLockLoss s = .next t ∧ t = { s with links := { s.links with synceLocked := false } } ∧
     t.synceOut = false) ∧
   (∀ s : State, ∃ t, exec .synceLockRegain s = .next t ∧ t = { s with links := t.links } ∧ t.links.linkRates = s.links.linkRates ∧
     (t.synceOut = true ↔ ∃ p : Fin 84, p.val < 64 ∧ p.val = s.obj 0x2030 0 0 ∧ (s.port p).state = .up)))

/-! ### The Characteristic and the period -/

/-- The next edge toward an island, whose instant less the lane latency has come, is emitted, once; ahead of the boundary the edges of the
period that follows are emitted likewise, under the version that will be active then. Nothing but that island's count of edges changes. A
lane that is lost, and an edge that has been emitted and is not due early, change nothing. A start edge that arrives at an island which
has a good list entry for the window, and whose last window's work has ended, takes effect: the window is open from then on. Only that
island and what the unit keeps and counts of the window change. An edge that does not arrive changes nothing. An end edge that arrives
closes the window it ends at its island, and leaves another window open; one that does not arrive changes nothing. The model's own
readings it rests on: assumptions 18, 19. -/
def Obligations.WindowEdges : Prop :=
  (∀ (s : State) (u : UnitId) (index : BitVec 14),
     (s.laneLost u = false → s.chr.suspended = false → nextEdge s.vers.active u (s.island u).emitted = some index.toNat →
       reached s.intoUnits (s.island u).latency.toNat (edgeInstant s.vers.active index.toNat) = true →
       exec (.edgeEmit u index) s = .next (s.setIsland u { s.island u with emitted := index.toNat + 1 })) ∧
     (s.laneLost u = false → (s.chr.suspended = true ∨ nextEdge s.vers.active u (s.island u).emitted ≠ some index.toNat) →
       s.time.load = none → s.boundaryOf s.nextVersion = true → nextEdge s.nextVersion u (s.island u).emittedEarly = some index.toNat →
       reached s.intoUnits (s.island u).latency.toNat (edgeInstant s.nextVersion index.toNat + s.periodFrames * 10 ^ 7) = true →
       exec (.edgeEmit u index) s = .next (s.setIsland u { s.island u with emittedEarly := index.toNat + 1 })) ∧
     (s.laneLost u = true ∨ (index.toNat < (s.island u).emitted ∧
         reached s.intoUnits (s.island u).latency.toNat (edgeInstant s.nextVersion index.toNat + s.periodFrames * 10 ^ 7) = false) →
       exec (.edgeEmit u index) s = .next s)) ∧
  ((∀ (s : State) (u : UnitId) (entry : BitVec 13) (l : ListEntry), s.edgeArrives u (2 * entry.toNat) = true →
     s.chr.suspended = false → s.integ.fenced = false →
     (s.island u).checked entry.toNat = (some l, false) → s.workEnds u = [] →
     (UnitId.kind u = 0 → ∀ c ∈ s.admitted (BitVec.ofNat 6 (UnitId.index u)) l.win,
       (Tab.get {} (s.engine (BitVec.ofNat 6 (UnitId.index u))).bounds c.toNat).comp =
         ~~~(Tab.get {} (s.engine (BitVec.ofNat 6 (UnitId.index u))).bounds c.toNat).value) →
     ∃ t, exec (.windowStartEdge u entry) s = .next t ∧
       t = { s with chr := { s.chr with islands := t.chr.islands }, engines := t.engines, cores := t.cores, radio := t.radio, ctrs := t.ctrs } ∧
       t.island u = { s.island u with current := some l, lastWindow := some entry.toNat, waitsForLate := false, taken := 2 * entry.toNat + 1 } ∧
       (∀ v, v ≠ u → t.island v = s.island v) ∧
       (UnitId.kind u ≠ 0 → t.engines = s.engines ∧ t.ctrs = s.ctrs) ∧ (UnitId.kind u ≠ 6 → t.cores = s.cores) ∧
       (UnitId.kind u = 0 ∨ UnitId.kind u = 6 → t.radio = s.radio)) ∧
   (∀ (s : State) (u : UnitId) (entry : BitVec 13), s.edgeArrives u (2 * entry.toNat) = false ∨ s.chr.suspended = true ∨ s.integ.fenced = true →
     exec (.windowStartEdge u entry) s = .next s)) ∧
  (∀ (s : State) (u : UnitId) (entry : BitVec 13),
     (s.edgeArrives u (2 * entry.toNat + 1) = true →
       (∀ l, (s.island u).current = some l → l.window = entry.toNat →
         exec (.windowEndEdge u entry) s = .next (s.setIsland u { s.island u with current := none, taken := 2 * entry.toNat + 2 })) ∧
       ((∀ l, (s.island u).current = some l → l.window ≠ entry.toNat) →
         exec (.windowEndEdge u entry) s = .next (s.setIsland u { s.island u with taken := 2 * entry.toNat + 2 }))) ∧
     (s.edgeArrives u (2 * entry.toNat + 1) = false → exec (.windowEndEdge u entry) s = .next s))

/-- A group that the active version does not name, that no coming activation needs and that has no pass or VECTOR tile in progress is
gated; within 50 µs of the confirm deadline the groups of the previous version are ungated. A period boundary at which every ledger
balances, nothing activates and no order is due: PeriodCount takes the period's number, the edges emitted ahead of it count for it where
it is the first of the version's period, gate lists begin anew, a requested snapshot is latched, and written controls apply. The model's
own readings it rests on: assumptions 16, 17, 122. -/
def Obligations.PeriodBoundaries : Prop :=
  ((∀ (s : State) (g : BitVec 3), g.toNat ∉ namedGroups s.vers.active → g.toNat ∉ s.groupsWanted →
     (∀ k, k < 8 → (s.engine (BitVec.ofNat 6 (8 * g.toNat + k))).vuPass = none ∧
       ∀ p ∈ (s.engine (BitVec.ofNat 6 (8 * g.toNat + k))).arrays, p.2.flight = [] ∧ p.2.reruns = []) →
     ∃ t, exec (.groupGate g) s = .next t ∧ t = { s with chr := { s.chr with gated := t.chr.gated } } ∧
       t.chr.gated.getLsbD g.toNat = true ∧ ∀ k, k ≠ g.toNat → t.chr.gated.getLsbD k = s.chr.gated.getLsbD k) ∧
   (∀ s : State, s.deadlineNear = true →
     ∃ t, exec .confirmDeadlineUngate s = .next t ∧
       t = { s with chr := { s.chr with gated := t.chr.gated }, integ := { s.integ with ledgers := t.integ.ledgers } } ∧
       (∀ g ∈ namedGroups s.vers.previous, t.chr.gated.getLsbD g = false) ∧
       ∀ k, k ∉ namedGroups s.vers.previous → t.chr.gated.getLsbD k = s.chr.gated.getLsbD k)) ∧
  (∀ s : State, s.start.running = true → s.chr.periodCount ≠ s.periodNow → s.integ.ledgers = [] → s.revertDue = false →
     (s.vers.phase = .unconfirmed → s.deadlineLeft s.periodNow ≠ none) → s.vers.due = none → s.integ.orderPending = none →
     ∃ t, exec .periodBoundary s = .next t ∧
       t = { s with chr := t.chr, ports := t.ports, host := t.host, ctrs := t.ctrs } ∧
       t.chr.periodCount = s.time.periodCount s.periodFrames ∧
       t.chr.suspended = (s.time.load.isSome || decide ((s.time.frame % s.periodFrames).toNat ≠ 0)) ∧
       (∀ u, t.island u = { s.island u with
         emitted := if (s.time.frame % s.periodFrames).toNat = 0 then (s.island u).emittedEarly else 0, emittedEarly := 0, taken := 0 }) ∧
       (∀ p, t.port p = { s.port p with gateEntry := 0 }) ∧ t.ctrs.waiting = [] ∧
       (s.ctrs.snapRequested = true → t.ctrs.snapRequested = false ∧ t.ctrs.snapCount = s.ctrs.snapCount + 1))

/-- At the first boundary at least 50 µs after a COMMIT the staged version activates: it is UNCONFIRMED, the outgoing one is kept as the
previous version, and a new staging copy of the active version is numbered one above the highest. When the confirm deadline comes with no
CONFIRM the previous version activates as a REVERT would: it is CONFIRMED, and the version reverted from is kept as the previous one and
rejected. The model's own readings it rests on: assumptions 17, 113. -/
def Obligations.VersionsActivate : Prop :=
  (∀ (s : State) (tick : Nat), s.start.running = true → s.chr.periodCount ≠ s.periodNow → s.integ.ledgers = [] →
     s.revertDue = false → s.vers.due = some (.commit, tick) → tick ≤ s.time.ticks → s.integ.orderPending = none →
     ∃ t, exec .periodBoundary s = .next t ∧ t.vers.active = s.vers.staging ∧ t.vers.activeNo = s.vers.stagingNo ∧
       t.vers.previous = s.vers.active ∧ t.vers.previousNo = s.vers.activeNo ∧ t.vers.previousValid = true ∧
       t.vers.phase = .unconfirmed ∧ t.vers.due = none ∧ t.vers.staging = s.vers.staging ∧
       t.vers.stagingNo = s.vers.counter + 1 ∧ t.vers.counter = s.vers.counter + 1) ∧
  (∀ s : State, s.start.running = true → s.vers.phase = .unconfirmed → (∃ left, s.deadlineLeft s.periodNow = some left ∧ left ≤ 0) →
     ∃ t, exec .autoRevert s = .next t ∧ t.vers.active = s.vers.previous ∧ t.vers.activeNo = s.vers.previousNo ∧
       t.vers.previous = s.vers.active ∧ t.vers.previousRejected = true ∧ t.vers.phase = .confirmed ∧ t.vers.due = none)

/-- A commit or revert leaves the time base, its increment and its state unchanged, when it is ordered, when its boundary comes and when
the confirm deadline reverts; no object from 0x2000 to 0x2006 belongs to the configuration version, and PhaseStepLimit does (R49). -/
def Obligations.VersionsKeepTime : Prop :=
  (∀ o ∈ catalogue, 0x2000 ≤ o.index → o.index ≤ 0x2006 → o.cls ≠ .stage) ∧
  (∃ o, findObject 0x2007 0 = some o ∧ o.cls = .stage) ∧
  (∀ (s : State) (who : Requester) (n : BitVec 32), ∀ i ∈ [Instr.commit who n, .revert who n, .periodBoundary, .autoRevert],
    ∃ t, exec i s = .next t ∧ t.time = s.time)

/-! ### Submission and completion -/

/-- A poll slot opens at the start edge of a window that the active version makes a poll slot; what an earlier slot left unread is owed no
longer, reads of the host's counters may be issued, and nothing but the slot, the rings' owed reads and the host link changes. With the
link not up nothing is read. A summary line has been read: an instance of the line that is not due keeps its ring; a due one whose counts
are of its generation and in range keeps the counts read; one whose counts are out of range enters RING_ERROR. A failed read leaves every
ring as it was. The model's own readings it rests on: assumptions 27, 28. -/
def Obligations.SubmissionCounters : Prop :=
  (∀ (s : State) (window : BitVec 13), winPoll (windowOf s.vers.active window.toNat) = true →
     winLength (windowOf s.vers.active window.toNat) ≠ 0 → window.toNat < windowCount s.vers.active → s.chr.suspended = false →
     ∃ t, exec (.pollSlotStart window) s = .next t ∧
       t = { s with chr := { s.chr with pollOpen := some window.toNat, pollStart := s.ns }, insts := t.insts, provider := t.provider,
                    host := t.host } ∧
       (∀ n, t.inst n = { s.inst n with ring := { (s.inst n).ring with left := 0 } }) ∧ t.provider = { s.provider with left := 0 } ∧
       (s.host.phase ≠ .up → t.host = s.host)) ∧
  (∀ (s : State) (line : BitVec 7) (tag : Nat) (rd : HostRead) (result : ReadResult) (data : BitVec 512),
     s.findRead (.summary line) = some (tag, rd) →
     ∃ t, exec (.summaryLineRead line result data) s = .next t ∧
       t = { s with insts := t.insts, freeCount := t.freeCount, integ := t.integ, host := t.host } ∧
       (result ≠ .good → t.insts = s.insts) ∧
       (∀ n, s.due n = false ∨ n.toNat / 8 ≠ line.toNat → t.inst n = s.inst n) ∧
       (result = .good → ∀ n word, n.toNat / 8 = line.toNat → s.due n = true →
         word = bits data.toNat (64 * (n.toNat % 8) + 63) (64 * (n.toNat % 8)) →
         bits word 63 48 = (s.inst n).generation.toNat →
         (countBad (wrapDiff 24 (s.inst n).ring.fetched.toNat (bits word 47 24)) (ringSubmitSize (s.obj 0x3021 0 n.toNat)) = true ∨
           countBad (wrapDiff 24 (bits word 23 0) (s.inst n).ring.written.toNat) (ringCompleteSize (s.obj 0x3021 0 n.toNat)) = true →
           t.inst n = { s.inst n with ring := { (s.inst n).ring with state := .ringError } }) ∧
         (countBad (wrapDiff 24 (s.inst n).ring.fetched.toNat (bits word 47 24)) (ringSubmitSize (s.obj 0x3021 0 n.toNat)) = false →
           countBad (wrapDiff 24 (bits word 23 0) (s.inst n).ring.written.toNat) (ringCompleteSize (s.obj 0x3021 0 n.toNat)) = false →
           (t.inst n).ring.submit = BitVec.ofNat 24 (bits word 47 24) ∧ (t.inst n).ring.consumed = BitVec.ofNat 24 (bits word 23 0) ∧
           (t.inst n).ring.written = (s.inst n).ring.written)))

/-- A batch record that has been read makes one batch, behind the earlier ones, with the record's fields and the statuses its validation
gives it; a read that failed makes one that ends with the failure's status. The oldest batch of a context, with nothing of it left on any
engine and room in its completion ring, writes its completion record: the posted write of R92's bytes at the ring's next place; Written
advances, the slot is released, and the batch is gone. A write of a ring record whose fields pass their checks is stored; setting Enable
starts the ring from zeroed counts (an instance becomes ACTIVE), clearing an ACTIVE instance's makes it QUIESCING. A record that fails a
check changes nothing. The model's own readings it rests on: assumptions 26, 27, 29, 31. -/
def Obligations.HostRecords : Prop :=
  (∀ (s : State) (f : Source) (tag : Nat) (rd : HostRead) (result : ReadResult) (data : BitVec 512),
     s.findRead (.batch f) = some (tag, rd) →
     ∃ t b, exec (.batchRecordFetch f result data) s = .next t ∧
       t = { s with batches := s.batches ++ [b], nextBatch := s.nextBatch + 1, insts := t.insts, provider := t.provider,
                    host := t.host } ∧
       b.id = s.nextBatch ∧ b.origin = .ring f ∧ (b.ended = true ↔ b.statuses ≠ []) ∧ b.routed = 0 ∧ b.committed = 0 ∧
       (result = .good → b.context = BitVec.ofNat 10 (bits data.toNat 495 486) ∧ b.generation = BitVec.ofNat 16 (bits data.toNat 511 496) ∧
         b.tag = BitVec.ofNat 32 (bits data.toNat 447 416) ∧ b.listAddress = BitVec.ofNat 64 (bits data.toNat 383 320) ∧
         b.argument = BitVec.ofNat 64 (bits data.toNat 319 256) ∧ b.input = BitVec.ofNat 64 (bits data.toNat 255 192) ∧
         b.output = BitVec.ofNat 64 (bits data.toNat 191 128) ∧
         ((bits data.toNat 485 480 ≠ 0 ∨ bits data.toNat 511 496 ≠ (s.generationOf f).toNat) → stInvalid ∈ b.statuses)) ∧
       (result ≠ .good → b.statuses = [statusOfRead result])) ∧
  (∀ (s : State) (c : ContextId) (b : Batch) (f : Source), s.oldestBatch c = some b → s.batchDone b = true → b.origin = .ring f →
     (s.ring f).state ≠ .ringError →
     ((s.ring f).written - (s.ring f).consumed).toNat < ringCompleteSize (s.ringRec f) → s.host.phase = .up →
     ∃ t rest, exec (.completionRecordWrite c) s = .next t ∧
       t = { s with batches := s.batches.filter (fun x => x.id ≠ b.id), insts := t.insts, provider := t.provider, host := t.host,
                    integ := t.integ, freeCount := t.freeCount } ∧
       t.host.writes = s.host.writes ++
         { source := f, generation := b.issuer, purpose := .completion,
           address := BitVec.ofNat 64 (ringCompleteBase (s.ringRec f) + 32 * ((s.ring f).written.toNat % ringCompleteSize (s.ringRec f))),
           bytes := leBytes 32 (completionRecord b (Source.number f) (phaseAt (s.ring f).written.toNat (ringCompleteSize (s.ringRec f)))
             (if b.committed = 0 ∧ b.ended = false then s.now else b.lastCommit)) } :: rest ∧
       (t.ring f).written = (s.ring f).written + 1 ∧ (t.ring f).slots = (s.ring f).slots - 1) ∧
  ((∀ (s : State) (n : InstanceId) (r : BitVec 192), bits r.toNat 51 0 = 0 → checkRing (s.obj 0x3021 0 n.toNat) r.toNat = rsNone →
     ((bit r.toNat 52 = false ∨ bit (s.obj 0x3021 0 n.toNat) 52 = true) ∨
       (s.integ.expelled = false ∧ (s.inst n).life ≠ .resetting ∧ (s.inst n).life ≠ .resetStalled)) →
     ∃ t, exec (.instanceRingsWrite n r) s = .next t ∧ t = { s with rw := setRec s.rw 0x3021 0 n.toNat r.toNat, insts := t.insts } ∧
       (∀ m, m ≠ n → t.inst m = s.inst m) ∧
       (bit r.toNat 52 = true → bit (s.obj 0x3021 0 n.toNat) 52 = false → (t.inst n).life = .active ∧
         (t.inst n).ring.fetched = 0 ∧ (t.inst n).ring.written = 0 ∧ (t.inst n).ring.submit = 0 ∧ (t.inst n).ring.consumed = 0) ∧
       (bit r.toNat 52 = false → bit (s.obj 0x3021 0 n.toNat) 52 = true → (s.inst n).life = .active →
         t.inst n = { s.inst n with life := .quiescing, disabling := true, flushDone := false })) ∧
   (∀ (s : State) (n : InstanceId) (r : BitVec 192), bits r.toNat 51 0 ≠ 0 ∨ checkRing (s.obj 0x3021 0 n.toNat) r.toNat ≠ rsNone →
     exec (.instanceRingsWrite n r) s = .next s) ∧
   (∀ (s : State) (r : BitVec 256), bit (s.obj 0x3024 0 0) 52 = false → bit r.toNat 52 = true → bits r.toNat 35 0 = 0 →
     bits r.toNat 66 64 = 0 → bits r.toNat 51 36 = 0xFFFF ∨ bits r.toNat 51 36 < 64 → bits r.toNat 203 192 = 0 →
     bits r.toNat 139 128 = 0 → (6 ≤ bits r.toNat 63 59 ∧ bits r.toNat 63 59 ≤ 16) → (6 ≤ bits r.toNat 58 54 ∧ bits r.toNat 58 54 ≤ 16) →
     ∃ t, exec (.providerRingWrite r) s = .next t ∧ t = { s with rw := setRec s.rw 0x3024 0 0 r.toNat, provider := t.provider } ∧
       t.provider.fetched = 0 ∧ t.provider.written = 0 ∧ t.provider.state = .idle))

/-! ### Steps: routing, issue, commit -/

/-- A step that passes the Gallery's checks joins its context's queue on its engine, with its address resolved, when the queue has room;
one that fails them ends its batch with every status that applies; a full queue keeps it waiting. The descriptor and argument of a ring's
batch are those that the command brings; a receiver chart's come from module memory, and what reading them finds counts as a check. The
model's own readings it rests on: assumptions 29, 35. -/
def Obligations.StepRoute : Prop :=
  ∀ (s s1 : State) (c : ContextId) (word word' : BitVec 512) (argument argument' : BitVec 64) (b : Batch) (sts : List (BitVec 8)),
    s.routing c = some b → s.noWork = false → s.routeInputs b word argument = (s1, word', argument', sts) →
    ((∃ f, b.origin = .ring f) → s1 = s ∧ word' = word ∧ argument' = argument ∧ sts = []) ∧
    (sts = [] → s1.galleryCheck c word'.toNat (resolveAddress word'.toNat argument' b).toNat = [] →
      ((s1.ectx (dEngine word'.toNat) c).held < 64 →
        ∃ t, exec (.stepRoute c word argument) s = .next t ∧ t = { s1 with engines := t.engines, batches := t.batches } ∧
          t.ectx (dEngine word'.toNat) c = { s1.ectx (dEngine word'.toNat) c with
            queue := (s1.ectx (dEngine word'.toNat) c).queue ++ [{ descriptor := word', address := resolveAddress word'.toNat argument' b,
                                                                   batch := b.id, generation := b.generation }] } ∧
          (∀ e', e' ≠ dEngine word'.toNat → t.engine e' = s1.engine e') ∧
          t.batches = s1.batches.map (fun x => if x.id = b.id then { x with routed := x.routed + 1 } else x)) ∧
      (64 ≤ (s1.ectx (dEngine word'.toNat) c).held → exec (.stepRoute c word argument) s = .next s)) ∧
    (sts ++ s1.galleryCheck c word'.toNat (resolveAddress word'.toNat argument' b).toNat ≠ [] →
      ∃ t, exec (.stepRoute c word argument) s = .next t ∧ t = { s1 with engines := t.engines, batches := t.batches } ∧
        ∀ x ∈ t.batches, x.id = b.id → x.ended = true ∧
          ∀ st ∈ sts ++ s1.galleryCheck c word'.toNat (resolveAddress word'.toNat argument' b).toNat, st ∈ x.statuses)

/-- A NOP, LOAD, PRODUCT, VECTOR or RELEASE step at the head of its queue that may issue leaves it and becomes the context's last issued
step, with the next serial and the work its operation gives it; a RELEASE's entry is FREE. Other contexts, other engines and everything
outside the engine and the batch stay as they were (a Paired step that cannot run paired also raises its event). A MOOR, STORE or GATHER
step that may issue and passes its checks: MOOR writes the image that was read into HandleOut's entry, EMPTY and owned by its context;
STORE owes its writes row by row, or, to the operation port, the records of its lines; GATHER owes its fetches. A MOOR whose image could
not be read ends its batch with the read's status; one that host encryption withholds waits. The model's own readings it rests on:
assumptions 20, 21, 32, 33, 39, 40, 42. -/
def Obligations.StepsIssue : Prop :=
  (∀ (s : State) (e : EngineId) (c : ContextId) (st : Step),
     (s.issueOf e c opNop = .issues st → ∃ t r, exec (.nop e c) s = .next t ∧ t = { s with engines := t.engines, batches := t.batches } ∧
       t.ectx e c = { s.ectx e c with queue := (s.ectx e c).queue.drop 1, serial := (s.ectx e c).serial + 1,
                                      runs := (s.ectx e c).runs ++ [r] } ∧
       r.step = st ∧ r.serial = (s.ectx e c).serial + 1 ∧ r.complete = true ∧
       (∀ c', c' ≠ c → t.ectx e c' = s.ectx e c') ∧ (∀ e', e' ≠ e → t.engine e' = s.engine e')) ∧
     (s.issueOf e c opLoad = .issues st → ∃ t r, exec (.load e c) s = .next t ∧ t = { s with engines := t.engines, batches := t.batches } ∧
       t.ectx e c = { s.ectx e c with queue := (s.ectx e c).queue.drop 1, serial := (s.ectx e c).serial + 1,
                                      runs := (s.ectx e c).runs ++ [r] } ∧
       r.step = st ∧ r.waiting = [] ∧ r.writes = [] ∧
       (stepEmpty st.descriptor.toNat = true → r.fetches = []) ∧
       (stepEmpty st.descriptor.toNat = false → mRetain ((s.engine e).entry ((s.engine e).part c) (dOut st.descriptor.toNat)) = false →
         r.fetches = loadFetches ((s.engine e).part c) ((s.engine e).entry ((s.engine e).part c) (dOut st.descriptor.toNat))
           st.descriptor.toNat st.address.toNat) ∧
       (∀ c', c' ≠ c → t.ectx e c' = s.ectx e c') ∧ (∀ e', e' ≠ e → t.engine e' = s.engine e')) ∧
     (s.issueOf e c opRelease = .issues st → ∃ t r, exec (.release e c) s = .next t ∧
       t = { s with engines := t.engines, batches := t.batches } ∧
       t.ectx e c = { s.ectx e c with queue := (s.ectx e c).queue.drop 1, serial := (s.ectx e c).serial + 1,
                                      runs := (s.ectx e c).runs ++ [r] } ∧
       r.step = st ∧ r.complete = true ∧
       (t.engine e).entry ((s.engine e).part c) (dA st.descriptor.toNat) = 0xFF <<< 168 ∧
       (∀ h, h ≠ dA st.descriptor.toNat → (t.engine e).entry ((s.engine e).part c) h = (s.engine e).entry ((s.engine e).part c) h) ∧
       (∀ c', c' ≠ c → t.ectx e c' = s.ectx e c') ∧ (∀ e', e' ≠ e → t.engine e' = s.engine e')) ∧
     (s.issueOf e c opProduct = .issues st → ∃ t r, exec (.product e c) s = .next t ∧
       t = { s with engines := t.engines, batches := t.batches, integ := t.integ, host := t.host, freeCount := t.freeCount } ∧
       (t.ectx e c).queue = (s.ectx e c).queue.drop 1 ∧ (t.ectx e c).serial = (s.ectx e c).serial + 1 ∧
       (t.ectx e c).runs = (s.ectx e c).runs ++ [r] ∧ r.step = st ∧
       r.waiting = (s.engine e).stepPasses ((s.engine e).part c) st.descriptor.toNat c ((s.ectx e c).serial + 1) ∧
       r.chainLeft = r.waiting.length ∧ r.fetches = (s.engine e).tileFetches ((s.engine e).part c) st.descriptor.toNat r.waiting) ∧
     (s.issueOf e c opVector = .issues st → ∃ t r, exec (.vector e c) s = .next t ∧
       t = { s with engines := t.engines, batches := t.batches, integ := t.integ, host := t.host, freeCount := t.freeCount } ∧
       (t.ectx e c).queue = (s.ectx e c).queue.drop 1 ∧ (t.ectx e c).serial = (s.ectx e c).serial + 1 ∧
       (t.ectx e c).runs = (s.ectx e c).runs ++ [r] ∧ r.step = st ∧
       r.waiting = (s.engine e).stepPasses ((s.engine e).part c) st.descriptor.toNat c ((s.ectx e c).serial + 1) ∧
       r.chainLeft = r.waiting.length ∧ r.fetches = (s.engine e).tileFetches ((s.engine e).part c) st.descriptor.toNat r.waiting)) ∧
  (∀ (s : State) (e : EngineId) (c : ContextId) (st : Step),
     (∀ image : BitVec 256, s.issueOf e c opMoor = .issues st →
       (∀ b ∈ s.batches, b.id = st.batch → ∃ f, b.origin = .ring f) → s.linkUp = true → s.ideBlocked = false →
       s.moorCheck e c (dOut st.descriptor.toNat) st.address.toNat image.toNat = [] →
       ∃ t r, exec (.moor e c ⟨.good, image⟩) s = .next t ∧ t = { s with engines := t.engines, batches := t.batches, host := t.host } ∧
         t.ectx e c = { s.ectx e c with queue := (s.ectx e c).queue.drop 1, serial := (s.ectx e c).serial + 1,
                                        runs := (s.ectx e c).runs ++ [r] } ∧ r.step = st ∧ r.complete = true ∧
         (t.engine e).entry ((s.engine e).part c) (dOut st.descriptor.toNat) =
           setBits (setBits image.toNat 255 246 c.toNat) 245 243 mEmpty ∧
         (∀ h, h ≠ dOut st.descriptor.toNat → (t.engine e).entry ((s.engine e).part c) h = (s.engine e).entry ((s.engine e).part c) h)) ∧
     (∀ (image : BitVec 256) (result : ReadResult), s.issueOf e c opMoor = .issues st →
       (∀ b ∈ s.batches, b.id = st.batch → ∃ f, b.origin = .ring f) → s.linkUp = true → s.ideBlocked = false → result ≠ .good →
       ∃ t, exec (.moor e c ⟨result, image⟩) s = .next t ∧
         ∀ b ∈ t.batches, b.id = st.batch → b.ended = true ∧ statusOfRead result ∈ b.statuses) ∧
     (∀ (image : BitVec 256) (result : ReadResult), s.issueOf e c opMoor = .issues st →
       (∀ b ∈ s.batches, b.id = st.batch → ∃ f, b.origin = .ring f) → s.ideBlocked = true → exec (.moor e c ⟨result, image⟩) s = .next s) ∧
     (s.issueOf e c opStore = .issues st → stepEmpty st.descriptor.toNat = false →
       s.isPort ((s.engine e).entry ((s.engine e).part c) (dA st.descriptor.toNat)) = false →
       ∃ t r, exec (.store e c) s = .next t ∧ t = { s with engines := t.engines, batches := t.batches } ∧
         t.ectx e c = { s.ectx e c with queue := (s.ectx e c).queue.drop 1, serial := (s.ectx e c).serial + 1,
                                        runs := (s.ectx e c).runs ++ [r] } ∧ r.step = st ∧ r.fetches = [] ∧
         r.writes = storeWrites ((s.engine e).part c) ((s.engine e).entry ((s.engine e).part c) (dA st.descriptor.toNat))
           st.descriptor.toNat st.address.toNat st.generation) ∧
     (s.issueOf e c opStore = .issues st → stepEmpty st.descriptor.toNat = true →
       ∃ t r, exec (.store e c) s = .next t ∧ t = { s with engines := t.engines, batches := t.batches } ∧
         t.ectx e c = { s.ectx e c with queue := (s.ectx e c).queue.drop 1, serial := (s.ectx e c).serial + 1,
                                        runs := (s.ectx e c).runs ++ [r] } ∧ r.step = st ∧ r.complete = true) ∧
     (s.issueOf e c opStore = .issues st → stepEmpty st.descriptor.toNat = false →
       s.isPort ((s.engine e).entry ((s.engine e).part c) (dA st.descriptor.toNat)) = true → s.lineRoom e c = 0 →
       (∀ w ∈ (s.engine e).portRecords ((s.engine e).part c) ((s.engine e).entry ((s.engine e).part c) (dA st.descriptor.toNat))
         st.descriptor.toNat, s.recordCheck c w = []) →
       ∃ t r, exec (.store e c) s = .next t ∧ t = { s with engines := t.engines, batches := t.batches } ∧
         (t.ectx e c).runs = (s.ectx e c).runs ++ [r] ∧ r.step = st ∧
         r.records = (s.engine e).portRecords ((s.engine e).part c) ((s.engine e).entry ((s.engine e).part c) (dA st.descriptor.toNat))
           st.descriptor.toNat) ∧
     (s.issueOf e c opGather = .issues st → stepEmpty st.descriptor.toNat = false →
       (s.engine e).firstBad ([dA st.descriptor.toNat, dIndex st.descriptor.toNat].map (fun h =>
         (rowAddr ((s.engine e).part c) ((s.engine e).entry ((s.engine e).part c) h) 0 0 0,
          64 * mSize ((s.engine e).entry ((s.engine e).part c) h)))) = none →
       (s.engine e).gatherGood ((s.engine e).part c) st.descriptor.toNat st.address.toNat = true →
       ∃ t r, exec (.gather e c) s = .next t ∧
         t = { s with engines := t.engines, batches := t.batches, ctrs := t.ctrs, freeCount := s.freeCount + 1 } ∧
         (t.ectx e c).runs = (s.ectx e c).runs ++ [r] ∧ (t.ectx e c).serial = (s.ectx e c).serial + 1 ∧ r.step = st ∧
         r.fetches = (s.engine e).gatherFetches ((s.engine e).part c) st.descriptor.toNat st.address.toNat ∧
         (∀ e', e' ≠ e → t.engine e' = s.engine e')))

/-- The first issued step of a context with nothing left to do commits: it leaves the issued steps, enters the re-run log of the last 32,
owes the signal its descriptor names, notes when what it wrote may be read, and counts in its batch unless it carries INVALID or SECURITY.
The oldest signal owed then advances the named semaphore of the same context on its engine by one. The model's own readings it rests on:
assumptions 29, 32. -/
def Obligations.StepCommit : Prop :=
  (∀ (s : State) (e : EngineId) (c : ContextId) (r : Run),
    (s.ectx e c).runs.find? (fun r => r.complete && !(s.engine e).stepBusy c r.serial && !s.portBusy e c r.serial) = some r →
    r.again = false →
    ∃ t, exec (.stepCommit e c) s = .next t ∧ t = { s with engines := t.engines, batches := t.batches, ctrs := t.ctrs } ∧
      t.ectx e c = { s.ectx e c with
        runs := (s.ectx e c).runs.filter (fun q => q.serial ≠ r.serial),
        log := lastN 32 ((s.ectx e c).log ++ [{ step := r.step, serial := r.serial, reads := r.reads }]),
        signals := if dSignal r.step.descriptor.toNat = true then (s.ectx e c).signals ++
            [{ engine := dSignalEngine r.step.descriptor.toNat, sem := dSignalSem r.step.descriptor.toNat }] else (s.ectx e c).signals,
        outReady := (t.ectx e c).outReady } ∧
      (∀ h ∈ (s.engine e).writtenHandles ((s.engine e).part c) r.step.descriptor.toNat, handleOk ((s.engine e).part c) h = true →
        Tab.get 0 (t.ectx e c).outReady h = r.written) ∧
      (stInvalid ∉ r.statuses → stSecurity ∉ r.statuses →
        t.batches.map (·.committed) = s.batches.map (fun b => if b.id = r.step.batch then b.committed + 1 else b.committed)) ∧
      (stInvalid ∈ r.statuses ∨ stSecurity ∈ r.statuses → t.batches.map (·.committed) = s.batches.map (·.committed))) ∧
  (∀ (s : State) (e : EngineId) (c : ContextId) (g : Signal) (gs : List Signal), (s.ectx e c).signals = g :: gs → g.engine ≠ e →
    s.resident g.engine c = true →
    ∃ t, exec (.semaphoreSignal e c) s = .next t ∧ t = { s with engines := t.engines } ∧ t.ectx e c = { s.ectx e c with signals := gs } ∧
      t.ectx g.engine c = { s.ectx g.engine c with semaphores := (t.ectx g.engine c).semaphores } ∧
      Tab.get 0 (t.ectx g.engine c).semaphores g.sem.toNat = Tab.get 0 (s.ectx g.engine c).semaphores g.sem.toNat + 1 ∧
      (∀ m, m ≠ g.sem.toNat → Tab.get 0 (t.ectx g.engine c).semaphores m = Tab.get 0 (s.ectx g.engine c).semaphores m))

/-! ### Passes -/

/-- In a window that a context owns, the passes at the head of its first issued step with passes waiting start on a cycle at which every
start condition holds; one pass that is not a VECTOR tile is then in flight on its array, last, with that cycle, and the array is free an
issue interval later; the two passes of a pair are in flight on both arrays, and a VECTOR tile is in the vector unit. The oldest pass in
flight on an array commits: one that is discarded, or whose step has gone, leaves nothing; one that is neither a shadow, paired nor
sampled leaves its accumulators, as the pass computes them from scratchpad, last in the array's drain bank; a late one carries
WINDOW_OVERRUN to its step as well. An abandonment moves the passes it takes, in the order in which they first started, to those that wait
to re-run: every pass in flight, or, when a feeder's parity failed, the last started. The oldest that waits starts again no sooner than C
cycles after its start, on its array, or on the other one where its own is out of service. The model's own readings it rests on:
assumptions 22, 41, 43, 44. -/
def Obligations.ArrayPasses : Prop :=
  (∀ (s : State) (e : EngineId) (a : ArrayId) (cycle : BitVec 40) (l : ListEntry) (c : ContextId) (r : Run) (set : List (ArrayId × Pass)),
     s.openWindow (engineUnit e) = some l → s.mayStart = true → s.engineStopped e = false → s.chr.gated.getLsbD (groupOf e) = false →
     s.lateWaits e = false → winOwner l.win ≠ ownerOpen → winOwner l.win ≠ ownerService →
     c = BitVec.ofNat 10 (winOwner l.win) → (s.ectx e c).ready = some r → set = s.startSet e c r a →
     s.startIndexGood e c r set = true → s.mayStartSet e c r l cycle.toNat a set = true →
     (s.engine e).pairsGood ((s.engine e).part c) r.step.descriptor.toNat = true →
     ∃ t, exec (.passStart e a cycle) s = .next t ∧
       t = { s with engines := t.engines, ctrs := t.ctrs, integ := { s.integ with soundingStats := t.integ.soundingStats } } ∧
       (∀ e', e' ≠ e → t.engine e' = s.engine e') ∧
       (∀ (b : ArrayId) (q : Pass), set = [(b, q)] → q.kind ≠ .vectorTile →
         ∃ sampled, ((t.engine e).array q.array).flight = ((s.engine e).array q.array).flight ++
             [{ q with started := cycle.toNat, origin := cycle.toNat, window := l.window, sampled }] ∧
           ((t.engine e).array q.array).freeAt = cycle.toNat + q.interval ∧ ((t.engine e).array q.array).lastMode = q.mode) ∧
       (∀ q q' : Pass, set = [(false, q), (true, q')] →
         (∃ sampled, ((t.engine e).array false).flight = ((s.engine e).array false).flight ++
           [{ q with started := cycle.toNat, origin := cycle.toNat, window := l.window, sampled }]) ∧
         (∃ sampled, ((t.engine e).array true).flight = ((s.engine e).array true).flight ++
           [{ q' with started := cycle.toNat, origin := cycle.toNat, window := l.window, sampled }])) ∧
       (∀ (b : ArrayId) (q : Pass), set = [(b, q)] → q.kind = .vectorTile →
         (t.engine e).vuPass = some { q with started := cycle.toNat, origin := cycle.toNat, window := l.window })) ∧
  ((∀ (s : State) (e : EngineId) (a : ArrayId) (error : Option (BitVec 12 × BitVec 9 × BitVec 32)) (q : Pass) (rest : List Pass),
     ((s.engine e).array a).flight = q :: rest → q.late = false →
     (q.discard = true ∨ (s.ectx e q.context).runs.find? (fun r => r.serial == q.serial) = none) →
     ∃ t, exec (.passCommit e a error) s = .next t ∧ t = { s with engines := t.engines, ctrs := t.ctrs } ∧
       (t.engine e).array a = { (s.engine e).array a with flight := rest } ∧ (t.engine e).array (!a) = (s.engine e).array (!a)) ∧
   (∀ (s : State) (e : EngineId) (a : ArrayId) (error : Option (BitVec 12 × BitVec 9 × BitVec 32)) (q : Pass) (rest : List Pass) (r : Run),
     ((s.engine e).array a).flight = q :: rest → (s.ectx e q.context).runs.find? (fun r => r.serial == q.serial) = some r →
     q.discard = false → q.shadow = false → q.paired = false → q.sampled = false →
     ∃ t, exec (.passCommit e a error) s = .next t ∧ t = { s with engines := t.engines, ctrs := t.ctrs, chr := t.chr } ∧
       (q.late = false → t.chr = s.chr) ∧
       (q.late = true → ∀ x ∈ (t.ectx e q.context).runs, x.serial = q.serial → stOverrun ∈ x.statuses) ∧
       (t.engine e).array a = { (s.engine e).array a with flight := rest, drains := ((s.engine e).array a).drains ++
         [{ pass := q, integer := ((s.engine e).shape ((s.engine e).part q.context) r.step.descriptor.toNat q).integer,
            rows := alter ((s.engine e).accumulate ((s.engine e).part q.context) r.step.descriptor.toNat q).1 error }] } ∧
       (t.engine e).array (!a) = (s.engine e).array (!a))) ∧
  ((∀ (s : State) (e : EngineId) (a : ArrayId) (cause : AbandonCause), cause ≠ .feederParity →
     (((s.engine e).array a).reruns ++ ((s.engine e).array a).flight).Pairwise (fun p q => p.origin ≤ q.origin) →
     ∃ t, exec (.passAbandon e a cause) s = .next t ∧ t = { s with engines := t.engines, ctrs := t.ctrs } ∧
       ((t.engine e).array a).flight = [] ∧
       ((t.engine e).array a).reruns = ((s.engine e).array a).reruns ++ ((s.engine e).array a).flight.filter (fun q => !q.discard)) ∧
   (∀ (s : State) (e : EngineId) (a : ArrayId) (cause : AbandonCause), cause ≠ .feederParity →
     ∃ t, exec (.passAbandon e a cause) s = .next t ∧ ((t.engine e).array a).flight = [] ∧
       ∀ q, q ∈ ((t.engine e).array a).reruns ↔
         q ∈ ((s.engine e).array a).reruns ∨ (q ∈ ((s.engine e).array a).flight ∧ q.discard = false)) ∧
   (∀ (s : State) (e : EngineId) (a : ArrayId) (q : Pass) (before : List Pass), ((s.engine e).array a).flight = before ++ [q] →
     q.discard = false → q ∉ before → (∀ p ∈ ((s.engine e).array a).reruns, p.origin ≤ q.origin) →
     (∀ p ∈ ((s.engine e).array a).reruns, ∀ r, (s.ectx e p.context).runs.find? (fun r => r.serial == p.serial) = some r →
       (s.engine e).passBad ((s.engine e).part p.context) r.step.descriptor.toNat p = false) →
     ∃ t, exec (.passAbandon e a .feederParity) s = .next t ∧ t = { s with engines := t.engines, ctrs := t.ctrs } ∧
       ((t.engine e).array a).flight = before ∧ ((t.engine e).array a).reruns = ((s.engine e).array a).reruns ++ [q]) ∧
   (∀ (s : State) (e : EngineId) (a b : ArrayId) (cycle : BitVec 40) (q : Pass) (rest : List Pass),
     ((s.engine e).array b).reruns = q :: rest → ((s.engine e).array a).health = .inService →
     (b = a ∨ (b ≠ a ∧ ((s.engine e).array b).health ≠ .inService ∧ ((s.engine e).array a).reruns = [])) →
     s.noWork = false → s.engineStopped e = false →
     q.origin + (q.cycles : Int) ≤ (cycle.toNat : Int) → ((s.engine e).array a).freeAt ≤ cycle.toNat →
     (((s.engine e).array a).flight = [] ∨ ((s.engine e).array a).lastMode = q.mode) →
     s.demandAt e cycle.toNat + ((s.engine e).rerunDemand q).1 ≤ demandLimit96 →
     (∀ r, (s.ectx e q.context).runs.find? (fun r => r.serial == q.serial) = some r →
       (s.engine e).firstBad ((s.engine e).passReads ((s.engine e).part q.context) r.step.descriptor.toNat q) = none) →
     ∃ t, exec (.passRerun e a cycle) s = .next t ∧
       t = { s with engines := t.engines, ctrs := t.ctrs, integ := t.integ, host := t.host, freeCount := t.freeCount } ∧
       ((t.engine e).array b).reruns = rest ∧
       ((t.engine e).array a).flight = ((s.engine e).array a).flight ++ [{ q with started := cycle.toNat, select := 1 + b2n a }] ∧
       ((t.engine e).array a).freeAt = cycle.toNat + q.interval))

/-! ### Soundings -/

/-- A shadow that waits on an array starts when a window admits its context and every condition holds; an arbiter's result that agrees
with one of the two results counts the array of the other result and frees the slot; a slot whose time has passed counts both. The model's
own readings it rests on: assumptions 3, 55. -/
def Obligations.Soundings : Prop :=
  (∀ (s : State) (e : EngineId) (a : ArrayId) (cycle : BitVec 40) (q : Pass) (rest : List Pass) (l : ListEntry) (r : Run),
    ((s.engine e).array a).shadows = q :: rest → s.openWindow (engineUnit e) = some l → ((s.engine e).array a).health = .inService →
    (s.ectx e q.context).runs.find? (fun r => r.serial == q.serial) = some r → s.mayStart = true → s.engineStopped e = false →
    s.dutyOf (groupOf e) = 64 → (s.admitted e l.win).contains q.context = true → l.fits q.cycles cycle.toNat = true →
    ((s.engine e).array a).freeAt ≤ cycle.toNat → ((s.engine e).array a).reruns = [] → ((s.engine e).array a).drains = [] →
    (((s.engine e).array a).flight = [] ∨ ((s.engine e).array a).lastMode = q.mode) →
    s.demandAt e cycle.toNat + ((s.engine e).startDemand ((s.engine e).part q.context) r.step.descriptor.toNat q false).1 ≤ demandLimit96 →
    (s.engine e).passBad ((s.engine e).part q.context) r.step.descriptor.toNat q = false → s.lateWaits e = false →
    ∃ t, exec (.soundingShadow e a cycle) s = .next t ∧ t = { s with engines := t.engines, ctrs := t.ctrs } ∧
      ((t.engine e).array a).shadows = rest ∧
      ((t.engine e).array a).flight = ((s.engine e).array a).flight ++ [{ q with started := cycle.toNat, origin := cycle.toNat, window := l.window }] ∧
      (t.engine e).array (!a) = (s.engine e).array (!a)) ∧
  (∀ (s : State) (e : EngineId) (slot : BitVec 10) (error : Option (BitVec 12 × BitVec 9 × BitVec 32)) (k : SoundingSlot),
    Tab.get none s.integ.soundingSlots slot.toNat = some k → groupOf e = groupOf k.engine → e ≠ k.engine → s.serviceOpen e = true →
    ((s.engine e).array false).health = .inService → s.engineStopped e = false → s.mayStart = true →
    ∃ t, exec (.arbiterPass e slot error) s = .next t ∧ Tab.get none t.integ.soundingSlots slot.toNat = none ∧
      t = { s with engines := t.engines, ctrs := t.ctrs, integ := t.integ, host := t.host, freeCount := t.freeCount } ∧
      (k.here = alter k.truth error → k.other ≠ alter k.truth error →
        ((t.engine k.engine).array k.array).counts = ((s.engine k.engine).array k.array).counts ∧
        ((t.engine k.engine).array (!k.array)).counts =
          lastN 3 (((s.engine k.engine).array (!k.array)).counts ++ [s.time.seconds.toNat]))) ∧
  (∀ (s : State) (slot : BitVec 10) (k : SoundingSlot), Tab.get none s.integ.soundingSlots slot.toNat = some k →
    k.since + s.act 0xA031 0 0 ≤ s.time.seconds.toNat →
    ∃ t, exec (.arbitrationTimeout slot) s = .next t ∧ Tab.get none t.integ.soundingSlots slot.toNat = none ∧
      t = { s with engines := t.engines, integ := t.integ, host := t.host, freeCount := t.freeCount } ∧
      ∀ a, ((t.engine k.engine).array a).counts = lastN 3 (((s.engine k.engine).array a).counts ++ [s.time.seconds.toNat]))

/-! ### The tender -/

/-- The tender issues its next request, of one line or of the lines of one fabric READ, when the context is admitted and has lines left,
its tile may be filled, no write of the context touches the lines, the dies between are joined and the checks allow it: the lines are
outstanding, counted, and no longer owed. Lines that the checks refuse end their batch with SECURITY_REFUSED. It issues nothing for a
context that no window admits. A good line lands in the engine line it was fetched for, in whatever order lines come back: its 64 bytes
are there, its credit is back, and no other byte of the scratchpad and no other engine changes. A line from another module or from the
host brings its bytes; one of the module's own memory has the bytes that are read there. The tender issues its next write for a context
its window admits, once no earlier step owes writes of its output: toward the host the bytes at the write's place in scratchpad are handed
to the host port as one posted write of the generation it carries; every other write goes to its memory or peer. An acknowledgement ends
the oldest write outstanding; a status of none of the table's values is carried as the table's own. The model's own readings it rests on:
assumptions 21, 34, 36, 37. -/
def Obligations.TenderLines : Prop :=
  (∀ (s : State) (e : EngineId) (c : ContextId) (r : Run) (f : Fetch) (fs : List Fetch) (n : Nat),
     (s.ectx e c).fetchRun = some r → r.fetches = f :: fs → n = min (requestLength r.fetches) (s.lineRoom e c) →
     (s.noWork = false → s.engineStopped e = false → s.fetchAdmitted e c = true → n ≠ 0 →
       s.tileMayFill e c r f = true →
       (s.ectx e c).runs.any (fun q => (q.writes ++ q.writing).any (fun w => (r.fetches.take n).any (fun g => writeOverlaps g w))) = false →
       s.pathOpen e f.kind f.source.toNat = true →
       (∀ s1, s.fetchAllowed c f = true → s.requestLines e c f n = (s1, true) →
         (s.isRemote f.kind f.source.toNat = true → s.livePeer (gaModule f.source.toNat) ≠ none) → (f.kind = 3 → s.linkUp = true) →
         (∀ q ∈ (s.ectx e c).runs, q.serial = r.serial → q = r) →
         ∃ t, exec (.tenderFetchIssue e c) s = .next t ∧ t = { s1 with engines := t.engines, ctrs := t.ctrs } ∧
           (f.kind = 1 → s1 = s) ∧ (t.ectx e c).readLines = (s.ectx e c).readLines + n ∧
           (t.ectx e c).runs = (s.ectx e c).runs.map (fun q => if q.serial = r.serial then
             { q with fetches := r.fetches.drop n, fetching := q.fetching ++ (r.fetches.take n).map (Fetch.issued s.time.ticks),
                      filling := if f.tile ≠ 0 ∧ r.filling.contains f.tile = false ∧ f.refetch = false then r.filling ++ [f.tile] else q.filling }
             else q)) ∧
       (s.fetchAllowed c f = false →
         ∃ t, exec (.tenderFetchIssue e c) s = .next t ∧ t = { s with engines := t.engines, ctrs := t.ctrs, batches := t.batches } ∧
           ∀ b ∈ t.batches, b.id = r.step.batch → b.ended = true ∧ stSecurity ∈ b.statuses)) ∧
     (s.fetchAdmitted e c = false → exec (.tenderFetchIssue e c) s = .next s)) ∧
  ((∀ (s : State) (e : EngineId) (c : ContextId) (entry : BitVec 11) (data : BitVec 512) (r : Run) (f : Fetch),
     (s.ectx e c).landingRun entry = some (r, f) → r.gather = none → f.dropped = false → s.pathOpen e f.kind f.source.toNat = true →
     (f.kind = 3 ∨ (f.kind = 2 ∧ gaModule f.source.toNat ≠ s.moduleId)) → f.bytes = 64 →
     ∃ t, exec (.lineArrive e c ⟨entry, .good⟩ data) s = .next t ∧
       t = { s with engines := t.engines, ctrs := t.ctrs, host := { s.host with reads := t.host.reads } } ∧
       (∀ k, k < 64 → Tab.get 0 (t.engine e).scratch (64 * f.line + k) = BitVec.ofNat 8 (data.toNat / 256 ^ k)) ∧
       (∀ a, (a < 64 * f.line ∨ 64 * f.line + 64 ≤ a) → Tab.get 0 (t.engine e).scratch a = Tab.get 0 (s.engine e).scratch a) ∧
       (t.ectx e c).readLines = (s.ectx e c).readLines - 1 ∧ (∀ e', e' ≠ e → t.engine e' = s.engine e')) ∧
   (∀ (s s1 : State) (e : EngineId) (c : ContextId) (entry : BitVec 11) (data : BitVec 512) (r : Run) (f : Fetch) (bytes : List Byte),
     (s.ectx e c).landingRun entry = some (r, f) → r.gather = none → f.dropped = false → s.pathOpen e f.kind f.source.toNat = true →
     (f.kind = 1 ∨ (f.kind = 2 ∧ gaModule f.source.toNat = s.moduleId)) → f.bytes = 64 → s.memoryLine e c f = (s1, [], bytes) →
     s1.engines = s.engines → bytes.length = 64 →
     ∃ t, exec (.lineArrive e c ⟨entry, .good⟩ data) s = .next t ∧ t = { s1 with engines := t.engines, ctrs := t.ctrs } ∧
       (∀ k, k < 64 → Tab.get 0 (t.engine e).scratch (64 * f.line + k) = bytes.getD k 0) ∧
       (∀ a, (a < 64 * f.line ∨ 64 * f.line + 64 ≤ a) → Tab.get 0 (t.engine e).scratch a = Tab.get 0 (s.engine e).scratch a) ∧
       (t.ectx e c).readLines = (s.ectx e c).readLines - 1)) ∧
  ((∀ (s : State) (e : EngineId) (c : ContextId) (r : Run) (w : TenderWrite) (ws : List TenderWrite),
     (s.ectx e c).runs.find? (fun r => !r.writes.isEmpty) = some r → r.writes = w :: ws → w.kind = 3 → w.poison = false →
     (s.engine e).writeNow ((s.engine e).part c) w = w →
     s.noWork = false → s.engineStopped e = false → s.writeAdmitted e c = true → (s.engine e).earlierOwes c r = false →
     s.lineRoom e c ≠ 0 → s.pathOpen e 3 w.target.toNat = true → (s.engine e).firstBad [(w.start, w.bytes)] = none → s.host.phase = .up →
     ∃ t, exec (.writeIssue e c) s = .next t ∧
       t = { s with engines := t.engines, ctrs := t.ctrs, host := { s.host with writes := s.host.writes ++
         [{ source := s.ctxSource c, address := w.target, bytes := Tab.readBytes (s.engine e).scratch w.start w.bytes,
            generation := w.generation, purpose := .store e c }] } } ∧
       (t.ectx e c).writeLines = (s.ectx e c).writeLines + 1) ∧
   (∀ (s s1 : State) (e : EngineId) (c : ContextId) (r : Run) (w : TenderWrite) (ws : List TenderWrite) (n : Nat),
     (s.ectx e c).runs.find? (fun r => !r.writes.isEmpty) = some r → n = min (writeLength r.writes) (s.lineRoom e c) → n ≠ 0 →
     s.noWork = false → s.engineStopped e = false → s.writeAdmitted e c = true → (s.engine e).earlierOwes c r = false →
     (∀ v ∈ r.writes.take n, s.pathOpen e v.kind v.target.toNat = true) →
     (s.engine e).firstBad ((r.writes.take n).map (fun v => (v.start, v.bytes))) = none →
     (r.writes.take n).map ((s.engine e).writeNow ((s.engine e).part c)) = w :: ws →
     (∀ v ∈ w :: ws, (v.kind = 1 → s.regionAllows c v.target.toNat v.bytes true = true) ∧
       (v.kind = 2 → s.granted (s.ctxSource c) v.target.toNat false = true)) →
     s.sendWrites e c (w :: ws) = (s1, true) →
     (s.isRemote w.kind w.target.toNat = true → s.livePeer (gaModule w.target.toNat) ≠ none) → (w.kind = 3 → s.linkUp = true) →
     (w.kind = 2 → s.isRemote w.kind w.target.toNat = false → s.ownAddress w.target.toNat (64 * (w :: ws).length) ≠ none) →
     ∃ t, exec (.writeIssue e c) s = .next t ∧ t = { s1 with engines := t.engines, ctrs := t.ctrs } ∧
       (t.ectx e c).writeLines = (s1.ectx e c).writeLines + n) ∧
   (∀ (s : State) (e : EngineId) (c : ContextId) (status : BitVec 8) (r : Run),
     (s.ectx e c).runs.find? (fun r => !r.writing.isEmpty) = some r →
     ∃ t, exec (.writeAcknowledge e c status) s = .next t ∧ t = { s with engines := t.engines } ∧
       (t.ectx e c).writeLines = (s.ectx e c).writeLines - 1 ∧
       (t.ectx e c).runs = (s.ectx e c).runs.map (fun q => if q.serial = r.serial then
         { q with writing := q.writing.drop 1,
                  statuses := if status = stDone then q.statuses else q.statuses ++ [listedStatus status] } else q)))

/-- The scrubber starts on the killed partition that comes first, once its context's work has ended; when it is done every byte of the
partition's granules reads zero with good parity, every other byte is as it was, and the scrub is over. A detected error on a line: of no
context's partition, its words are marked; of a buffer whose clean backing allows it, that line is fetched again. A producing step of the
log runs again from its logged inputs, once they are whole, first of the issued steps, with its own serial. The pooling unit takes a
landed line of the first GATHER that has one: the line joins its row and is no longer in flight, and a row not yet whole waits for the
next; a whole one is added to its bag. The model's own readings it rests on: assumptions 34, 39, 41. -/
def Obligations.ScratchpadCare : Prop :=
  ((∀ (s : State) (e : EngineId) (k : Scrub) (ks : List Scrub), (s.engine e).scrubs = k :: ks → k.started = false → k.ready = true →
     exec (.scrubStart e) s = .next (s.setEngine e { s.engine e with scrubs := { k with started := true } :: ks })) ∧
   (∀ (s : State) (e : EngineId) (k : Scrub) (ks : List Scrub), (s.engine e).scrubs = k :: ks → k.ready = false →
     exec (.scrubStart e) s = .next s) ∧
   (∀ (s : State) (e : EngineId) (k : Scrub) (ks : List Scrub), (s.engine e).scrubs = k :: ks → k.started = true →
     ∃ t, exec (.scrubComplete e) s = .next t ∧ t = { s with engines := t.engines, insts := t.insts, scrubsCompleted := s.scrubsCompleted + 1, ctrs := t.ctrs,
                                                                     freeCount := t.freeCount } ∧
       (t.engine e).scrubs = ks ∧
       (∀ a, 32768 * k.first ≤ a → a < 32768 * (k.first + k.count) → Tab.get 0 (t.engine e).scratch a = 0) ∧
       (∀ a, (a < 32768 * k.first ∨ 32768 * (k.first + k.count) ≤ a) → Tab.get 0 (t.engine e).scratch a = Tab.get 0 (s.engine e).scratch a) ∧
       (∀ n, 4096 * k.first ≤ n → n < 4096 * (k.first + k.count) → Tab.get false (t.engine e).badWords n = false) ∧
       (k.instanceId = none → t.insts = s.insts))) ∧
  ((∀ (s : State) (e : EngineId) (line : BitVec 13) (poisoned : Bool), (s.engine e).lineContext line.toNat = none →
     ∃ t, exec (.parityDetect e line poisoned) s = .next t ∧ t = s.setEngine e { s.engine e with badWords := (t.engine e).badWords } ∧
       ∀ n, Tab.get false (t.engine e).badWords n = (decide (n / 8 = line.toNat) || Tab.get false (s.engine e).badWords n)) ∧
   (∀ (s : State) (e : EngineId) (line : BitVec 13) (poisoned : Bool) (c : ContextId) (h : Nat) (r : Run) (rs : List Run),
     (s.engine e).lineContext line.toNat = some c → (s.engine e).bufferOf ((s.engine e).part c) line.toNat = some h →
     (s.ectx e c).runs = r :: rs → (∀ q ∈ (s.ectx e c).runs, q.sends = []) →
     (∀ q ∈ (s.ectx e c).runs, (s.engine e).header ((s.engine e).part c) q.step.descriptor.toNat = none) →
     mBacking ((s.engine e).entry ((s.engine e).part c) h) ≠ 0 → mDirty ((s.engine e).entry ((s.engine e).part c) h) = false →
     ∃ t f, exec (.parityDetect e line poisoned) s = .next t ∧
       t = { s with engines := t.engines, ctrs := t.ctrs, integ := t.integ, host := t.host, freeCount := t.freeCount } ∧
       ((t.ectx e c).runs.headD r).fetches = f :: r.fetches ∧ f.line = line.toNat ∧ f.refetch = true) ∧
   (∀ (s : State) (e : EngineId) (c : ContextId) (serial : BitVec 16) (l : LogEntry),
     (s.ectx e c).log.find? (fun l => l.serial == serial) = some l →
     l.reads.all (fun q => mWriteSeq ((s.engine e).entry ((s.engine e).part c) q.1) == q.2.toNat) = true →
     l.reads.any (fun q => (s.engine e).badIn (rowAddr ((s.engine e).part c) ((s.engine e).entry ((s.engine e).part c) q.1) 0 0 0)
       (64 * mSize ((s.engine e).entry ((s.engine e).part c) q.1))) = false →
     (s.ectx e c).runs.any (fun r => r.again && r.serial == serial) = false → s.engineStopped e = false → s.noWork = false →
     ∃ t r, exec (.producerRerun e c serial) s = .next t ∧
       t = { s with engines := t.engines, ctrs := t.ctrs, integ := t.integ, host := t.host, freeCount := t.freeCount } ∧
       (t.ectx e c).runs = r :: (s.ectx e c).runs ∧ r.step = l.step ∧ r.serial = serial ∧ r.again = true ∧ r.sends = [])) ∧
  (∀ (s : State) (e : EngineId) (c : ContextId) (r : Run) (g : GatherState) (line : List Byte) (rest : List (List Byte)),
     (s.ectx e c).runs.find? (fun r => r.gather.isSome) = some r → r.gather = some g → g.landed = line :: rest → s.engineStopped e = false →
     ((g.row ++ line).length < ceilDiv (storedBytes ((s.engine e).table ((s.engine e).part c) r.step.descriptor.toNat)) 64 * 64 →
       ∃ t, exec (.gatherPoolLine e c) s = .next t ∧ t = { s with engines := t.engines } ∧
         t.ectx e c = { s.ectx e c with readLines := (s.ectx e c).readLines - 1, runs := (s.ectx e c).runs.map (fun q =>
           if q.serial = r.serial then { q with gather := some { g with landed := rest, row := g.row ++ line } } else q) } ∧
         (t.engine e).scratch = (s.engine e).scratch ∧ (∀ e', e' ≠ e → t.engine e' = s.engine e')) ∧
     (∀ it, ceilDiv (storedBytes ((s.engine e).table ((s.engine e).part c) r.step.descriptor.toNat)) 64 * 64 ≤ (g.row ++ line).length →
       ((s.engine e).gatherItems ((s.engine e).part c) r.step.descriptor.toNat)[g.entry]? = some it →
       ∃ t, exec (.gatherPoolLine e c) s = .next t ∧ t = { s with engines := t.engines, ctrs := t.ctrs } ∧
         (t.engine e).scratch = ((s.engine e).poolRow ((s.engine e).part c) r.step.descriptor.toNat
           { g with landed := rest, row := g.row ++ line } it (g.row ++ line)).1.scratch ∧
         (t.ectx e c).readLines = (s.ectx e c).readLines - 1))

/-! ### Chain work -/

/-- Each stage row acts on the tile in the vector unit, where no tile that only converts is at the drain: the tile becomes what the stage
makes of it, the unit has passed one stage more, and only the engine and its saturation counter change. Outside exact mode SCALE leaves x
× A + B unrounded. The model's own readings it rests on: assumptions 49, 50, 53. -/
def Obligations.StageRows : Prop :=
  ∀ (s : State) (e : EngineId) (stage : BitVec 32) (q : Pass) (r : Run) (p d h : Nat),
    s.noWork = false → s.engineStopped e = false → (s.engine e).vu.tilePass = some q → q.discard = false →
    (∀ t rest, ((s.engine e).array false).drains = t :: rest → (s.engine e).drainOnly t = false ∨ t.pass = q) →
    (s.ectx e q.context).runs.find? (fun r => r.serial == q.serial) = some r → p = (s.engine e).part q.context →
    d = r.step.descriptor.toNat → h = ((s.engine e).header p d).getD 0 →
    (∀ row ∈ [(Instr.scale, stScale), (Instr.bias, stBias), (Instr.colscale, stColscale), (Instr.residual, stResidual),
              (Instr.act, stAct), (Instr.gatepair, stGatepair), (Instr.norm, stNorm), (Instr.softmax, stSoftmax),
              (Instr.convert, stConvert)], ∀ v : Env,
      v = { x := (s.engine e).holdChain q.context r.serial, p, d, h, q, col0 := (s.engine e).vu.tileCol } →
      ∃ t, exec (row.1 e stage) s = .next t ∧ t = { s with engines := t.engines, ctrs := t.ctrs } ∧
        (t.engine e).vu.tile = (roundTile h (setBits stage.toNat 31 26 row.2)
          (v.stageValue (setBits stage.toNat 31 26 row.2) (s.engine e).vu.tile)).1 ∧
        (t.engine e).vu.stagesDone = (s.engine e).vu.stagesDone + 1 ∧ (t.engine e).vu.tilePass = some q ∧
        (t.engine e).scratch = (s.engine e).scratch ∧ (∀ e', e' ≠ e → t.engine e' = s.engine e')) ∧
    (hExact h = false → ∃ t, exec (.scale e stage) s = .next t ∧ (t.engine e).vu.tile = (s.engine e).vu.tile.map (fun row =>
      row.map (fun x => ffma x (hConst h (bits stage.toNat 20 18)) (hConst h (bits stage.toNat 17 15))))) ∧
    (∃ t, exec (.quant e stage) s = .next t ∧ t = { s with engines := t.engines, ctrs := t.ctrs } ∧
      (t.engine e).vu.tile = (s.engine e).vu.tile ∧ (t.engine e).vu.codes.length = (s.engine e).vu.tile.length ∧
      (t.engine e).vu.stagesDone = (s.engine e).vu.stagesDone + 1 ∧ (t.engine e).scratch = (s.engine e).scratch) ∧
    (∀ k : Work, k = { x := (s.engine e).holdChain q.context r.serial, r, tile := (s.engine e).vu.tile, col0 := (s.engine e).vu.tileCol,
                       codes := (s.engine e).vu.codes, scales := (s.engine e).vu.scales } →
      (∃ t, exec (.online e stage) s = .next t ∧ t = { s with engines := t.engines, ctrs := t.ctrs } ∧
        (t.engine e).vu.tile = (s.engine e).vu.tile ∧ (t.engine e).vu.stagesDone = (s.engine e).vu.stagesDone + 1 ∧
        (t.engine e).scratch = (k.online p d h q (setBits stage.toNat 31 26 stOnline)).x.scratch) ∧
      (∃ t, exec (.merge e stage) s = .next t ∧ t = { s with engines := t.engines, ctrs := t.ctrs } ∧
        (t.engine e).vu.tile = (k.merge p d h q (setBits stage.toNat 31 26 stMerge)).tile ∧
        (t.engine e).vu.stagesDone = (s.engine e).vu.stagesDone + 1 ∧
        (t.engine e).scratch = (k.merge p d h q (setBits stage.toNat 31 26 stMerge)).x.scratch))

/-- The tile that waits in an array's drain bank, whole, with whole buffers to read and its turn come, passes through its chain and its
output is written: it leaves the bank, its step counts it once, and the scratchpad holds what the chain's work, or the vector program's,
wrote. A held band of a PRODUCT step with a resident output is finished in one sweep: every tile of it counts as written, and the hold is
empty. The model's own readings it rests on: assumptions 45, 47, 53. -/
def Obligations.TileChains : Prop :=
  (∀ (s : State) (e : EngineId) (a : ArrayId) (tile : DrainTile) (rest : List DrainTile) (r : Run) (p d : Nat),
     s.noWork = false → s.engineStopped e = false → (s.engine e).vu.tilePass = none → (s.engine e).vuPass = none →
     ((s.engine e).array a).drains = tile :: rest → tile.pass.discard = false →
     (s.ectx e tile.pass.context).runs.find? (fun r => r.serial == tile.pass.serial) = some r →
     p = (s.engine e).part tile.pass.context → d = r.step.descriptor.toNat → (s.engine e).outBlocked p r tile.pass = false →
     tile.pass.key ∉ r.tilesDone → tile.pass.kind = .single → (s.engine e).pairsGood p d = true →
     (s.engine e).firstBad ((s.engine e).chainReads p d) = none →
     ((s.engine e).header p d = none →
       ∃ t r', exec (.tileChainWork e a) s = .next t ∧ t = { s with engines := t.engines, ctrs := t.ctrs } ∧
         ((t.engine e).array a).drains = rest ∧ (t.engine e).vu.tilePass = none ∧
         (t.ectx e tile.pass.context).runs.find? (fun r => r.serial == tile.pass.serial) = some r' ∧
         r'.tilesDone = r.tilesDone ++ [tile.pass.key] ∧ r'.chainLeft = r.chainLeft - 1 ∧ (∀ e', e' ≠ e → t.engine e' = s.engine e')) ∧
     (∀ h, (s.engine e).header p d = some h → hForm h = 1 → (s.engine e).drainTurn a tile = true →
       ∃ t r', exec (.vectorProgramRun e a) s = .next t ∧ t = { s with engines := t.engines, ctrs := t.ctrs } ∧
         ((t.engine e).array a).drains = rest ∧ (t.engine e).vu.tilePass = none ∧
         (t.ectx e tile.pass.context).runs.find? (fun r => r.serial == tile.pass.serial) = some r' ∧
         r'.tilesDone = r.tilesDone ++ [tile.pass.key] ∧ r'.chainLeft = r.chainLeft - 1 ∧
         exec (.tileChainWork e a) s = .next s)) ∧
  (∀ (s : State) (e : EngineId) (a : ArrayId) (c : ContextId) (r : Run) (m n0 h : Nat) (tail : List (Nat × Nat)),
     (s.engine e).heldRun = some (c, r) → (s.ectx e c).runs.find? (fun q => q.serial == r.serial) = some r →
     (s.engine e).header ((s.engine e).part c) r.step.descriptor.toNat = some h → r.heldTiles = (m, n0) :: tail →
     dOp r.step.descriptor.toNat = opProduct →
     mStreamed ((s.engine e).entry ((s.engine e).part c) (dOut r.step.descriptor.toNat)) = false →
     s.noWork = false → s.engineStopped e = false →
     ∃ t r', exec (.heldBandFinish e a) s = .next t ∧ t = { s with engines := t.engines, ctrs := t.ctrs } ∧
       (t.ectx e c).runs.find? (fun q => q.serial == r.serial) = some r' ∧ r'.heldTiles = [] ∧
       (∀ n, n < tilesN r.step.descriptor.toNat → 2 * (m * tilesN r.step.descriptor.toNat + n) ∈ r'.tilesDone) ∧
       (∀ e', e' ≠ e → t.engine e' = s.engine e'))

/-! ### Vector instructions -/

/-- Every vector instruction row completes, whatever its word, and changes nothing outside its engine and that engine's saturation
counter; the engine keeps everything but the vector unit's registers, and under STV everything but its scratchpad. The model's own
readings it rests on: assumption 52. -/
def Obligations.VectorRowsFrame : Prop :=
  ∀ (s : State) (e : EngineId) (word : BitVec 64),
    (∃ t, exec (.stv e word) s = .next t ∧ t = { s with engines := t.engines, ctrs := t.ctrs } ∧
      t.engine e = { s.engine e with scratch := (t.engine e).scratch, badWords := (t.engine e).badWords } ∧
      (∀ e', e' ≠ e → t.engine e' = s.engine e')) ∧
    ∀ row ∈ [Instr.vecAdd, Instr.vecSub, Instr.vecMul, Instr.fma, Instr.max, Instr.min, Instr.abs, Instr.vecNeg, Instr.mov, Instr.sel,
             Instr.adds, Instr.muls, Instr.ceq, Instr.cne, Instr.clt, Instr.cle, Instr.cgt, Instr.cge, Instr.sfu, Instr.vecRsum, Instr.rmax,
             Instr.vecBcast, Instr.rnd, Instr.qnt, Instr.cvti, Instr.ldv, Instr.sadd, Instr.smul, Instr.smov, Instr.sfrom],
      ∃ t, exec (row e word) s = .next t ∧ t = { s with engines := t.engines, ctrs := t.ctrs } ∧
        t.engine e = { s.engine e with vu := { (s.engine e).vu with v := (t.engine e).vu.v, p := (t.engine e).vu.p, s := (t.engine e).vu.s } } ∧
        (∀ e', e' ≠ e → t.engine e' = s.engine e')

/-- The lane instructions on one register (span 1): every lane that the predicate, or its inverse, holds on takes the operation's value of
the source lanes; every other lane of the destination, and every other register, keeps its value. SEL, the comparisons and the scalar
instructions on one register (span 1): SEL takes Va's lane where the predicate holds and Vb's elsewhere; a comparison writes its predicate
register, p0 never; the reductions take the lanes that are present in the order of R160; the scalar instructions write one scalar
register. A vector instruction of any span does, register by register, what the instructions on one register do: on the destinations and
sources that follow one another, LDV from the rows that follow one another. The model's own readings it rests on: assumptions 48, 49, 52.
-/
def Obligations.VectorLanesAndSelects : Prop :=
  (∀ (s : State) (e : EngineId) (word : BitVec 64) (w : Nat) (lane : VectorUnit → Nat → Nat → W32) (on : Nat → Bool),
     s.noWork = false → s.engineStopped e = false → w = word.toNat → vSpan w = 1 →
     (∀ u r l, lane u r l = Tab.get 0 u.v (128 * r + l)) →
     (∀ l, on l = ((vPred w == 0 || Tab.get false (s.engine e).vu.p (128 * vPred w + l)) != vNeg w)) →
     ∀ row ∈ [(Instr.vecAdd, fun l => fadd (lane (s.engine e).vu (vA w) l) (lane (s.engine e).vu (vB w) l)),
              (Instr.vecSub, fun l => fsub (lane (s.engine e).vu (vA w) l) (lane (s.engine e).vu (vB w) l)),
              (Instr.vecMul, fun l => fmul (lane (s.engine e).vu (vA w) l) (lane (s.engine e).vu (vB w) l)),
              (Instr.fma, fun l => ffma (lane (s.engine e).vu (vA w) l) (lane (s.engine e).vu (vB w) l) (lane (s.engine e).vu (vC w) l)),
              (Instr.max, fun l => fmax (lane (s.engine e).vu (vA w) l) (lane (s.engine e).vu (vB w) l)),
              (Instr.min, fun l => fmin (lane (s.engine e).vu (vA w) l) (lane (s.engine e).vu (vB w) l)),
              (Instr.abs, fun l => fabs32 (lane (s.engine e).vu (vA w) l)),
              (Instr.vecNeg, fun l => fneg (lane (s.engine e).vu (vA w) l)),
              (Instr.mov, fun l => lane (s.engine e).vu (vA w) l),
              (Instr.adds, fun l => fadd (lane (s.engine e).vu (vA w) l) ((s.engine e).vu.scalar32 (vB w % 32))),
              (Instr.muls, fun l => fmul (lane (s.engine e).vu (vA w) l) ((s.engine e).vu.scalar32 (vB w % 32))),
              (Instr.sfu, fun l => sfu (bits w 2 0) (lane (s.engine e).vu (vA w) l)),
              (Instr.vecBcast, fun _ => (s.engine e).vu.scalar32 (vA w % 32)),
              (Instr.rnd, fun l => (roundCode (vRound w) (vSat w) (lane (s.engine e).vu (vA w) l)).1),
              (Instr.qnt, fun l => (quantLane (vRound w) ((s.engine e).vu.scalar32 (vB w % 32)) (lane (s.engine e).vu (vA w) l)).1),
              (Instr.cvti, fun l => ofInt32 (lane (s.engine e).vu (vA w) l))],
       ∃ t, exec (row.1 e word) s = .next t ∧
         (∀ l, l < 128 → lane (t.engine e).vu (vD w) l = if on l then row.2 l else lane (s.engine e).vu (vD w) l) ∧
         (∀ r l, l < 128 → r ≠ vD w → lane (t.engine e).vu r l = lane (s.engine e).vu r l) ∧
         (t.engine e).vu.p = (s.engine e).vu.p ∧ (t.engine e).vu.s = (s.engine e).vu.s) ∧
  (∀ (s : State) (e : EngineId) (word : BitVec 64) (w : Nat) (lane : VectorUnit → Nat → Nat → W32) (on : Nat → Bool),
     s.noWork = false → s.engineStopped e = false → w = word.toNat → vSpan w = 1 →
     (∀ u r l, lane u r l = Tab.get 0 u.v (128 * r + l)) →
     (∀ l, on l = ((vPred w == 0 || Tab.get false (s.engine e).vu.p (128 * vPred w + l)) != vNeg w)) →
     (∃ t, exec (.sel e word) s = .next t ∧ (t.engine e).vu.p = (s.engine e).vu.p ∧ (t.engine e).vu.s = (s.engine e).vu.s ∧
       ∀ l, l < 128 → lane (t.engine e).vu (vD w) l =
         if on l then lane (s.engine e).vu (vA w) l else lane (s.engine e).vu (vB w) l) ∧
     (∀ row ∈ [(Instr.ceq, 0x10), (Instr.cne, 0x11), (Instr.clt, 0x12), (Instr.cle, 0x13), (Instr.cgt, 0x14), (Instr.cge, 0x15)],
       ∃ t, exec (row.1 e word) s = .next t ∧ (t.engine e).vu.v = (s.engine e).vu.v ∧ (t.engine e).vu.s = (s.engine e).vu.s ∧
         (vD w % 8 = 0 → t.engine e = s.engine e) ∧
         (∀ l, l < 128 → vD w % 8 ≠ 0 → Tab.get false (t.engine e).vu.p (128 * (vD w % 8) + l) =
           if on l then laneCompare row.2 (lane (s.engine e).vu (vA w) l) (lane (s.engine e).vu (vB w) l)
           else Tab.get false (s.engine e).vu.p (128 * (vD w % 8) + l))) ∧
     (∀ row ∈ [(Instr.vecRsum, treeReduce fadd 0 (((s.engine e).vu.lanes (vA w)).take ((s.engine e).vu.width (vA w)))),
               (Instr.rmax, treeReduce fmax negInf32 (((s.engine e).vu.lanes (vA w)).take ((s.engine e).vu.width (vA w)))),
               (Instr.sadd, fadd ((s.engine e).vu.scalar32 (vA w % 32)) ((s.engine e).vu.scalar32 (vB w % 32))),
               (Instr.smul, fmul ((s.engine e).vu.scalar32 (vA w % 32)) ((s.engine e).vu.scalar32 (vB w % 32)))],
       ∃ t, exec (row.1 e word) s = .next t ∧ (t.engine e).vu.v = (s.engine e).vu.v ∧ (t.engine e).vu.p = (s.engine e).vu.p ∧
         (t.engine e).vu.scalar32 (vD w % 32) = row.2 ∧
         ∀ k, k < 32 → k ≠ vD w % 32 → (t.engine e).vu.scalar k = (s.engine e).vu.scalar k) ∧
     (∃ t, exec (.smov e word) s = .next t ∧ (t.engine e).vu.scalar (vD w) = (s.engine e).vu.scalar (vA w) ∧
       ∀ k, k < 32 → k ≠ vD w % 32 → (t.engine e).vu.scalar k = (s.engine e).vu.scalar k) ∧
     (∀ p d h, (s.engine e).programContext = some (p, d, h) → ∃ t, exec (.sfrom e word) s = .next t ∧
       (t.engine e).vu.scalar32 (vD w % 32) = hConst h (bits w 2 0))) ∧
  (∀ (s : State) (e : EngineId) (word : BitVec 64) (w : Nat) (one : Nat → BitVec 64), w = word.toNat →
     (∀ i, i < vSpan w → vSpan (one i).toNat = 1 ∧ vD (one i).toNat = (vD w + i) % 64 ∧ vA (one i).toNat = (vA w + i) % 64 ∧
       vB (one i).toNat = (vB w + i) % 64 ∧ vC (one i).toNat = (vC w + i) % 64 ∧ vPred (one i).toNat = vPred w ∧
       vNeg (one i).toNat = vNeg w ∧ vRound (one i).toNat = vRound w ∧ vSat (one i).toNat = vSat w ∧
       vSelector (one i).toNat = vSelector w) →
     ((∀ i, i < vSpan w → vRow (one i).toNat = vRow w) →
       ∀ row ∈ [Instr.vecAdd, Instr.vecSub, Instr.vecMul, Instr.fma, Instr.max, Instr.min, Instr.abs, Instr.vecNeg, Instr.mov, Instr.sel,
                Instr.adds, Instr.muls, Instr.ceq, Instr.cne, Instr.clt, Instr.cle, Instr.cgt, Instr.cge, Instr.sfu, Instr.vecRsum, Instr.rmax,
                Instr.vecBcast, Instr.rnd, Instr.qnt, Instr.cvti, Instr.sadd, Instr.smul, Instr.smov, Instr.sfrom],
         ∃ (f : Nat → State) (t : State), f 0 = s ∧ (∀ i, i < vSpan w → exec (row e (one i)) (f i) = .next (f (i + 1))) ∧
           exec (row e word) s = .next t ∧ t = { f (vSpan w) with ctrs := t.ctrs }) ∧
     ((∀ i, i < vSpan w → vRow (one i).toNat = vRow w + i) →
       ∃ (f : Nat → State) (t : State), f 0 = s ∧ (∀ i, i < vSpan w → exec (.ldv e (one i)) (f i) = .next (f (i + 1))) ∧
         exec (.ldv e word) s = .next t ∧ t = { f (vSpan w) with ctrs := t.ctrs }))

/-- LDV loads the 128 elements of a row of the selected buffer, of a streamed one from the slot of the tile at hand; STV stores the lanes
its predicate allows to rows of the hold buffer, one for each register of its span, the others keeping their words, and no byte outside
those rows' 512 changes. The model's own readings it rests on: assumption 52. -/
def Obligations.VectorMemory : Prop :=
  ∀ (s : State) (e : EngineId) (word : BitVec 64) (w p d h : Nat) (on : Nat → Bool),
    s.noWork = false → s.engineStopped e = false → w = word.toNat → (s.engine e).programContext = some (p, d, h) →
    (∀ l, on l = ((vPred w == 0 || Tab.get false (s.engine e).vu.p (128 * vPred w + l)) != vNeg w)) →
    (∀ row, row = vRow w + ((s.engine e).vu.scalar 8).toNat → vSpan w = 1 →
      (mStreamed ((s.engine e).entry p (selectedHandle h d (vSelector w))) = false →
        ∃ t, exec (.ldv e word) s = .next t ∧ ∀ l, l < 128 → Tab.get 0 (t.engine e).vu.v (128 * vD w + l) =
          if on l then (s.engine e).value32 p ((s.engine e).entry p (selectedHandle h d (vSelector w))) row row l 0
          else Tab.get 0 (s.engine e).vu.v (128 * vD w + l)) ∧
      (∀ q, mStreamed ((s.engine e).entry p (selectedHandle h d (vSelector w))) = true → (s.engine e).servedPass = some q →
        ∃ t, exec (.ldv e word) s = .next t ∧ ∀ l, l < 128 → Tab.get 0 (t.engine e).vu.v (128 * vD w + l) =
          if on l then (s.engine e).value32 p ((s.engine e).entry p (selectedHandle h d (vSelector w))) row (row - q.m * dM d) l
            (fetchIndex d .tile q)
          else Tab.get 0 (s.engine e).vu.v (128 * vD w + l))) ∧
    (∀ addr : Nat → Nat, (∀ i, addr i = rowAddr p ((s.engine e).entry p (hHold h)) 0 (vRow w + i) (vRow w + i)) →
      (∀ i j, i < j → j < vSpan w → addr i + 512 ≤ addr j ∨ addr j + 512 ≤ addr i) →
      ∃ t, exec (.stv e word) s = .next t ∧ t = { s with engines := t.engines, ctrs := t.ctrs } ∧ (t.engine e).vu = (s.engine e).vu ∧
        (∀ i l, i < vSpan w → l < 128 → (t.engine e).word32 (addr i + 4 * l) =
          if on l then Tab.get 0 (s.engine e).vu.v (128 * ((vA w + i) % 64) + l) else (s.engine e).word32 (addr i + 4 * l)) ∧
        (∀ a, (∀ i, i < vSpan w → a < addr i ∨ addr i + 512 ≤ a) → Tab.get 0 (t.engine e).scratch a = Tab.get 0 (s.engine e).scratch a) ∧
        (∀ e', e' ≠ e → t.engine e' = s.engine e'))

/-! ### The radio pipeline -/

/-- A cell's plan is read once its slot's fetch instant has come, slots in rising order and several at a time; where the ring, the link or
the tags do not allow the read, the slot runs without a plan. A plan whose read failed, or whose header is not its slot's, leaves the slot
without one; a valid one is kept with its PDUs. Downlink windows: a PDU's C-plane window queues one message per stream on its link; a
symbol's U-plane window opens; a payload that is complete before its window waits; at its deadline every stream of the symbol is judged.
On a link that is not up nothing is queued. The model's own readings it rests on: assumptions 15, 57, 58, 59, 60. -/
def Obligations.RadioSlotsDownlink : Prop :=
  ((∀ (s : State) (c : CellId) (n : Nat), s.hasCell c = true → s.noWork = false → s.time.quality ≠ .unset → s.host.radioReady = true →
     (∀ m, (s.cell c).lastSlot = some m → m < n) →
     slotAt (clNum (s.cellOf c)) (s.now16 + ns16 (clPlanLead (s.cellOf c))) = some n →
     (planEnabled (s.obj 0x5010 0 c.toNat) = true → s.host.phase = .up → s.ideBlocked = false → s.host.reads.length < 1024 →
       exec (.planFetch c) s = .next ((s.setCell c { s.cell c with fetching := (s.cell c).fetching ++ [n], lastSlot := some n }).issueRead .provider
         (bits (s.obj 0x5010 0 c.toNat) 127 64 + n % 2 ^ bits (s.obj 0x5010 0 c.toNat) 63 60 * 8192) 8192 (.plan c n))) ∧
     (planEnabled (s.obj 0x5010 0 c.toNat) = false ∨ s.host.phase ≠ .up ∨ s.ideBlocked = true ∨ 1024 ≤ s.host.reads.length →
       ∃ t p, exec (.planFetch c) s = .next t ∧ t = { s with radio := t.radio, freeCount := s.freeCount + 1 } ∧
       t.cell c = { s.cell c with fetching := (s.cell c).fetching.erase n, lastSlot := some n, plans := (s.cell c).plans ++ [p] } ∧
       p.slot = n ∧ p.missing = true ∧ p.pdus = [])) ∧
   (∀ (s : State) (c : CellId) (result : ReadResult) (header : BitVec 512) (pdus : List (BitVec 512)) (tag : Nat) (rd : HostRead) (n : Nat)
     (rest : List Nat), s.findRead (.plan c n) = some (tag, rd) → (s.cell c).fetching = n :: rest →
     (result ≠ .good → ∃ t p, exec (.planReadComplete c result header pdus) s = .next t ∧
       t = { s with radio := t.radio, host := { s.host with reads := t.host.reads }, freeCount := s.freeCount + 1 } ∧
       t.cell c = { s.cell c with fetching := rest, plans := (s.cell c).plans ++ [p] } ∧ p.slot = n ∧ p.missing = true ∧ p.pdus = []) ∧
     (result = .good → (bits header.toNat 511 502 ≠ n / slotsPerFrame (clNum (s.cellOf c)) % 1024 ∨
         bits header.toNat 501 495 ≠ n % slotsPerFrame (clNum (s.cellOf c)) ∨ bits header.toNat 427 0 ≠ 0) →
       ∃ t p, exec (.planReadComplete c result header pdus) s = .next t ∧
         t.cell c = { s.cell c with fetching := rest, plans := (s.cell c).plans ++ [p] } ∧ p.slot = n ∧ p.missing = true ∧ p.pdus = []) ∧
     (result = .good → bits header.toNat 511 502 = n / slotsPerFrame (clNum (s.cellOf c)) % 1024 →
       bits header.toNat 501 495 = n % slotsPerFrame (clNum (s.cellOf c)) → bits header.toNat 427 0 = 0 →
       bits header.toNat 466 460 ≤ pdus.length →
       ∃ t x, exec (.planReadComplete c result header pdus) s = .next t ∧
         t = (((s.endRead tag).draw.2.setCell c x).writeRan (planCopy c.toNat n)
           (leBytes 64 header.toNat ++ (pdus.take (bits header.toNat 466 460)).flatMap (fun r => leBytes 64 r.toNat)) hostUnit).askPayloads c n ∧
         x.fetching = rest ∧ ∃ p, x.plans = (s.cell c).plans ++ [p] ∧ p.slot = n ∧ p.missing = false ∧
           p.pdus.length = bits header.toNat 466 460 ∧ p.directions = BitVec.ofNat 28 (bits header.toNat 494 467) ∧
           p.tag = BitVec.ofNat 32 (bits header.toNat 459 428)))) ∧
  ((∀ (s : State) (c : CellId) (i : BitVec 7) (weights : Option (List Byte)) (p : SlotPlan) (d : Pdu),
     (s.cell c).plans.find? (fun p => match p.pdus[i.toNat]? with | some d => d.live && !d.cplaneSent | none => false) = some p →
     p.pdus[i.toNat]? = some d → s.radioRuns = true →
     airStart (clNum (s.cellOf c)) p.slot (pdStart d.record.toNat) ≤
       s.now16 + ns16 (clDlAdvanceMax (s.cellOf c) + clCplaneLead (s.cellOf c)) →
     ∃ t, exec (.cplaneWindowOpen c i weights) s = .next t ∧ t = { s with radio := t.radio, ports := t.ports, freeCount := t.freeCount } ∧
       (∀ q ∈ (t.cell c).plans, q.slot = p.slot → ∀ d', q.pdus[i.toNat]? = some d' → d'.cplaneSent = true) ∧
       (s.linkUpFor (s.cellOf c) = true → (Tab.get [] (t.port (linkPort (clLink (s.cellOf c)))).queues 7).length =
         (Tab.get [] (s.port (linkPort (clLink (s.cellOf c)))).queues 7).length + (pduStreams (s.cellOf c) d.record.toNat).length) ∧
       (s.linkUpFor (s.cellOf c) = false → t.ports = s.ports)) ∧
   (∀ (s : State) (c : CellId) (k : BitVec 4) (p : SlotPlan),
     (s.cell c).plans.find? (fun p => k.toNat < 14 && !p.windowOpen.getLsbD k.toNat && !(p.dlStreams (s.cellOf c) k.toNat).isEmpty) = some p →
     s.radioRuns = true → airStart (clNum (s.cellOf c)) p.slot k.toNat ≤ s.now16 + ns16 (clDlAdvanceMax (s.cellOf c)) →
     ∃ t, exec (.uplaneWindowOpen c k) s = .next t ∧ t = { s with radio := t.radio, ports := t.ports, freeCount := t.freeCount } ∧
       (∀ q ∈ (t.cell c).plans, q.slot = p.slot → q.windowOpen.getLsbD k.toNat = true) ∧
       (s.linkUpFor (s.cellOf c) = false → t.ports = s.ports)) ∧
   (∀ (s : State) (c : CellId) (k : BitVec 4) (stream : BitVec 5) (samples : List Byte) (p : SlotPlan),
     (s.cell c).plans.find? (fun p => (p.dlStreams (s.cellOf c) k.toNat).contains stream.toNat &&
       !(p.dlSym k.toNat stream.toNat).complete) = some p →
     ((p.dlSym k.toNat stream.toNat).judged = true → ∃ t, exec (.dlPayloadComplete c k stream samples) s = .next t ∧
       t = { s with radio := t.radio } ∧
       Tab.get 0 t.radio.rxStats (5 * clLink (s.cellOf c) + 4) = Tab.get 0 s.radio.rxStats (5 * clLink (s.cellOf c) + 4) + 1) ∧
     ((p.dlSym k.toNat stream.toNat).judged = false → p.windowOpen.getLsbD k.toNat = false →
       exec (.dlPayloadComplete c k stream samples) s = .next (s.updPlan c p.slot (fun q => q.setDlSym k.toNat stream.toNat
         { p.dlSym k.toNat stream.toNat with complete := true, payload := samples }))) ∧
     ((p.dlSym k.toNat stream.toNat).judged = false → p.windowOpen.getLsbD k.toNat = true → s.linkUpFor (s.cellOf c) = true →
       s.radioRuns = true → ∃ t, exec (.dlPayloadComplete c k stream samples) s = .next t ∧
       t = { s with radio := t.radio, ports := t.ports, freeCount := t.freeCount } ∧
       ∀ q ∈ (t.cell c).plans, q.slot = p.slot → (q.dlSym k.toNat stream.toNat).queued = true)) ∧
   (∀ (s : State) (c : CellId) (k : BitVec 4) (p : SlotPlan),
     (s.cell c).plans.find? (fun p => k.toNat < 14 && !p.judged.getLsbD k.toNat && !(p.dlStreams (s.cellOf c) k.toNat).isEmpty) = some p →
     s.radioRuns = true → s.dlDeadline (s.cellOf c) p.slot k.toNat ≤ s.now16 →
     ∃ t, exec (.deadlineWatchdog c k) s = .next t ∧ t = { s with radio := t.radio, ports := t.ports, freeCount := t.freeCount } ∧
       (∀ q ∈ (t.cell c).plans, q.slot = p.slot → q.judged.getLsbD k.toNat = true ∧
         ∀ i ∈ p.dlStreams (s.cellOf c) k.toNat, (q.dlSym k.toNat i).judged = true) ∧
       (s.linkUpFor (s.cellOf c) = false → t.ports = s.ports)))

/-- Uplink windows and results: a symbol's window closes once; a block not started at its deadline reads NOT_DECODED; a decided PDU's
result record is posted at AuxAddress, after its block when the CRC passed; a finished slot's completion record is posted at the radio
ring's next place and the slot is gone. The model's own readings it rests on: assumptions 57, 62, 65. -/
def Obligations.UplinkResults : Prop :=
  (∀ (s : State) (c : CellId) (k : BitVec 4) (p : SlotPlan),
    (s.cell c).plans.find? (fun p => k.toNat < 14 && !p.ulClosed.getLsbD k.toNat && planDirection p.directions.toNat k.toNat == 2) = some p →
    p.pdus = [] → s.radioRuns = true →
    airStart (clNum (s.cellOf c)) p.slot (k.toNat + 1) + ns16 (clUlArriveMax (s.cellOf c)) ≤ s.now16 →
    exec (.ulWindowClose c k) s = .next (s.updPlan c p.slot (fun q => { q with ulClosed := q.ulClosed ||| BitVec.ofNat 14 (2 ^ k.toNat) }))) ∧
  (∀ (s : State) (c : CellId) (k : BitVec 4) (p : SlotPlan) (d : Pdu),
    (s.cell c).plans.find? (fun p => k.toNat < 14 && !p.ulClosed.getLsbD k.toNat && planDirection p.directions.toNat k.toNat == 2) = some p →
    p.pdus = [d] → pdType d.record.toNat = 7 → k.toNat ≠ pdStart d.record.toNat + pdSymbols d.record.toNat - 1 → s.radioRuns = true →
    airStart (clNum (s.cellOf c)) p.slot (k.toNat + 1) + ns16 (clUlArriveMax (s.cellOf c)) ≤ s.now16 →
    exec (.ulWindowClose c k) s = .next (s.updPlan c p.slot (fun q => { q with ulClosed := q.ulClosed ||| BitVec.ofNat 14 (2 ^ k.toNat) }))) ∧
  (∀ (s : State) (c : CellId) (k : BitVec 4) (p : SlotPlan) (d : Pdu),
    (s.cell c).plans.find? (fun p => k.toNat < 14 && !p.ulClosed.getLsbD k.toNat && planDirection p.directions.toNat k.toNat == 2) = some p →
    p.pdus = [d] → d.live = true → pdType d.record.toNat = 0 → pdHas d.record.toNat k.toNat = true →
    p.missingPrbs (s.cellOf c) k.toNat d.record.toNat = [] → pdStart d.record.toNat + pdSymbols d.record.toNat - 1 = k.toNat →
    p.receiverIssued = false → clReceiver (s.cellOf c) ≠ 0 → s.radioRuns = true →
    (∀ q ∈ (s.cell c).plans, q.slot = p.slot → q = p) →
    airStart (clNum (s.cellOf c)) p.slot (k.toNat + 1) + ns16 (clUlArriveMax (s.cellOf c)) ≤ s.now16 →
    ∃ t b, exec (.ulWindowClose c k) s = .next t ∧ t.batches = s.batches ++ [b] ∧ t.nextBatch = s.nextBatch + 1 ∧ b.id = s.nextBatch ∧
      b.origin = .receiver c ∧ b.context = chContext (s.act 0x5005 0 (clChart (s.cellOf c))) ∧
      b.argument = BitVec.ofNat 64 (s.ranAddress (argumentBlock c.toNat p.slot)) ∧ b.stepCount = chSteps (s.act 0x5005 0 (clChart (s.cellOf c))) ∧ b.listAddress = chList (s.act 0x5005 0 (clChart (s.cellOf c)))) ∧
  (∀ (s : State) (c : CellId) (p : SlotPlan) (waits : Pdu → Bool),
    (∀ d, waits d = (d.hasResult && !d.decided && decide (d.cbStarted < d.cbTotal ∨ d.cbTotal = 0))) →
    (s.cell c).plans.find? (fun p => p.pdus.any waits) = some p → s.radioRuns = true →
    airStart (clNum (s.cellOf c)) p.slot 14 + ns16 (clUlResultDeadline (s.cellOf c)) ≤ s.now16 →
    exec (.ulResultDeadline c) s = .next (s.updPlan c p.slot (fun q =>
      { q with pdus := q.pdus.map (fun d => if waits d then { d with tb := .notDecoded } else d) }))) ∧
  (∀ (s : State) (c : CellId) (i : BitVec 7) (p : SlotPlan) (d : Pdu),
    (s.cell c).plans.find? (fun p => match p.pdus[i.toNat]? with | some d => d.hasResult && d.decided && !d.resultWritten | none => false) = some p →
    p.pdus[i.toNat]? = some d → s.radioRuns = true → s.host.phase = .up →
    ∃ t sinr offset, exec (.ulResultRecordWrite c i) s = .next t ∧
      t = { s with radio := t.radio, freeCount := s.freeCount + 2, host := { s.host with writes := s.host.writes ++
        (if d.tb = .crcPass then
          [{ source := .provider, address := pdData d.record.toNat, purpose := .radio,
             bytes := d.decoded.take (if pdType d.record.toNat = 0 then pdTbs d.record.toNat else ceilDiv (pdTbs d.record.toNat) 8) }]
         else []) ++
        [{ source := .provider, address := pdAux d.record.toNat, bytes := d.result sinr offset, purpose := .radio }] } } ∧
      (∀ f, d.offset (clNum (s.cellOf c)) p.slot = some f → offset = f.toNat)) ∧
  (∀ (s : State) (c : CellId) (p : SlotPlan) (base size w : Nat),
    (s.cell c).plans.find? (fun p => p.finished (s.cellOf c)) = some p → s.radioRuns = true → base = s.obj 0x5011 1 0 →
    size = 2 ^ s.obj 0x5011 2 0 → w = s.radio.ringWritten.toNat → base ≠ 0 →
    (s.radio.ringWritten - s.radio.ringConsumed.setWidth 32).toNat < size → s.host.phase = .up →
    ∃ t before after, exec (.radioCompletionWrite c) s = .next t ∧
      t = { s with radio := t.radio, host := t.host, integ := t.integ, freeCount := t.freeCount } ∧
      (t.cell c).plans = (s.cell c).plans.filter (fun q => q.slot ≠ p.slot) ∧ t.radio.ringWritten = s.radio.ringWritten + 1 ∧
      t.radio.overflow = false ∧
      t.host.writes = s.host.writes ++ before ++
        { source := .provider, address := BitVec.ofNat 64 (base + 32 * (w % size)),
          bytes := leBytes 32 (p.completion c (phaseAt w size) s.radio.overflow s.now), purpose := .radio } :: after)

/-- A coding unit starts an operation in an open RAN window that names it when the operation fits: it is in progress, last, ending C
cycles after its start, and the unit takes another one issue interval later. An operation in progress is the unit's last and ends C cycles
after its start; its end gives its result to its PDU in every slot of that number, and one that was late marks the slot. The end of the
last stream of a PRACH occasion also sends the report of its detection over all the streams to AuxAddress (one report over all of them is
the model's choice, assumption 175). The model's own readings it rests on: assumptions 57, 63, 66. -/
def Obligations.CodingOperations : Prop :=
  (∀ (s : State) (b : CodeBlock) (p : SlotPlan) (d : Pdu) (cycle : BitVec 40),
     (∀ (unit : Fin 8), s.blockPdu b (fun d => pdType d.record.toNat == 1 && d.payload.isSome) = some (p, d) →
       s.blockPdu b (fun d => pdType d.record.toNat == 1) = some (p, d) → s.mayStartUnit (leUnit unit) (encodeC b) cycle.toNat = true →
       exec (.ldpcEncode unit b cycle) s = .next (s.startUnit (leUnit unit) cycle.toNat (encodeC b) (encodeC b - 24)
         { kind := .ldpcEncode, block := b, slot := p.slot, cycles := encodeC b, ends := 0, limit := 0, input := [],
           result := Config.ldpcEncode (d.encoderInput b) b.e.toNat, used := 0, good := true })) ∧
     (∀ (unit : Fin 4) (read llrs : List Byte), s.blockPdu b (fun d => pdType d.record.toNat == 2 && !d.decided && d.cbStarted == 0 && decide (d.cbTotal = 1)) = some (p, d) →
       s.blockPdu b (fun d => pdType d.record.toNat == 2) = some (p, d) → d.cbTotal = 1 → b.ncb.toNat ≤ 1024 →
       llrs = (if Tab.get [] d.stages 0x05 = [] then read else Tab.get [] d.stages 0x05) → s.mayStartUnit (plUnit unit) (polarDecodeC b.ncb.toNat) cycle.toNat = true →
       exec (.polarDecode unit b read cycle) s = .next ((s.startUnit (plUnit unit) cycle.toNat (polarDecodeC b.ncb.toNat) (polarDecodeC b.ncb.toNat)
         { kind := .polarDecode, block := b, slot := p.slot, cycles := polarDecodeC b.ncb.toNat, ends := 0, limit := 0, input := [],
           result := (Config.polarDecode llrs b.ncb.toNat).1, used := 0, good := (Config.polarDecode llrs b.ncb.toNat).2 }).updPlan b.cell p.slot
           (fun p => p.updPdu b.pdu.toNat (fun d => { d with cbStarted := 1 })))) ∧
     (∀ (unit : Fin 4), s.blockPdu b (fun d => pdType d.record.toNat == 3 || pdType d.record.toNat == 4) = some (p, d) →
       s.mayStartUnit (plUnit unit) (polarEncodeC b.ncb.toNat) cycle.toNat = true →
       exec (.polarEncode unit b cycle) s = .next (s.startUnit (plUnit unit) cycle.toNat (polarEncodeC b.ncb.toNat) (polarEncodeC b.ncb.toNat)
         { kind := .polarEncode, block := b, slot := p.slot, cycles := polarEncodeC b.ncb.toNat, ends := 0, limit := 0, input := [],
           result := Config.polarEncode (d.encoderInput b) b.e.toNat, used := 0, good := true })) ∧
     (∀ (unit : Fin 8) (inverse : Bool) (read samples : List Byte), s.blockPdu b (fun _ => true) = some (p, d) →
       samples = (if pdUplink d.record.toNat = true ∧ Tab.get [] d.stages 0x04 ≠ [] then Tab.get [] d.stages 0x04 else read) →
       s.mayStartUnit (tuUnit unit) (dftC (12 * pdPrbs d.record.toNat)) cycle.toNat = true →
       exec (.dft unit b inverse read cycle) s = .next (s.startUnit (tuUnit unit) cycle.toNat (dftC (12 * pdPrbs d.record.toNat))
         (dftC (12 * pdPrbs d.record.toNat))
         { kind := .dft, block := b, slot := p.slot, cycles := dftC (12 * pdPrbs d.record.toNat), ends := 0, limit := 0, input := [],
           result := Config.dft inverse (12 * pdPrbs d.record.toNat) samples, used := 0, good := true })) ∧
     (∀ (unit : Fin 8) (subcarriers : BitVec 12) (read samples : List Byte), s.blockPdu b (fun _ => true) = some (p, d) →
       samples = (if Tab.get [] d.stages 0x03 = [] then read else Tab.get [] d.stages 0x03) →
       s.mayStartUnit (tuUnit unit) (interpolationC subcarriers.toNat) cycle.toNat = true →
       exec (.interpolation unit b subcarriers read cycle) s = .next (s.startUnit (tuUnit unit) cycle.toNat
         (interpolationC subcarriers.toNat) (interpolationC subcarriers.toNat)
         { kind := .interpolation, block := b, slot := p.slot, cycles := interpolationC subcarriers.toNat, ends := 0, limit := 0, input := [],
           result := Config.interpolate subcarriers.toNat samples, used := 0, good := true })) ∧
     (∀ (unit : Fin 8) (roots : BitVec 6) (samples : List Byte) (f c : Nat), s.blockPdu b (fun d => pdType d.record.toNat == 7) = some (p, d) →
       f = pdDetail d.record.toNat → c = prachC roots.toNat (prachLength f) → s.mayStartUnit (pcUnit unit) c cycle.toNat = true →
       exec (.prachCorrelation unit b roots samples cycle) s = .next (s.startUnit (pcUnit unit) cycle.toNat c c
         { kind := .prach, block := b, slot := p.slot, cycles := c, ends := 0, limit := 0, input := [],
           result := samples, used := 0, good := true })) ∧
     (∀ (unit : Fin 24) (read demapped llrs : List Byte) (q : State × List Byte × List (BitVec 8)) (lost : Bool) (pos : List Nat) (tab : Tab Byte)
         (rows i : Nat) (l : ListEntry) (y : List Byte × Nat × Bool),
       s.blockPdu b (fun d => pdType d.record.toNat == 0 && !d.decided && decide (d.cbStarted < d.cbTotal)) = some (p, d) →
       q = (if pdNewData d.record.toNat = true then (s, [], []) else s.readRan (s.softAt b d.record.toNat) b.ncb.toNat (ldUnit unit)) →
       demapped = Tab.get [] d.stages 0x05 → llrs = (if demapped = [] then read else demapped.take b.e.toNat) →
       lost = q.2.2.contains stDataLost →
       pos = receivedPositions b (segmentation (pdTbs d.record.toNat) (pdRate d.record.toNat)).bits (pdRv d.record.toNat) (pdMod d.record.toNat) →
       tab = combineLlrs (if lost = true then [] else (q.2.1.zipIdx).foldl (fun t v => Tab.set 0 t v.2 v.1) [])
         (pdNewData d.record.toNat || lost) pos llrs →
       rows = rowsUsed b ((List.range b.ncb.toNat).filter (fun k => pos.contains k || Tab.get 0 tab k ≠ 0)).length →
       s.openWindow (ldUnit unit) = some l → iterationLimit b rows l.maxPass (clMaxIterations (s.cellOf b.cell)) = some i →
       s.mayStartUnit (ldUnit unit) (decodeC b i rows) cycle.toNat = true → b.index.toNat = d.cbStarted → blockFits b d.record.toNat = true →
       s.earlierBlock b p.slot = false →
       y = Config.ldpcDecode (Tab.readBytes tab 0 b.ncb.toNat) b.baseGraph2 b.z.toNat b.k.toNat (d.cbTotal == 1) i →
       exec (.ldpcDecode unit b read cycle) s =
         .next (((q.1.writeRan (s.softAt b d.record.toNat) (Tab.readBytes tab 0 b.ncb.toNat) (ldUnit unit)).updPlan b.cell p.slot
           (fun p => p.updPdu b.pdu.toNat (fun d => { d with
             cbStarted := d.cbStarted + 1, softLost := d.softLost || lost,
             stages := Tab.set [] d.stages 0x05 (demapped.drop b.e.toNat) }))).startUnit
             (ldUnit unit) cycle.toNat (decodeC b i rows) (decodeInterval b i rows)
           { kind := .ldpcDecode, block := b, slot := p.slot, cycles := decodeC b i rows, ends := 0, limit := i, input := [],
             result := y.1, used := min y.2.1 i, good := y.2.2 }))) ∧
  ((∀ (s : State) (u : UnitId) (n c interval : Nat) (o : CodingOp),
     (s.startUnit u n c interval o).unit u = { s.unit u with ops := (s.unit u).ops ++ [{ o with cycles := c, ends := ((n + c : Nat) : Int) }],
                                                             freeAt := n + interval } ∧
     (∀ v, v ≠ u → (s.startUnit u n c interval o).unit v = s.unit v)) ∧
   (∀ (s : State) (u : UnitId) (o : CodingOp) (rest : List CodingOp), (s.unit u).ops = o :: rest → (s.unit u).stopped = false →
     s.noWork = false →
     (o.kind = .prach → ∀ p d, (s.cell o.block.cell).plans.find? (fun p => p.slot == o.slot) = some p → p.pdus[o.block.pdu.toNat]? = some d →
       (d.cbDone + 1).toNat ≠ clUlStreams (s.cellOf o.block.cell)) →
     ∃ t, exec (.codingOpComplete u) s = .next t ∧ t = { s with radio := t.radio, chr := { s.chr with islands := t.chr.islands } } ∧
       t.unit u = { s.unit u with ops := rest } ∧
       (t.cell o.block.cell).plans = (s.cell o.block.cell).plans.map (fun p => if p.slot = o.slot then
         { p.updPdu o.block.pdu.toNat (fun d => d.opDone o) with statuses := if o.late = true then p.statuses ++ [stOverrun] else p.statuses }
         else p)) ∧
   (∀ (s : State) (u : UnitId) (o : CodingOp) (rest : List CodingOp) (p : SlotPlan) (d : Pdu), (s.unit u).ops = o :: rest →
     (s.unit u).stopped = false → s.noWork = false → o.kind = .prach → s.host.phase = .up →
     (s.cell o.block.cell).plans.find? (fun p => p.slot == o.slot) = some p → p.pdus[o.block.pdu.toNat]? = some d →
     (d.cbDone + 1).toNat = clUlStreams (s.cellOf o.block.cell) →
     ∃ t w, exec (.codingOpComplete u) s = .next t ∧ t.host.writes = s.host.writes ++ [w] ∧ w.address = pdAux d.record.toNat ∧
       w.bytes = s.prachOccasion o.block.cell (d.opDone o)))

/-! ### Signal cores -/

/-- A scalar or address row at its issue: the destination takes the row's result of the sources as they stand when it issues, readable
after the row's latency; nothing else of the core, of another core or of the machine changes. The model's own readings it rests on:
assumptions 69, 74. -/
def Obligations.SignalScalarRows : Prop :=
  (∀ row ∈ ([(Instr.scAdd, 0, 1, fun a b => a + b), (Instr.scSub, 2, 1, fun a b => a - b), (Instr.scAnd, 3, 1, fun a b => a &&& b),
      (Instr.scOr, 4, 1, fun a b => a ||| b), (Instr.scXor, 5, 1, fun a b => a ^^^ b),
      (Instr.shl, 6, 1, fun a b => if b.toNat < 32 then a <<< b.toNat else 0),
      (Instr.shr, 7, 1, fun a b => if b.toNat < 32 then a >>> b.toNat else 0),
      (Instr.sar, 8, 1, fun a b => a.sshiftRight (min b.toNat 32)), (Instr.scMul, 9, 2, fun a b => a * b)] :
      List ((Fin 48 → BitVec 32 → Instr) × Nat × Nat × (BitVec 32 → BitVec 32 → BitVec 32))),
    ∀ (s : State) (n : Fin 48) (word : BitVec 32) (rd ra rb t0 : Nat) (c0 : SignalCore),
      rd = bits word.toNat 21 18 → ra = bits word.toNat 17 14 → rb = bits word.toNat 13 10 →
      t0 = (s.core n).issueAt [keyScalar ra, keyScalar rb] → c0 = (s.core n).land t0 →
      s.issuesWord n word 4 row.2.1 [keyScalar ra, keyScalar rb] 1 →
      ∃ t, exec (row.1 n word) s = .next t ∧ t = { s with cores := t.cores } ∧ (∀ m, m ≠ n → t.core m = s.core m) ∧
        SignalCore.goesOn { c0 with s := Tab.set 0 c0.s rd (row.2.2.2 (Tab.get 0 c0.s ra) (Tab.get 0 c0.s rb)),
                                    ready := Tab.set 0 c0.ready (8 + rd) (t0 + row.2.2.1) }
          (t.core n) (t0 + 1) ((s.core n).pc + 1)) ∧
  (∀ (s : State) (n : Fin 48) (word : BitVec 32) (rd ra t0 : Nat) (c0 : SignalCore),
      rd = bits word.toNat 21 18 → ra = bits word.toNat 17 14 →
      t0 = (s.core n).issueAt [keyScalar ra] → c0 = (s.core n).land t0 → s.issuesWord n word 4 1 [keyScalar ra] 1 →
      ∃ t, exec (.addi n word) s = .next t ∧ t = { s with cores := t.cores } ∧ (∀ m, m ≠ n → t.core m = s.core m) ∧
        SignalCore.goesOn { c0 with s := Tab.set 0 c0.s rd (Tab.get 0 c0.s ra + BitVec.ofInt 32 (toSigned 10 (bits word.toNat 9 0))),
                                    ready := Tab.set 0 c0.ready (8 + rd) (t0 + 1) }
          (t.core n) (t0 + 1) ((s.core n).pc + 1)) ∧
  (∀ (s : State) (n : Fin 48) (word : BitVec 32) (t0 : Nat) (c0 : SignalCore),
      t0 = (s.core n).issueAt [] → c0 = (s.core n).land t0 → s.issuesWord n word 4 11 [] 1 →
      ∃ t, exec (.movi n word) s = .next t ∧ t = { s with cores := t.cores } ∧ (∀ m, m ≠ n → t.core m = s.core m) ∧
        SignalCore.goesOn { c0 with s := Tab.set 0 c0.s (bits word.toNat 21 18) (BitVec.ofInt 32 (toSigned 18 (bits word.toNat 17 0))),
                                    ready := Tab.set 0 c0.ready (8 + bits word.toNat 21 18) (t0 + 1) }
          (t.core n) (t0 + 1) ((s.core n).pc + 1)) ∧
  (∀ (s : State) (n : Fin 48) (word : BitVec 32) (ra rb t0 : Nat) (c0 : SignalCore),
      ra = bits word.toNat 17 14 → rb = bits word.toNat 13 10 →
      t0 = (s.core n).issueAt [keyScalar ra, keyScalar rb] → c0 = (s.core n).land t0 →
      s.issuesWord n word 4 10 [keyScalar ra, keyScalar rb] 1 →
      ∃ t, exec (.cmp n word) s = .next t ∧ t = { s with cores := t.cores } ∧ (∀ m, m ≠ n → t.core m = s.core m) ∧
        SignalCore.goesOn { c0 with eq := decide (Tab.get 0 c0.s ra = Tab.get 0 c0.s rb),
                                    lt := decide ((Tab.get 0 c0.s ra).toInt < (Tab.get 0 c0.s rb).toInt) }
          (t.core n) (t0 + 1) ((s.core n).pc + 1)) ∧
  (∀ row ∈ ([(Instr.setp, 0, [], fun w c => { c with p := Tab.set 0 c.p (bits w 21 18) (BitVec.ofNat 16 (bits w 15 0)) }),
      (Instr.addp, 1, [], fun w c =>
        { c with p := Tab.set 0 c.p (bits w 21 18) (Tab.get 0 c.p (bits w 21 18) + BitVec.ofNat 16 (bits w 15 0)) }),
      (Instr.setm, 2, [], fun w c => { c with m := Tab.set 0 c.m (bits w 21 18) (BitVec.ofNat 16 (bits w 15 0)) })] :
      List ((Fin 48 → BitVec 32 → Instr) × Nat × List Nat × (Nat → SignalCore → SignalCore))),
    ∀ (s : State) (n : Fin 48) (word : BitVec 32) (t0 : Nat), t0 = (s.core n).issueAt [] → s.issuesWord n word 3 row.2.1 [] 1 →
      ∃ t, exec (row.1 n word) s = .next t ∧ t = { s with cores := t.cores } ∧ (∀ m, m ≠ n → t.core m = s.core m) ∧
        SignalCore.goesOn (row.2.2.2 word.toNat ((s.core n).land t0)) (t.core n) (t0 + 1) ((s.core n).pc + 1)) ∧
  (∀ (s : State) (n : Fin 48) (word : BitVec 32) (t0 : Nat) (c0 : SignalCore), t0 = (s.core n).issueAt [keyScalar (bits word.toNat 3 0)] →
      c0 = (s.core n).land t0 → s.issuesWord n word 3 3 [keyScalar (bits word.toNat 3 0)] 1 →
      ∃ t, exec (.movps n word) s = .next t ∧ t = { s with cores := t.cores } ∧ (∀ m, m ≠ n → t.core m = s.core m) ∧
        SignalCore.goesOn { c0 with p := Tab.set 0 c0.p (bits word.toNat 21 18) ((Tab.get 0 c0.s (bits word.toNat 3 0)).setWidth 16) }
          (t.core n) (t0 + 1) ((s.core n).pc + 1)) ∧
  (∀ (s : State) (n : Fin 48) (word : BitVec 32) (t0 : Nat) (c0 : SignalCore), t0 = (s.core n).issueAt [] →
      c0 = (s.core n).land t0 → s.issuesWord n word 7 0 [] 1 →
      ∃ t v, exec (.mfc n word) s = .next t ∧ t = { s with cores := t.cores } ∧ (∀ m, m ≠ n → t.core m = s.core m) ∧
        SignalCore.goesOn { c0 with s := Tab.set 0 c0.s (bits word.toNat 21 18) v,
                                    ready := Tab.set 0 c0.ready (8 + bits word.toNat 21 18) (t0 + 1) }
          (t.core n) (t0 + 1) ((s.core n).pc + 1) ∧
        (bits word.toNat 17 10 = 0x06 → v = c0.depth) ∧ (bits word.toNat 17 10 = 0x08 → v = c0.epc) ∧
        (bits word.toNat 17 10 = 0x09 → v.toNat = c0.cause.toNat) ∧ (bits word.toNat 17 10 = 0x10 → v.toNat = n.val) ∧
        (bits word.toNat 17 10 = 0x0A → v.getLsbD 0 = c0.accTrap ∧ v.getLsbD 1 = c0.inHandler)) ∧
  (∀ (s : State) (n : Fin 48) (word : BitVec 32) (t0 : Nat) (c0 c1 : SignalCore) (v : BitVec 32),
      t0 = (s.core n).issueAt [keyScalar (bits word.toNat 21 18)] → c0 = (s.core n).land t0 → v = Tab.get 0 c0.s (bits word.toNat 21 18) →
      s.issuesWord n word 7 1 [keyScalar (bits word.toNat 21 18)] 1 →
      (bits word.toNat 17 10 = 0x00 → c1 = { c0 with ls := Tab.set 0 c0.ls 0 (v.setWidth 16) }) →
      (bits word.toNat 17 10 = 0x01 → c1 = { c0 with le := Tab.set 0 c0.le 0 (v.setWidth 16) }) →
      (bits word.toNat 17 10 = 0x02 → c1 = { c0 with lc := Tab.set 0 c0.lc 0 (v.setWidth 16) }) →
      (bits word.toNat 17 10 = 0x03 → c1 = { c0 with ls := Tab.set 0 c0.ls 1 (v.setWidth 16) }) →
      (bits word.toNat 17 10 = 0x04 → c1 = { c0 with le := Tab.set 0 c0.le 1 (v.setWidth 16) }) →
      (bits word.toNat 17 10 = 0x05 → c1 = { c0 with lc := Tab.set 0 c0.lc 1 (v.setWidth 16) }) →
      (bits word.toNat 17 10 = 0x06 → c1 = { c0 with depth := v, suspended := min c0.suspended v.toNat }) →
      (bits word.toNat 17 10 = 0x08 → c1 = { c0 with epc := v }) →
      (bits word.toNat 17 10 = 0x0A → c1 = { c0 with accTrap := v.getLsbD 0 }) →
      ∃ t, exec (.mtc n word) s = .next t ∧ t = { s with cores := t.cores } ∧ (∀ m, m ≠ n → t.core m = s.core m) ∧
        SignalCore.goesOn c1 (t.core n) (t0 + 1) ((s.core n).pc + 1))

/-- The vector rows at their issue. CMAC class: every lane of the accumulator takes the row's result of the vectors' lanes, readable after
2 cycles; with AccTrap set an overflow enters the handler. ACCZ, ACCLD and ARSUM write every accumulator lane; ACCRD, the lane rows and
the loads have a vector result that lands after the row's latency; ST writes 32 bytes; pointers advance as the word asks. Nothing else of
the core or the machine changes. The model's own readings it rests on: assumptions 69, 70, 74. -/
def Obligations.SignalVectorRows : Prop :=
  (∀ row ∈ ([(Instr.cmul, 0), (Instr.cmac, 1), (Instr.cmulj, 2), (Instr.cmacj, 3), (Instr.cmsu, 4), (Instr.csq, 5)] :
      List ((Fin 48 → BitVec 32 → Instr) × Nat)),
    ∀ (s : State) (n : Fin 48) (word : BitVec 32) (acc va vb t0 : Nat) (sources : List Nat) (c0 : SignalCore),
      acc = bits word.toNat 21 20 → va = bits word.toNat 19 17 → vb = bits word.toNat 16 14 →
      sources = (if row.2 = 0 ∨ row.2 = 2 then [] else [keyAccumulate acc]) ++ [keyVec va] ++ (if row.2 = 5 then [] else [keyVec vb]) →
      t0 = (s.core n).issueAt sources → c0 = (s.core n).land t0 → (s.core n).accTrap = false →
      s.issuesWord n word 0 row.2 sources 1 →
      ∃ t a ov, exec (row.1 n word) s = .next t ∧ t = { s with cores := t.cores } ∧ (∀ m, m ≠ n → t.core m = s.core m) ∧
        SignalCore.goesOn { c0 with a := a, overflows := c0.overflows + ov,
                                    ready := Tab.set 0 (Tab.set 0 c0.ready acc (t0 + 2)) (4 + acc) (t0 + 1) }
          (t.core n) (t0 + 1) ((s.core n).pc + 1) ∧
        (∀ l, l < 8 → Tab.get {} a (8 * acc + l) = (macLane row.2 (bit word.toNat 27) (Tab.get {} c0.a (8 * acc + l))
          (Tab.get 0 c0.v (8 * va + l)) (Tab.get 0 c0.v (8 * vb + l))).1) ∧
        (∀ k, (k < 8 * acc ∨ 8 * acc + 8 ≤ k) → Tab.get {} a k = Tab.get {} c0.a k)) ∧
  (∀ row ∈ ([(Instr.cmac, 1), (Instr.cmacj, 3), (Instr.cmsu, 4), (Instr.csq, 5)] :
      List ((Fin 48 → BitVec 32 → Instr) × Nat)),
    ∀ (s : State) (n : Fin 48) (word : BitVec 32) (acc va vb t0 : Nat) (sources : List Nat) (c0 : SignalCore),
      acc = bits word.toNat 21 20 → va = bits word.toNat 19 17 → vb = bits word.toNat 16 14 →
      sources = [keyAccumulate acc, keyVec va] ++ (if row.2 = 5 then [] else [keyVec vb]) →
      t0 = (s.core n).issueAt sources → c0 = (s.core n).land t0 → (s.core n).accTrap = true → (s.core n).inHandler = false → c0.depth = 0 →
      s.issuesWord n word 0 row.2 sources 1 →
      (∃ l, l < 8 ∧ (macLane row.2 (bit word.toNat 27) (Tab.get {} c0.a (8 * acc + l))
        (Tab.get 0 c0.v (8 * va + l)) (Tab.get 0 c0.v (8 * vb + l))).2 ≠ 0) →
      ∃ t, exec (row.1 n word) s = .next t ∧ t = { s with cores := t.cores } ∧ (∀ m, m ≠ n → t.core m = s.core m) ∧
        (t.core n).cause = 0x08 ∧ (t.core n).inHandler = true ∧ (t.core n).pc = s.start.handlerEntry ∧
        (t.core n).epc = ((s.core n).pc + 1).setWidth 32 ∧ (t.core n).elapsed = t0 + 4 ∧
        (∀ l, l < 8 → Tab.get {} (t.core n).a (8 * acc + l) = (macLane row.2 (bit word.toNat 27) (Tab.get {} c0.a (8 * acc + l))
          (Tab.get 0 c0.v (8 * va + l)) (Tab.get 0 c0.v (8 * vb + l))).1)) ∧
  (∀ row ∈ ([(Instr.accz, 1, fun _ => [], 1, fun _ _ _ => {}),
      (Instr.accld, 2, fun w => [keyVec (bits w 19 17)], 1, fun w c l =>
        let v := Tab.get 0 c.v (8 * bits w 19 17 + l)
        { i := BitVec.ofInt 40 (laneI v * 2 ^ 15), q := BitVec.ofInt 40 (laneQ v * 2 ^ 15) })] :
      List ((Fin 48 → BitVec 32 → Instr) × Nat × (Nat → List Nat) × Nat × (Nat → SignalCore → Nat → AccLane))),
    ∀ (s : State) (n : Fin 48) (word : BitVec 32) (acc t0 : Nat) (c0 : SignalCore), acc = bits word.toNat 21 20 →
      t0 = (s.core n).issueAt (row.2.2.1 word.toNat) → c0 = (s.core n).land t0 → s.issuesWord n word 1 row.2.1 (row.2.2.1 word.toNat) 1 →
      ∃ t a, exec (row.1 n word) s = .next t ∧ t = { s with cores := t.cores } ∧ (∀ m, m ≠ n → t.core m = s.core m) ∧
        SignalCore.goesOn { c0 with a := a, ready := Tab.set 0 (Tab.set 0 c0.ready acc (t0 + row.2.2.2.1)) (4 + acc) (t0 + row.2.2.2.1) }
          (t.core n) (t0 + 1) ((s.core n).pc + 1) ∧
        (∀ l, l < 8 → Tab.get {} a (8 * acc + l) = row.2.2.2.2 word.toNat c0 l) ∧
        (∀ k, (k < 8 * acc ∨ 8 * acc + 8 ≤ k) → Tab.get {} a k = Tab.get {} c0.a k)) ∧
  (∀ (s : State) (n : Fin 48) (word : BitVec 32) (acc t0 : Nat) (c0 : SignalCore), acc = bits word.toNat 21 20 →
      t0 = (s.core n).issueAt [keyAcc acc] → c0 = (s.core n).land t0 → (s.core n).accTrap = false →
      s.issuesWord n word 1 3 [keyAcc acc] 1 →
      ∃ t a ov, exec (.arsum n word) s = .next t ∧ t = { s with cores := t.cores } ∧ (∀ m, m ≠ n → t.core m = s.core m) ∧
        SignalCore.goesOn { c0 with a := a, overflows := c0.overflows + ov,
                                    ready := Tab.set 0 (Tab.set 0 c0.ready acc (t0 + 2)) (4 + acc) (t0 + 2) }
          (t.core n) (t0 + 1) ((s.core n).pc + 1) ∧
        (∀ l, 1 ≤ l → l < 8 → Tab.get {} a (8 * acc + l) = {}) ∧
        (∀ k, (k < 8 * acc ∨ 8 * acc + 8 ≤ k) → Tab.get {} a k = Tab.get {} c0.a k) ∧
        (∀ x : Int, x = ((List.range 8).map (fun l => (Tab.get {} c0.a (8 * acc + l)).i.toInt)).sum → -(2 ^ 39) ≤ x → x < 2 ^ 39 →
          (Tab.get {} a (8 * acc)).i = BitVec.ofInt 40 x)) ∧
  (∀ (s : State) (n : Fin 48) (word : BitVec 32) (acc t0 : Nat) (c0 : SignalCore), acc = bits word.toNat 21 20 →
      t0 = (s.core n).issueAt [keyAcc acc] → c0 = (s.core n).land t0 → s.issuesWord n word 1 0 [keyAcc acc] 1 →
      ∃ t, exec (.accrd n word) s = .next t ∧ t = { s with cores := t.cores } ∧ (∀ m, m ≠ n → t.core m = s.core m) ∧
        SignalCore.goesOn { c0 with
          landing := c0.landing ++ [(t0 + 2, bits word.toNat 19 17, (List.range 8).map (fun l =>
            mkLane (reduce16 (bit word.toNat 27) (Tab.get {} c0.a (8 * acc + l)).i.toInt (bits word.toNat 16 11))
              (reduce16 (bit word.toNat 27) (Tab.get {} c0.a (8 * acc + l)).q.toInt (bits word.toNat 16 11))))],
          ready := Tab.set 0 c0.ready (24 + bits word.toNat 19 17) (t0 + 2) } (t.core n) (t0 + 1) ((s.core n).pc + 1)) ∧
  (∀ row ∈ ([(Instr.conj, 0, fun w => [keyVec (bits w 18 16)], fun w v _ l =>
        mkLane ((v l).toNat % 65536) (reduce16 (bit w 27) (-laneQ (v l)) 0)),
      (Instr.scNeg, 1, fun w => [keyVec (bits w 18 16)], fun w v _ l =>
        mkLane (reduce16 (bit w 27) (-laneI (v l)) 0) (reduce16 (bit w 27) (-laneQ (v l)) 0)),
      (Instr.shift, 2, fun w => [keyVec (bits w 18 16)], fun w v _ l =>
        mkLane (reduce16 (bit w 27) (laneI (v l)) (bits w 9 5)) (reduce16 (bit w 27) (laneQ (v l)) (bits w 9 5))),
      (Instr.scBcast, 3, fun w => [keyVec (bits w 18 16)], fun w v _ _ => v (bits w 12 10)),
      (Instr.rot, 4, fun w => [keyVec (bits w 18 16)], fun w v _ l => v ((l + 8 - bits w 12 10) % 8)),
      (Instr.scRsum, 5, fun w => [keyVec (bits w 18 16)], fun w v _ l => if l = 0 then
        mkLane (reduce16 (bit w 27) ((List.range 8).map (fun k => laneI (v k))).sum 0)
          (reduce16 (bit w 27) ((List.range 8).map (fun k => laneQ (v k))).sum 0) else 0),
      (Instr.zero, 6, fun _ => [], fun _ _ _ _ => 0),
      (Instr.addv, 7, fun w => [keyVec (bits w 18 16), keyVec (bits w 15 13)], fun w v u l =>
        mkLane (reduce16 (bit w 27) (laneI (v l) + laneI (u l)) 0) (reduce16 (bit w 27) (laneQ (v l) + laneQ (u l)) 0))] :
      List ((Fin 48 → BitVec 32 → Instr) × Nat × (Nat → List Nat) ×
        (Nat → (Nat → BitVec 32) → (Nat → BitVec 32) → Nat → BitVec 32))),
    ∀ (s : State) (n : Fin 48) (word : BitVec 32) (t0 : Nat) (c0 : SignalCore),
      t0 = (s.core n).issueAt (row.2.2.1 word.toNat) → c0 = (s.core n).land t0 → s.issuesWord n word 5 row.2.1 (row.2.2.1 word.toNat) 1 →
      ∃ t, exec (row.1 n word) s = .next t ∧ t = { s with cores := t.cores } ∧ (∀ m, m ≠ n → t.core m = s.core m) ∧
        SignalCore.goesOn { c0 with
          landing := c0.landing ++ [(t0 + 2, bits word.toNat 21 19, (List.range 8).map (row.2.2.2 word.toNat
            (fun l => Tab.get 0 c0.v (8 * bits word.toNat 18 16 + l)) (fun l => Tab.get 0 c0.v (8 * bits word.toNat 15 13 + l))))],
          ready := Tab.set 0 c0.ready (24 + bits word.toNat 21 19) (t0 + 2) } (t.core n) (t0 + 1) ((s.core n).pc + 1)) ∧
  (∀ (s : State) (n : Fin 48) (word : BitVec 32) (t0 p : Nat) (c0 : SignalCore), t0 = (s.core n).issueAt [] → c0 = (s.core n).land t0 →
      p = bits word.toNat 15 12 → s.issuesWord n word 2 0 [] 1 →
      ∃ t, exec (.ld n word) s = .next t ∧ t = { s with cores := t.cores } ∧ (∀ m, m ≠ n → t.core m = s.core m) ∧
        SignalCore.goesOn { c0 with
          landing := c0.landing ++ [(t0 + 3, bits word.toNat 21 19, c0.fetchVec p)],
          ready := Tab.set 0 c0.ready (24 + bits word.toNat 21 19) (t0 + 3),
          p := if bit word.toNat 8 = true then Tab.set 0 c0.p p (Tab.get 0 c0.p p + Tab.get 0 c0.m (bits word.toNat 6 4)) else c0.p }
          (t.core n) (t0 + 1) ((s.core n).pc + 1)) ∧
  (∀ (s : State) (n : Fin 48) (word : BitVec 32) (t0 p : Nat) (c0 : SignalCore),
      t0 = (s.core n).issueAt [keyVec (bits word.toNat 21 19)] → c0 = (s.core n).land t0 → p = bits word.toNat 15 12 →
      s.issuesWord n word 2 1 [keyVec (bits word.toNat 21 19)] 1 →
      ∃ t x y, exec (.st n word) s = .next t ∧ t = { s with cores := t.cores } ∧ (∀ m, m ≠ n → t.core m = s.core m) ∧
        SignalCore.goesOn { c0 with
          x := x, y := y,
          p := if bit word.toNat 8 = true then Tab.set 0 c0.p p (Tab.get 0 c0.p p + Tab.get 0 c0.m (bits word.toNat 6 4)) else c0.p }
          (t.core n) (t0 + 1) ((s.core n).pc + 1) ∧
        (p < 8 → y = c0.y) ∧ (8 ≤ p → x = c0.x) ∧
        (∀ a, (∀ k, k < 32 → a ≠ c0.halfBase + ((Tab.get 0 c0.p p).toNat + k) % 65536) →
          Tab.get 0 x a = Tab.get 0 c0.x a ∧ Tab.get 0 y a = Tab.get 0 c0.y a) ∧
        (∀ l k, l < 8 → k < 4 → Tab.get 0 (if p < 8 then x else y) (c0.halfBase + ((Tab.get 0 c0.p p).toNat + 4 * l + k) % 65536) =
          BitVec.ofNat 8 ((Tab.get 0 c0.v (8 * bits word.toNat 21 19 + l)).toNat / 256 ^ k))) ∧
  (∀ (s : State) (n : Fin 48) (word : BitVec 32) (t0 p q : Nat) (c0 : SignalCore), t0 = (s.core n).issueAt [] → c0 = (s.core n).land t0 →
      p = bits word.toNat 15 12 → q = 8 + bits word.toNat 11 9 → p < 8 → s.issuesWord n word 2 2 [] 1 →
      ∃ t p', exec (.ld2 n word) s = .next t ∧ t = { s with cores := t.cores } ∧ (∀ m, m ≠ n → t.core m = s.core m) ∧
        SignalCore.goesOn { c0 with
          landing := c0.landing ++ [(t0 + 3, bits word.toNat 21 19, c0.fetchVec p), (t0 + 3, bits word.toNat 18 16, c0.fetchVec q)],
          ready := Tab.set 0 (Tab.set 0 c0.ready (24 + bits word.toNat 21 19) (t0 + 3)) (24 + bits word.toNat 18 16) (t0 + 3),
          p := p' } (t.core n) (t0 + 1) ((s.core n).pc + 1) ∧
        Tab.get 0 p' p = (if bit word.toNat 8 = true then Tab.get 0 c0.p p + Tab.get 0 c0.m (bits word.toNat 6 4) else Tab.get 0 c0.p p) ∧
        Tab.get 0 p' q = (if bit word.toNat 7 = true then Tab.get 0 c0.p q + Tab.get 0 c0.m (bits word.toNat 6 4) else Tab.get 0 c0.p q) ∧
        ∀ r, r ≠ p → r ≠ q → Tab.get 0 p' r = Tab.get 0 c0.p r) ∧
  (∀ (s : State) (n : Fin 48) (word : BitVec 32) (acc t0 px py : Nat) (sources : List Nat) (c0 : SignalCore),
      acc = bits word.toNat 21 20 → px = bits word.toNat 11 9 → py = 8 + bits word.toNat 8 6 →
      sources = (if bits word.toNat 19 18 = 0 then [] else [keyAccumulate acc]) →
      t0 = (s.core n).issueAt sources → c0 = (s.core n).land t0 → (s.core n).accTrap = false → s.issuesWord n word 8 0 sources 1 →
      ∃ t a ov p', exec (.macld n word) s = .next t ∧ t = { s with cores := t.cores } ∧ (∀ m, m ≠ n → t.core m = s.core m) ∧
        SignalCore.goesOn { c0 with
          a := a, overflows := c0.overflows + ov, p := p', ready := (t.core n).ready,
          landing := c0.landing ++ [(t0 + 3, 4 + bits word.toNat 5 4, c0.fetchVec px), (t0 + 3, 4 + bits word.toNat 3 2, c0.fetchVec py)] }
          (t.core n) (t0 + 1) ((s.core n).pc + 1) ∧
        (∀ l, l < 8 → Tab.get {} a (8 * acc + l) = (macLane (macOpOf (bits word.toNat 19 18)) (bit word.toNat 27)
          (Tab.get {} c0.a (8 * acc + l)) (Tab.get 0 c0.v (8 * bits word.toNat 17 15 + l)) (Tab.get 0 c0.v (8 * bits word.toNat 14 12 + l))).1) ∧
        (∀ k, (k < 8 * acc ∨ 8 * acc + 8 ≤ k) → Tab.get {} a k = Tab.get {} c0.a k) ∧
        Tab.get 0 p' px = (if bit word.toNat 1 = true then Tab.get 0 c0.p px + 32 else Tab.get 0 c0.p px) ∧
        Tab.get 0 p' py = (if bit word.toNat 0 = true then Tab.get 0 c0.p py + 32 else Tab.get 0 c0.p py) ∧
        ∀ r, r ≠ px → r ≠ py → Tab.get 0 p' r = Tab.get 0 c0.p r)

/-- The control rows at their issue. A branch whose condition holds goes to its target after 3 cycles, one whose condition does not hold
goes on; CALL keeps the return address and jumps, and under a CALL outstanding ends the job by an exception; RET returns to it; LOOP of a
count above 0 opens the first level, of 0 skips its body; REP sets the repeat of the next instruction, or skips it; END commits the job;
ERET returns to EPC; BREAK enters the handler; NOP changes nothing but the core's clock and pc. The model's own readings it rests on:
assumptions 69, 71, 72. -/
def Obligations.SignalControlRows : Prop :=
  (∀ (s : State) (n : Fin 48) (word : BitVec 32) (t0 target : Nat) (c0 : SignalCore), t0 = (s.core n).issueAt [] →
      c0 = (s.core n).land t0 → target = bits word.toNat 13 0 → s.issuesWord n word 6 0 [] 3 →
      (c0.condition (bits word.toNat 21 18) = true → ∃ t, exec (.branch n word) s = .next t ∧
        t = s.setCore n { c0 with pc := BitVec.ofNat 14 target, elapsed := t0 + 3, depth := (t.core n).depth } ∧
        (c0.depth = 0 → (t.core n).depth = 0)) ∧
      (c0.condition (bits word.toNat 21 18) = false → ∃ t, exec (.branch n word) s = .next t ∧ t = { s with cores := t.cores } ∧
        SignalCore.goesOn c0 (t.core n) (t0 + 1) ((s.core n).pc + 1))) ∧
  (∀ (s : State) (n : Fin 48) (word : BitVec 32) (t0 : Nat) (c0 : SignalCore), t0 = (s.core n).issueAt [] → c0 = (s.core n).land t0 →
      s.issuesWord n word 6 1 [] 3 → (s.core n).link = none →
      exec (.call n word) s = .next (s.setCore n { c0 with link := some ((s.core n).pc + 1), pc := BitVec.ofNat 14 (bits word.toNat 13 0),
                                                           elapsed := t0 + 3 })) ∧
  (∀ (s : State) (n : Fin 48) (word : BitVec 32) (t0 : Nat) (c0 : SignalCore) (to' : BitVec 14), t0 = (s.core n).issueAt [] →
      c0 = (s.core n).land t0 → s.issuesWord n word 6 2 [] 3 → (s.core n).link = some to' →
      ∃ t, exec (.ret n word) s = .next t ∧ t = { s with cores := t.cores, freeCount := t.freeCount } ∧
        t.core n = { c0 with link := none, pc := to', elapsed := t0 + 3 } ∧ ∀ m, m ≠ n → t.core m = s.core m) ∧
  (∀ (s : State) (n : Fin 48) (word : BitVec 32) (sources : List Nat) (t0 len count : Nat) (c0 : SignalCore),
      sources = (if bit word.toNat 21 = true then [keyScalar (bits word.toNat 20 17)] else []) →
      t0 = (s.core n).issueAt sources → c0 = (s.core n).land t0 → len = bits word.toNat 16 12 + 1 →
      count = (if bit word.toNat 21 = true then (Tab.get 0 c0.s (bits word.toNat 20 17)).toNat else bits word.toNat 11 0) →
      s.issuesWord n word 6 3 sources 2 → c0.depth = 0 →
      (0 < count → count ≤ 65535 → exec (.loop n word) s = .next (s.setCore n { c0 with
          ls := Tab.set 0 c0.ls 0 (BitVec.ofNat 16 ((s.core n).pc.toNat + 1)), le := Tab.set 0 c0.le 0 (BitVec.ofNat 16 ((s.core n).pc.toNat + len)),
          lc := Tab.set 0 c0.lc 0 (BitVec.ofNat 16 count), depth := 1, suspended := min c0.suspended 0,
          pc := (s.core n).pc + 1, elapsed := t0 + 2 })) ∧
      (count = 0 → exec (.loop n word) s = .next (s.setCore n { c0 with
          pc := BitVec.ofNat 14 ((s.core n).pc.toNat + len + 1), elapsed := t0 + 2 }))) ∧
  (∀ (s : State) (n : Fin 48) (word : BitVec 32) (sources : List Nat) (t0 count : Nat) (c0 : SignalCore),
      sources = (if bit word.toNat 21 = true then [keyScalar (bits word.toNat 20 17)] else []) →
      t0 = (s.core n).issueAt sources → c0 = (s.core n).land t0 →
      count = (if bit word.toNat 21 = true then (Tab.get 0 c0.s (bits word.toNat 20 17)).toNat else bits word.toNat 12 0) →
      s.issuesWord n word 6 4 sources (1 + count) →
      (0 < count → count ≤ 4096 → c0.depth = 0 → exec (.rep n word) s =
        .next (s.setCore n { c0 with rep := some count, pc := (s.core n).pc + 1, elapsed := t0 + 1 })) ∧
      (count = 0 → c0.depth = 0 → exec (.rep n word) s =
        .next (s.setCore n { c0 with pc := BitVec.ofNat 14 ((s.core n).pc.toNat + 1 + 1), elapsed := t0 + 1 }))) ∧
  (∀ (s : State) (n : Fin 48) (word : BitVec 32) (t0 : Nat) (c0 : SignalCore) (j : Job), t0 = (s.core n).issueAt [] →
      c0 = (s.core n).land t0 → s.issuesWord n word 6 5 [] 1 → (s.core n).job = some j → j.late = false → j.rerun = false →
      ∃ t, exec (.scEnd n word) s = .next t ∧ t = { s with cores := t.cores, chr := { s.chr with islands := t.chr.islands } } ∧
        (t.core n).job = none ∧ (t.core n).done = (s.core n).done ++ [j] ∧ (t.core n).committed = (s.core n).committed + 1 ∧
        (t.core n).x = c0.x ∧ (t.core n).y = c0.y ∧ (t.core n).s = c0.s ∧ (t.core n).a = c0.a ∧
        (t.island (coreUnit n)) = { s.island (coreUnit n) with waitsForLate := false } ∧
        (∀ m, m ≠ n → t.core m = s.core m)) ∧
  (∀ (s : State) (n : Fin 48) (word : BitVec 32) (t0 : Nat) (c0 : SignalCore), t0 = (s.core n).issueAt [] → c0 = (s.core n).land t0 →
      s.issuesWord n word 6 6 [] 3 →
      exec (.eret n word) s = .next (s.setCore n { c0 with inHandler := false, suspended := 0, pc := c0.epc.setWidth 14, elapsed := t0 + 3 })) ∧
  (∀ (s : State) (n : Fin 48) (word : BitVec 32) (t0 : Nat) (c0 : SignalCore), t0 = (s.core n).issueAt [] → c0 = (s.core n).land t0 →
      s.issuesWord n word 6 7 [] 1 → (s.core n).inHandler = false → c0.depth = 0 →
      exec (.scBreak n word) s = .next (s.setCore n { c0 with
        epc := ((s.core n).pc + 1).setWidth 32, cause := 0x09, inHandler := true,
        suspended := 0, pc := s.start.handlerEntry, elapsed := t0 + 4, lastCause := 0x09, lastEpc := ((s.core n).pc + 1).setWidth 16 })) ∧
  (∀ (s : State) (n : Fin 48) (word : BitVec 32) (t0 : Nat), t0 = (s.core n).issueAt [] → s.issuesWord n word 6 8 [] 1 →
      ∃ t, exec (.scNop n word) s = .next t ∧ t = { s with cores := t.cores } ∧ (∀ m, m ≠ n → t.core m = s.core m) ∧
        SignalCore.goesOn ((s.core n).land t0) (t.core n) (t0 + 1) ((s.core n).pc + 1)) ∧
  (∀ (s : State) (n : Fin 48) (word : BitVec 32) (j : Job), s.issuesWord n word 6 1 [] 3 → (s.core n).link ≠ none →
      (s.core n).job = some j →
      ∃ t, exec (.call n word) s = .next t ∧ (t.core n).job = none ∧ (t.core n).failed = (s.core n).failed + 1 ∧
        (t.core n).lastCause = 0x02 ∧ (t.core n).lastEpc = (s.core n).pc.setWidth 16)

/-- A job's way through a core: its inputs are placed in a free half; it starts on zeroed registers when a window of its owner is open and
its budget fits; its output leaves the core, frees its half and gives the PDU its stage's result; a detect abandons it, and it starts
again on another core; a program reload ends. The model's own readings it rests on: assumptions 69, 75, 76. -/
def Obligations.SignalJobs : Prop :=
  (∀ (s : State) (n : Fin 48) (q : JobRequest) (xs ys : List Byte) (bad : Bool) (r : Nat) (half : BitVec 2), s.kernel q.kernel = some r →
    half = (if (s.core n).nextHigh = true then 2 else 1) →
    s.noWork = false → (s.core n).stopped = false → (s.core n).health = .inService → (s.core n).loaded = none →
    (s.core n).busyHalf &&& half = 0 → q.units.toNat ≤ kernelMaxUnits r →
    ∃ t j, exec (.jobInputDma n q xs ys bad) s = .next t ∧ t = { s with cores := t.cores } ∧ (∀ m, m ≠ n → t.core m = s.core m) ∧
      t.core n = { s.core n with x := (t.core n).x, y := (t.core n).y, loaded := some j, nextHigh := !(s.core n).nextHigh,
                                 busyHalf := (s.core n).busyHalf ||| half } ∧
      j.request = q ∧ j.budget = kernelBase r + ceilDiv (kernelPerUnit r * q.units.toNat) 16 ∧ j.poisoned = bad ∧
      j.high = (s.core n).nextHigh) ∧
  (∀ (s : State) (n : Fin 48) (cycle : BitVec 40) (j : Job) (l : ListEntry) (r : Nat), (s.core n).loaded = some j → j.poisoned = false →
    s.coreWindow n j.request.owner = some l → s.kernel j.request.kernel = some r → s.mayStart = true → (s.core n).stopped = false →
    (s.core n).job = none → (s.core n).health = .inService → (s.island (coreUnit n)).waitsForLate = false →
    l.fits j.budget cycle.toNat = true →
    ∃ t, exec (.jobStart n cycle) s = .next t ∧ t = { s with cores := t.cores } ∧ (∀ m, m ≠ n → t.core m = s.core m) ∧
      (t.core n).loaded = none ∧ (t.core n).job = some { j with ends := ((cycle.toNat + j.budget : Nat) : Int) } ∧
      (t.core n).pc = BitVec.ofNat 14 (kernelEntry r) ∧ (t.core n).elapsed = 0 ∧ (t.core n).v = [] ∧ (t.core n).a = [] ∧
      (t.core n).p = [] ∧ (t.core n).m = [] ∧ (t.core n).depth = 0 ∧ (t.core n).epc = 0 ∧ (t.core n).inHandler = false ∧
      (t.core n).scalar 0 = j.request.units.setWidth 32 ∧ (t.core n).scalar 2 = j.request.slotLow ∧
      (t.core n).scalar 8 = 0 ∧ (t.core n).x = (s.core n).x ∧ (t.core n).y = (s.core n).y) ∧
  (∀ (s : State) (n : Fin 48) (j : Job) (rest : List Job) (r : Nat) (c1 : SignalCore), (s.core n).done = j :: rest →
    s.kernel j.request.kernel = some r →
    c1 = { s.core n with done := rest, busyHalf := (s.core n).busyHalf &&& (if j.high = true then 1 else 2) } →
    (j.request.kernel = 0x08 ∨ j.request.kernel = 0x09 ∨ j.request.kernel = 0x0A ∨ (j.request.kernel = 0x0C ∧ s.host.phase = .up) →
      ∃ t free, exec (.jobOutputWrite n) s = .next t ∧
        t = { s with cores := t.cores, radio := t.radio, freeCount := s.freeCount + 1, host := t.host } ∧
        t.core n = c1 ∧ (∀ m, m ≠ n → t.core m = s.core m) ∧
        (∀ p d, (s.cell j.request.cell).plans.find? (fun p => p.slot % 2 ^ 32 == j.request.slotLow.toNat) = some p →
          p.pdus[j.request.pdu.toNat]? = some d →
          (∃ q ∈ (t.cell j.request.cell).plans, q.slot = p.slot ∧ q.pdus[j.request.pdu.toNat]? = some (d.stageDone j free)) ∧
          (j.request.kernel = 0x0C → t.host = { s.host with writes := s.host.writes ++
            [{ source := .provider, address := pdAux d.record.toNat, bytes := (s.core n).output j r, purpose := .radio }] }) ∧
          (j.request.kernel ≠ 0x0C → t.host = s.host))) ∧
    (j.request.kernel = 0x0B →
      ∃ t free, exec (.jobOutputWrite n) s = .next t ∧ t = { s with cores := t.cores, radio := t.radio, freeCount := s.freeCount + 1 } ∧
        t.core n = c1 ∧ (∀ m, m ≠ n → t.core m = s.core m) ∧
        (∀ p d, (s.cell j.request.cell).plans.find? (fun p => p.slot % 2 ^ 32 == j.request.slotLow.toNat) = some p →
          p.pdus[j.request.pdu.toNat]? = some d → d.cbTotal = 0 → d.decided = false →
          ∃ q ∈ (t.cell j.request.cell).plans, q.slot = p.slot ∧ q.pdus[j.request.pdu.toNat]? =
            some { d.stageDone j free with tb := .crcPass, bits := Tab.set [] (d.stageDone j free).bits 0 ((s.core n).output j r) })) ∧
    (j.request.kernel ≠ 0x08 → j.request.kernel ≠ 0x09 → j.request.kernel ≠ 0x0A → j.request.kernel ≠ 0x0B → j.request.kernel ≠ 0x0C →
      ∃ u place, u = { s with cores := u.cores, radio := u.radio, freeCount := s.freeCount + 2 } ∧ u.core n = c1 ∧
        (∀ m, m ≠ n → u.core m = s.core m) ∧
        exec (.jobOutputWrite n) s = .next (if s.ranHalf = 0 then u else u.writeRan (s.ranPlace place) ((s.core n).output j r) (coreUnit n)))) ∧
  (∀ (s : State) (n n' : Fin 48) (inProgram : Bool) (cycle : BitVec 40) (j : Job), n ≠ n' → s.noWork = false →
    (s.core n').stopped = false → (s.core n').job = some j → j.rerun = false → (s.island (coreUnit n)).current = none →
    ∃ t, exec (.jobRerun n n' inProgram cycle) s = .next t ∧
      t = { s with cores := t.cores, chr := { s.chr with islands := t.chr.islands } } ∧ t.core n = s.core n ∧
      (t.core n').job = none ∧ (t.core n').abandoned = some j ∧ (t.core n').lastCause = 0x01 ∧
      (inProgram = true → (s.core n').health = .inService → (t.core n').health = .reloading) ∧
      (inProgram = false → (t.core n').health = (s.core n').health)) ∧
  (∀ (s : State) (n n' : Fin 48) (inProgram : Bool) (cycle : BitVec 40) (j : Job) (l : ListEntry) (r : Nat), n ≠ n' → s.noWork = false →
    (s.core n').stopped = false → (s.core n').job = none → (s.core n').abandoned = some j →
    s.openWindow (coreUnit n) = some l → s.mayStart = true → s.kernel j.request.kernel = some r → winOwner l.win = j.request.owner.toNat →
    j.budget ≤ l.maxPass → (s.core n).job = none → (s.core n).health = .inService → (s.core n).stopped = false →
    (s.core n).busyHalf &&& (if (s.core n).nextHigh = true then 2 else 1) = 0 →
    ∃ t k, exec (.jobRerun n n' inProgram cycle) s = .next t ∧ t = { s with cores := t.cores } ∧
      t.core n' = { s.core n' with abandoned := none } ∧ (t.core n).job = some k ∧ k.rerun = true ∧ k.request = j.request ∧
      k.budget = j.budget ∧ k.high = (s.core n).nextHigh ∧ (t.core n).pc = BitVec.ofNat 14 (kernelEntry r) ∧ (t.core n).elapsed = 0 ∧
      ∀ m, m ≠ n → m ≠ n' → t.core m = s.core m) ∧
  (∀ (s : State) (n : Fin 48), (s.core n).health = .reloading →
    exec (.programReloadComplete n) s = .next (s.setCore n { s.core n with health := .inService })) ∧
  (∀ (s : State) (n : Fin 48), (s.core n).health ≠ .reloading → exec (.programReloadComplete n) s = .next s)

/-! ### Ports -/

/-- A fronthaul port that is DOWN comes UP and one that is UP goes DOWN: the transition is counted, its queues 6 and 7 and the frame on
the wire are lost with the link, and with them the recovered clock it gave; other ports keep their states. A port that is not DOWN does
not come UP and one that is not UP does not go DOWN. A frame that arrives on a port that is UP is counted in PortStats; one with a bad
FCS, or one too short, is counted as dropped; an LLDP frame of a fabric port goes to the management queue's next record while its ring has
room. A free transmitter of a radio port starts the first frame of its highest queue that holds one, when nothing gates or shapes that
queue and MACsec is off; with every queue empty its wire is idle. The model's own readings it rests on: assumptions 77, 78, 84. -/
def Obligations.PortLinksAndFrames : Prop :=
  ((∀ (s : State) (p : Fin 84), (s.port p).state = .down → (s.port p).stopped = false → s.start.running = true → p.val < 64 →
     ∃ t, exec (.portUp p) s = .next t ∧ t = { s with ports := t.ports, freeCount := t.freeCount, integ := t.integ, host := t.host } ∧
       t.port p = { s.port p with state := .up, transitions := (s.port p).transitions + 1, localFault := false, remoteFault := false } ∧
       ∀ q, q ≠ p → t.port q = s.port q) ∧
   (∀ (s : State) (p : Fin 84), (s.port p).state ≠ .down → exec (.portUp p) s = .next s) ∧
   (∀ (s : State) (p : Fin 84), (s.port p).state = .up → p.val < 64 →
     ∃ t, exec (.portDown p) s = .next t ∧
       t = { s with ports := t.ports, radio := t.radio, freeCount := t.freeCount, integ := t.integ, host := t.host, links := t.links } ∧
       t.links = { s.links with synceLocked := t.links.synceLocked } ∧ (t.links.synceLocked = true → t.synceLinkUp = true) ∧
       t.port p = { s.port p with state := .down, transitions := (s.port p).transitions + 1, wire := none,
                                  queues := Tab.erase (Tab.erase (s.port p).queues 7) 6, localFault := (t.port p).localFault,
                                  remoteFault := (t.port p).remoteFault } ∧
       ∀ q, q ≠ p → t.port q = s.port q) ∧
   (∀ (s : State) (p : Fin 84), (s.port p).state = .up → 64 ≤ p.val →
     ∃ t, exec (.portDown p) s = .next t ∧
       t = { s with ports := t.ports, fabric := t.fabric, freeCount := t.freeCount, integ := t.integ, host := t.host, links := t.links } ∧
       (t.port p).state = .down ∧ (t.port p).transitions = (s.port p).transitions + 1 ∧ (t.port p).wire = none ∧
       ∀ q, (t.port q).state = (if q = p then .down else (s.port q).state)) ∧
   (∀ (s : State) (p : Fin 84), (s.port p).state ≠ .up → exec (.portDown p) s = .next s)) ∧
  ((∀ (s : State) (p : Fin 84) (f : List Byte) (good : Bool) (raw : BitVec 96), (s.port p).state ≠ .up ∨ s.integ.fenced = true →
     exec (.frameRx p f good raw) s = .next s) ∧
   (∀ (s : State) (p : Fin 84) (f : List Byte) (raw : BitVec 96), (s.port p).state = .up → s.integ.fenced = false →
     ∃ t, exec (.frameRx p f false raw) s = .next t ∧ t = { s with ports := t.ports, ctrs := t.ctrs } ∧
       t.port p = { s.port p with stats := (t.port p).stats } ∧ (∀ q, q ≠ p → t.port q = s.port q) ∧
       Tab.get 0 (t.port p).stats 2 = Tab.get 0 (s.port p).stats 2 + 1 ∧
       Tab.get 0 (t.port p).stats 3 = Tab.get 0 (s.port p).stats 3 + BitVec.ofNat 64 (f.length + 4) ∧
       Tab.get 0 (t.port p).stats 4 = Tab.get 0 (s.port p).stats 4 + 1 ∧
       Tab.get 0 (t.port p).stats 5 = Tab.get 0 (s.port p).stats 5 + 1 ∧ t.ctrs.fixed = s.ctrs.fixed) ∧
   (∀ (s : State) (p : Fin 84) (f : List Byte) (raw : BitVec 96), (s.port p).state = .up → s.integ.fenced = false → f.length + 4 < 64 →
     ∃ t, exec (.frameRx p f true raw) s = .next t ∧ t = { s with ports := t.ports, ctrs := t.ctrs } ∧
       t.port p = { s.port p with stats := (t.port p).stats } ∧ (∀ q, q ≠ p → t.port q = s.port q) ∧
       Tab.get 0 (t.port p).stats 5 = Tab.get 0 (s.port p).stats 5 + 1 ∧
       Tab.get 0 (t.port p).stats 4 = Tab.get 0 (s.port p).stats 4 ∧
       Tab.get 0 t.ctrs.fixed (ctrKey 0xD003 p.val 0) = Tab.get 0 s.ctrs.fixed (ctrKey 0xD003 p.val 0) + 1 ∧
       (∀ k, k ≠ ctrKey 0xD003 p.val 0 → Tab.get 0 t.ctrs.fixed k = Tab.get 0 s.ctrs.fixed k)) ∧
   (∀ (s : State) (p : Fin 84) (f : List Byte) (raw : BitVec 96), 64 ≤ p.val → (s.port p).state = .up → s.integ.fenced = false →
     s.rxRefusal p f = none → s.macsecOn p = false → classify (s.portMac p) f = .lldp → s.obj 0x6040 8 0 = 1 → s.host.phase = .up →
     (s.mgmt.rxWritten - s.mgmt.rxConsumed).toNat < 2 ^ s.obj 0x6040 2 0 →
     ∃ t w rest, exec (.frameRx p f true raw) s = .next t ∧
       t = { s with ports := t.ports, ctrs := t.ctrs, host := t.host, mgmt := { s.mgmt with rxWritten := s.mgmt.rxWritten + 1, overflow := false } } ∧
       t.port p = { s.port p with stats := (t.port p).stats } ∧ Tab.get 0 (t.port p).stats 2 = Tab.get 0 (s.port p).stats 2 + 1 ∧
       Tab.get 0 (t.port p).stats 5 = Tab.get 0 (s.port p).stats 5 ∧
       t.host.writes = s.host.writes ++ w :: rest ∧
       w.address = BitVec.ofNat 64 (s.obj 0x6040 1 0 + 9216 * (s.mgmt.rxWritten.toNat % 2 ^ s.obj 0x6040 2 0)) ∧
       w.bytes.drop 64 = f)) ∧
  ((∀ (s : State) (p : Fin 84) (q : Nat) (f : Frame) (rest : List Frame) (c : CellId) (slot : Nat), p.val < 64 → q < 8 →
     (s.port p).state = .up → Tab.get [] (s.port p).queues q = f :: rest → (∀ r, q < r → r < 8 → Tab.get [] (s.port p).queues r = []) →
     s.mayTransmit p q = true → s.gated p q = false → bit (s.shaper p q) 19 = false → s.macsecOn p = false → f.origin = .cplane c slot →
     ∃ t, exec (.frameSelect p) s = .next t ∧ t = { s with ports := t.ports, ctrs := t.ctrs } ∧
       t.port p = { s.port p with wire := some f, queues := (t.port p).queues, spent := (t.port p).spent, filledAt := s.now16,
                                  stats := (t.port p).stats } ∧
       Tab.get [] (t.port p).queues q = rest ∧
       (∀ r, r ≠ q → Tab.get [] (t.port p).queues r = Tab.get [] (s.port p).queues r) ∧
       Tab.get 0 (t.port p).stats 0 = Tab.get 0 (s.port p).stats 0 + 1 ∧
       Tab.get 0 (t.port p).stats 1 = Tab.get 0 (s.port p).stats 1 + BitVec.ofNat 64 (f.bytes.length + 4) ∧
       (∀ o, o ≠ p → t.port o = s.port o)) ∧
   (∀ (s : State) (p : Fin 84), (∀ r, r < 8 → Tab.get [] (s.port p).queues r = []) →
     ∃ t, exec (.frameSelect p) s = .next t ∧ t = { s with ports := t.ports } ∧
       t.port p = { s.port p with wire := none, spent := (t.port p).spent, filledAt := (t.port p).filledAt } ∧
       ∀ o, o ≠ p → t.port o = s.port o))

/-- The next entry of a gate list opens at its instant, at most two cycles of its island before it; MACSEC_SAK_INSTALL puts a key of a
record in range into its association and refuses any other. The model's own readings it rests on: assumptions 3, 83. -/
def Obligations.GatesAndKeys : Prop :=
  (∀ (s : State) (p : Fin 84) (k : Nat), k = s.liveEntry p ((s.port p).gateEntry + 1) (s.gateCount p) → s.gateCount p ≠ 0 →
    s.chr.suspended = false → s.gateStart p k < s.periodTicks →
    (s.gateStart p k * 1280 ≤ s.time.intoPeriod s.periodFrames * 1000 + twoCyclesPs p →
      exec (.gateEdge p) s = .next (s.setPort p { s.port p with gateEntry := k })) ∧
    (s.time.intoPeriod s.periodFrames * 1000 + twoCyclesPs p < s.gateStart p k * 1280 → exec (.gateEdge p) s = .next s)) ∧
  (∀ (s : State) (p : Fin 84), s.gateCount p = 0 → exec (.gateEdge p) s = .next s) ∧
  (∀ (s : State) (r : BitVec 512) (p : Fin 84), bits r.toNat 511 505 = p.val → bits r.toNat 504 500 ≤ 16 → bits r.toNat 496 480 = 0 →
    bits r.toNat 31 0 = 0 → bits r.toNat 95 32 ≠ 0 →
    ∃ t a, exec (.macsecSakInstall r) s = .next t ∧
      t = s.setPort p { s.port p with sas := Tab.set {} (s.port p).sas (4 * bits r.toNat 504 500 + bits r.toNat 499 498) a } ∧
      a.installed = true ∧ a.exhausted = false ∧ a.key256 = bit r.toNat 497 ∧ a.pn = BitVec.ofNat 64 (bits r.toNat 95 32) ∧
      a.salt = BitVec.ofNat 96 (bits r.toNat 223 128) ∧ a.ssci = BitVec.ofNat 32 (bits r.toNat 127 96) ∧
      a.key.toNat = (if bit r.toNat 497 = true then bits r.toNat 479 224 else bits r.toNat 479 352)) ∧
  (∀ (s : State) (r : BitVec 512), 84 ≤ bits r.toNat 511 505 ∨ 16 < bits r.toNat 504 500 ∨ bits r.toNat 496 480 ≠ 0 ∨
    bits r.toNat 31 0 ≠ 0 ∨ bits r.toNat 95 32 = 0 → exec (.macsecSakInstall r) s = .next s)

/-- The management queue: a descriptor that passes its checks queues its frame on its port; the oldest descriptor that has waited 100 ms
leaves its port's queues and ends REMOTE_TIMEOUT; setting MgmtEnable zeroes the counts of the rings, and a value above 1 is refused. The
model's own readings it rests on: assumptions 3, 81. -/
def Obligations.ManagementQueue : Prop :=
  (∀ (s : State) (d : BitVec 256) (frame : List Byte) (p : Fin 84), s.obj 0x6040 8 0 = 1 → s.linkUp = true → s.integ.fenced = false →
    s.mgmt.txFetched ≠ s.mgmt.txCount → bits d.toNat 177 171 = p.val → s.txRefusal d.toNat (frame.take (bits d.toNat 191 178)) = none →
    ∃ t f o q, exec (.mgmtTxDescriptor d frame) s = .next t ∧
      t = { s with ports := t.ports, mgmt := { s.mgmt with txFetched := s.mgmt.txFetched + 1, nextTx := s.mgmt.nextTx + 1,
                                                           txOpen := s.mgmt.txOpen ++ [o] } } ∧
      o.serial = s.mgmt.nextTx ∧ o.outcome = none ∧ o.tag = BitVec.ofNat 32 (bits d.toNat 166 135) ∧
      q = (if p.val < 64 then bits d.toNat 170 168 else 2) ∧
      t.port p = { s.port p with queues := Tab.set [] (s.port p).queues q (Tab.get [] (s.port p).queues q ++ [f]) } ∧
      f.bytes = frame.take (bits d.toNat 191 178) ∧ f.queuedAt = s.ns ∧ (∀ r, r ≠ p → t.port r = s.port r)) ∧
  (∀ (s : State) (p : Fin 84) (o : TxOpen),
    s.mgmt.txOpen.find? (fun o => ((s.port p).queues.flatMap (fun q => (q.2.filter (fun f => decide (f.queuedAt + 100000000 ≤ s.ns))).filterMap
      Frame.serial)).contains o.serial) = some o →
    ∃ t, exec (.mgmtTxTimeout p) s = .next t ∧ t = { s with ports := t.ports, mgmt := t.mgmt, host := t.host } ∧
      t.port p = { s.port p with queues := (t.port p).queues } ∧ (∀ r, r ≠ p → t.port r = s.port r) ∧
      (∀ q ∈ (t.port p).queues, ∀ f ∈ q.2, f.serial ≠ some o.serial) ∧
      (∀ x ∈ t.mgmt.txOpen, x.serial = o.serial → x.outcome = some (stRemoteTimeout, 0))) ∧
  (∀ (s : State), s.obj 0x6040 8 0 = 0 →
    exec (.mgmtEnableWrite 1) s = .next { s with
      rw := setRec s.rw 0x6040 8 0 1,
      mgmt := { s.mgmt with rxWritten := 0, rxConsumed := 0, overflow := false, txCount := 0, txFetched := 0 } }) ∧
  (∀ (s : State), exec (.mgmtEnableWrite 0) s = .next { s with rw := setRec s.rw 0x6040 8 0 0 }) ∧
  (∀ (s : State) (v : BitVec 8), 1 < v.toNat → exec (.mgmtEnableWrite v) s = .next s)

/-! ### Memory -/

/-- A read of a line of a near segment delivers the segment's bytes with DONE; a LOST segment, a FAILED channel and an unmapped address
deliver all ones with the poison flag and DATA_LOST. No byte of memory changes. A write that covers a segment is written at once, marks it
good or POISONED and is acknowledged with DONE; a partial one is held and changes no byte of memory until its hold expires and its merge
read is decoded: then its bytes are merged over the segment's, and they are refused with DATA_LOST where the segment is LOST. Nothing
outside the segment changes. What a device of a channel holds byte by byte: the data of segment t from 256 times t mod 31 of code page t
div 31, its check bytes from 7,936 plus 8 times t mod 31, and zeros in the page's last eight bytes; a segment that is LOST holds data all
ones, and check bytes that are its marker. The model's own readings it rests on: assumptions 8, 86. -/
def Obligations.SegmentAccesses : Prop :=
  ((∀ (s : State) (c : Fin 48) (t : BitVec 25) (line : BitVec 2) (u : UnitId) (cls : BitVec 2) (address : Nat),
     s.segmentAddress c t.toNat = some address → (s.channel c).state ≠ .failed → (s.channel c).held t.toNat = none →
     Tab.get .good s.mem.marks ((address + 64 * line.toNat) / 256) = .good →
     ∃ s', exec (.segmentRead c t line u cls false) s = .next s' ∧ s' = { s with mem := { s.mem with channels := s'.mem.channels } } ∧
       s'.channel c = { s.channel c with
         buffer := (s'.channel c).buffer,
         lastReply := some { segment := t.toNat, line := line.toNat, data := Tab.readBytes s.mem.near (address + 64 * line.toNat) 64,
                             poison := false, status := stDone } } ∧
       ∀ d, d ≠ c → s'.channel d = s.channel d) ∧
   (∀ (s : State) (c : Fin 48) (t : BitVec 25) (line : BitVec 2) (u : UnitId) (cls : BitVec 2) (address : Nat),
     s.segmentAddress c t.toNat = some address → (s.channel c).state ≠ .failed →
     Tab.get .good s.mem.marks ((address + 64 * line.toNat) / 256) = .lost →
     ∃ s', exec (.segmentRead c t line u cls false) s = .next s' ∧
       s' = { s with mem := { s.mem with channels := s'.mem.channels }, freeCount := s'.freeCount, integ := s'.integ, host := s'.host } ∧
       (s'.channel c).lastReply = some { segment := t.toNat, line := line.toNat, data := List.replicate 64 0xFF, poison := true,
                                         status := stDataLost } ∧
       Tab.get 0 (s'.channel c).errors 3 = Tab.get 0 (s.channel c).errors 3 + 1 ∧ ∀ d, d ≠ c → s'.channel d = s.channel d) ∧
   (∀ (s : State) (c : Fin 48) (t : BitVec 25) (line : BitVec 2) (u : UnitId) (cls : BitVec 2) (corrected : Bool) (address : Nat),
     s.segmentAddress c t.toNat = some address → (s.channel c).state = .failed →
     exec (.segmentRead c t line u cls corrected) s = .next (s.setChannel c { s.channel c with
       lastReply := some { segment := t.toNat, line := line.toNat, data := List.replicate 64 0xFF, poison := true, status := stDataLost } })) ∧
   (∀ (s : State) (c : Fin 48) (t : BitVec 25) (line : BitVec 2) (u : UnitId) (cls : BitVec 2) (corrected : Bool),
     s.segmentAddress c t.toNat = none →
     ∃ s', exec (.segmentRead c t line u cls corrected) s = .next s' ∧
       s' = { s with mem := { s.mem with channels := s'.mem.channels }, freeCount := s'.freeCount, integ := s'.integ, host := s'.host } ∧
       s'.channel c = { s.channel c with
         lastReply := some { segment := t.toNat, line := line.toNat, data := List.replicate 64 0xFF, poison := true, status := stDataLost } } ∧
       ∀ d, d ≠ c → s'.channel d = s.channel d)) ∧
  ((∀ (s : State) (c : Fin 48) (t : BitVec 25) (w : MemWrite) (address : Nat), s.segmentAddress c t.toNat = some address →
     w.inst = none → (s.channel c).state ≠ .failed → (s.channel c).held t.toNat = none → w.offset = 0 → w.data.length = 256 →
     s.mirrorOf address = none →
     ∃ s', exec (.segmentWrite c t w) s = .next s' ∧
       s' = { s with mem := { s.mem with near := s'.mem.near, marks := s'.mem.marks, channels := s'.mem.channels }, host := s'.host } ∧
       Tab.readBytes s'.mem.near address 256 = w.data ∧
       (∀ a, (a < address ∨ address + 256 ≤ a) → Tab.get 0 s'.mem.near a = Tab.get 0 s.mem.near a) ∧
       Tab.get .good s'.mem.marks (address / 256) = (if w.poison = true then .poisoned else .good) ∧
       (s'.channel c).lastAck = some { segment := t.toNat, count := 1, status := stDone } ∧
       (s'.channel c).held t.toNat = none) ∧
   (∀ (s : State) (c : Fin 48) (t : BitVec 25) (w : MemWrite) (address : Nat), s.segmentAddress c t.toNat = some address →
     w.inst = none → (s.channel c).state ≠ .failed → (s.channel c).held t.toNat = none → w.data.length < 256 →
     w.offset.toNat + w.data.length ≤ 256 →
     ∃ s' h, exec (.segmentWrite c t w) s = .next s' ∧ s' = { s with mem := { s.mem with channels := s'.mem.channels }, host := s'.host } ∧
       s'.channel c = { s.channel c with queue := (s'.channel c).queue } ∧ (s'.channel c).held t.toNat = some h ∧ h.merging = false ∧
       h.waiting = 1 ∧ h.poison = w.poison ∧
       (∀ i, i < w.data.length → Tab.get none h.bytes (w.offset.toNat + i) = w.data[i]?) ∧
       (∀ i, (i < w.offset.toNat ∨ w.offset.toNat + w.data.length ≤ i) → Tab.get none h.bytes i = none)) ∧
   (∀ (s : State) (c : Fin 48) (t : BitVec 25), exec (.writeHoldExpiry c t) s = .next (s.setChannel c { s.channel c with
     queue := (s.channel c).queue.map (fun h =>
       if h.segment = t.toNat ∧ h.since + 28 ≤ s.time.ticks then { h with merging := true } else h) })) ∧
   (∀ (s : State) (c : Fin 48) (t : BitVec 25) (address : Nat) (h : HeldWrite), s.segmentAddress c t.toNat = some address →
     (s.channel c).held t.toNat = some h → h.merging = true → (s.channel c).state ≠ .failed →
     Tab.get .good s.mem.marks (address / 256) = .good → s.mirrorOf address = none →
     ∃ s', exec (.mergeReadDecode c t) s = .next s' ∧
       s' = { s with mem := { s.mem with near := s'.mem.near, marks := s'.mem.marks, channels := s'.mem.channels } } ∧
       (∀ i, i < 256 → Tab.get 0 s'.mem.near (address + i) = (Tab.get none h.bytes i).getD (Tab.get 0 s.mem.near (address + i))) ∧
       (∀ a, (a < address ∨ address + 256 ≤ a) → Tab.get 0 s'.mem.near a = Tab.get 0 s.mem.near a) ∧
       Tab.get .good s'.mem.marks (address / 256) = (if h.poison = true then .poisoned else .good) ∧
       (s'.channel c).lastAck = some { segment := t.toNat, count := h.waiting, status := stDone } ∧ (s'.channel c).held t.toNat = none) ∧
   (∀ (s : State) (c : Fin 48) (t : BitVec 25) (address : Nat) (h : HeldWrite), s.segmentAddress c t.toNat = some address →
     (s.channel c).held t.toNat = some h → h.merging = true → (s.channel c).state ≠ .failed →
     Tab.get .good s.mem.marks (address / 256) = .lost →
     ∃ s', exec (.mergeReadDecode c t) s = .next s' ∧
       s' = { s with mem := { s.mem with channels := s'.mem.channels }, freeCount := s'.freeCount, integ := s'.integ, host := s'.host } ∧
       (s'.channel c).lastAck = some { segment := t.toNat, count := h.waiting, status := stDataLost } ∧
       (s'.channel c).held t.toNat = none ∧ Tab.get 0 (s'.channel c).errors 7 = Tab.get 0 (s.channel c).errors 7 + 1)) ∧
  ((∀ (t b : Nat), b < 256 → devicePlace (8192 * (t / 31) + 256 * (t % 31) + b) = .data t b) ∧
   (∀ (t j : Nat), j < 8 → devicePlace (8192 * (t / 31) + 7936 + 8 * (t % 31) + j) = .check t j) ∧
   (∀ (s : State) (c : Fin 48) (a : Nat), 8184 ≤ a % 8192 → s.deviceByte c a = some 0) ∧
   (∀ (s : State) (c : Fin 48) (t address : Nat), s.segmentAddress c t = some address →
     (Tab.get .good s.mem.marks (address / 256) = .good →
       (∀ b, b < 256 → s.deviceByte c (8192 * (t / 31) + 256 * (t % 31) + b) = some (Tab.get 0 s.mem.near (address + b))) ∧
       ∀ j, j < 8 → s.deviceByte c (8192 * (t / 31) + 7936 + 8 * (t % 31) + j) = (checkBytes (Tab.readBytes s.mem.near address 256))[j]?) ∧
     (Tab.get .good s.mem.marks (address / 256) = .lost →
       (∀ b, b < 256 → s.deviceByte c (8192 * (t / 31) + 256 * (t % 31) + b) = some 0xFF) ∧
       ∀ j, j < 8 → s.deviceByte c (8192 * (t / 31) + 7936 + 8 * (t % 31) + j) = (markerCheck lostPattern)[j]?)))

/-- Failures of the tiers: an EDC replay counts, and the third failed one makes its channel FAILED with nothing held; a patrol read goes
to the next segment, corrects one bad symbol and marks LOST two or three; a cleared region reads zero outside FAILED channels; a far port
that goes down, and an access it owes, change no byte. The model's own readings it rests on: assumptions 85, 88, 89. -/
def Obligations.MemoryFailures : Prop :=
  (∀ (s : State) (c : Fin 48), (s.channel c).state ≠ .failed →
    (∃ t, exec (.edcReplay c true) s = .next t ∧
      t = { s with mem := { s.mem with channels := t.mem.channels }, freeCount := t.freeCount, integ := t.integ, host := t.host } ∧
      t.channel c = { s.channel c with replays := 0, errors := (t.channel c).errors } ∧
      Tab.get 0 (t.channel c).errors 4 = Tab.get 0 (s.channel c).errors 4 + 1 ∧ ∀ d, d ≠ c → t.channel d = s.channel d) ∧
    ((s.channel c).replays + 1 < 3 → ∃ t, exec (.edcReplay c false) s = .next t ∧
      t = { s with mem := { s.mem with channels := t.mem.channels } } ∧
      t.channel c = { s.channel c with replays := (s.channel c).replays + 1, errors := (t.channel c).errors } ∧
      Tab.get 0 (t.channel c).errors 4 = Tab.get 0 (s.channel c).errors 4 + 1 ∧ ∀ d, d ≠ c → t.channel d = s.channel d) ∧
    (3 ≤ (s.channel c).replays + 1 → ∃ t, exec (.edcReplay c false) s = .next t ∧
      t = { s with mem := { s.mem with channels := t.mem.channels }, freeCount := t.freeCount, integ := t.integ, host := t.host } ∧
      (t.channel c).state = .failed ∧ (t.channel c).queue = [] ∧ (t.channel c).buffer = none)) ∧
  (∀ (s : State) (c : Fin 48) (address : Nat), s.segmentAddress c (s.channel c).patrol = some address → (s.channel c).state = .inService →
    s.obj 0x7031 0 0 ≠ 0 →
    (Tab.get .good s.mem.marks (address / 256) = .good → exec (.patrolRead c) s =
      .next (s.setChannel c { s.channel c with patrol := ((s.channel c).patrol + 1) % (31 * 1048576) })) ∧
    (∀ sy, Tab.get .good s.mem.marks (address / 256) = .errors sy → sy.eraseDups.length ≤ 3 →
      ∃ t, exec (.patrolRead c) s = .next t ∧
        t = { s with mem := { s.mem with channels := t.mem.channels, marks := t.mem.marks }, freeCount := t.freeCount, integ := t.integ,
                     host := t.host } ∧
        (t.channel c).patrol = ((s.channel c).patrol + 1) % (31 * 1048576) ∧
        (sy.eraseDups.length ≤ 1 → Tab.get .good t.mem.marks (address / 256) = .good ∧
          Tab.get 0 (t.channel c).errors 5 = Tab.get 0 (s.channel c).errors 5 + 1) ∧
        (2 ≤ sy.eraseDups.length → Tab.get .good t.mem.marks (address / 256) = .lost ∧
          Tab.get 0 (t.channel c).errors 6 = Tab.get 0 (s.channel c).errors 6 + 1))) ∧
  (∀ (s : State) (i : BitVec 12) (r : Nat), s.regionServed i.toNat = some r → (Tab.get {} s.mem.regions i.toNat).phase = .clearing →
    ∃ t, exec (.regionClearComplete i) s = .next t ∧
      t = { s with mem := { s.mem with near := t.mem.near, marks := t.mem.marks, far := t.mem.far, farPoison := t.mem.farPoison,
                                       regions := t.mem.regions }, freeCount := t.freeCount, integ := t.integ, host := t.host } ∧
      (Tab.get {} t.mem.regions i.toNat).phase = .ready ∧
      (∀ a, regBase r ≤ a → a < regBase r + regBytes r → Tab.get 0 t.mem.far a = 0 ∧ (s.onFailed a = false → Tab.get 0 t.mem.near a = 0)) ∧
      (∀ a, (a < regBase r ∨ regBase r + regBytes r ≤ a) →
        Tab.get 0 t.mem.far a = Tab.get 0 s.mem.far a ∧ Tab.get 0 t.mem.near a = Tab.get 0 s.mem.near a)) ∧
  (∀ (s : State) (i : BitVec 12), (Tab.get {} s.mem.regions i.toNat).phase ≠ .clearing → exec (.regionClearComplete i) s = .next s) ∧
  (∀ (s : State) (p : Fin 2) (e : EngineId) (c : ContextId) (address : BitVec 64),
    (∃ q ∈ s.farReads p (s.ectx e c), q.2.1 = address ∧ s.elapsed q.2.2 (s.act 0x7042 0 0) = true) →
    ∃ t, exec (.farTimeout p e c false address) s = .next t ∧
      t = { s with mem := { s.mem with farPorts := t.mem.farPorts }, engines := t.engines, ctrs := t.ctrs, freeCount := t.freeCount,
                   integ := t.integ, host := t.host } ∧
      Tab.get {} t.mem.farPorts p.val = { (Tab.get {} s.mem.farPorts p.val) with owed := (Tab.get {} s.mem.farPorts p.val).owed + 1 }) ∧
  (∀ (s : State) (p : Fin 2) (e : EngineId) (c : ContextId) (address : BitVec 64),
    (∀ q ∈ s.farReads p (s.ectx e c), q.2.1 = address → s.elapsed q.2.2 (s.act 0x7042 0 0) = false) →
    exec (.farTimeout p e c false address) s = .next s) ∧
  (∀ (s : State) (p : Fin 2), (Tab.get {} s.mem.farPorts p.val).state = .up →
    ∃ t, exec (.farPortDown p) s = .next t ∧
      t = { s with mem := { s.mem with farPorts := t.mem.farPorts }, engines := t.engines, ctrs := t.ctrs, freeCount := t.freeCount,
                   integ := t.integ, host := t.host } ∧
      Tab.get {} t.mem.farPorts p.val = { (Tab.get {} s.mem.farPorts p.val) with state := .down, owed := 0 }) ∧
  (∀ (s : State) (p : Fin 2), (Tab.get {} s.mem.farPorts p.val).state ≠ .up → exec (.farPortDown p) s = .next s)

/-- A die-to-die link: a replay counts; a link that loses training serves again when it retrains in time, and one that does not within 1
ms fences the module. The model's own readings it rests on: assumption 90. -/
def Obligations.DieToDie : Prop :=
  (∀ (s : State) (l : Fin 3), exec (.d2dFlitReplay l) s = .next { s with
    d2d := Tab.set {} s.d2d l.val { (Tab.get {} s.d2d l.val) with replays := (Tab.get {} s.d2d l.val).replays + 1 } }) ∧
  (∀ (s : State) (l : Fin 3), (Tab.get {} s.d2d l.val).lost = false → exec (.d2dTrainingLoss l) s = .next { s with
    d2d := Tab.set {} s.d2d l.val { (Tab.get {} s.d2d l.val) with lost := true, lostAt := s.time.ticks } }) ∧
  (∀ (s : State) (l : Fin 3), (Tab.get {} s.d2d l.val).dead = false → exec (.d2dLinkRetrained l) s = .next { s with
    d2d := Tab.set {} s.d2d l.val { (Tab.get {} s.d2d l.val) with lost := false } }) ∧
  (∀ (s : State) (l : Fin 3), (Tab.get {} s.d2d l.val).lost = true → (Tab.get {} s.d2d l.val).dead = false →
    s.elapsed (Tab.get {} s.d2d l.val).lostAt 1000 = true →
    ∃ t, exec (.d2dRetrainTimeout l) s = .next t ∧ t.integ.fenced = true ∧ (Tab.get {} t.d2d l.val).dead = true ∧
      t.mem = s.mem ∧ t.fabric = s.fabric ∧ t.vers = s.vers ∧ t.rw = s.rw) ∧
  (∀ (s : State) (l : Fin 3), (Tab.get {} s.d2d l.val).lost = false ∨ s.elapsed (Tab.get {} s.d2d l.val).lostAt 1000 = false →
    exec (.d2dRetrainTimeout l) s = .next s)

/-! ### The fabric -/

/-- Requests at their target. A packet that is not this module's or of another version changes no peer and no memory. The next request of
a stream is applied and acknowledged: a READ changes no byte, a WRITE and a NOTIFY write theirs, an atomic combines the 8-byte word and
keeps its old value in the reply cache; a request R335 refuses and a duplicate change no memory, nor does an atomic's retry. The model's
own readings it rests on: assumptions 93, 94, 97. -/
def Obligations.FabricRequests : Prop :=
  (∀ row ∈ ([fun x _ => .fabricRead x, fun x b => .fabricWrite x b, fun x _ => .fetchAdd x, fun x _ => .swap x, fun x _ => .cas x,
      fun x _ => .notify x, fun x b => .replyRx x b, fun x _ => .ackRx x, fun x _ => .keepaliveRx x, fun x _ => .resetRx x] :
      List (BitVec 384 → List Byte → Instr)),
    ∀ (s : State) (x : BitVec 384) (b : List Byte), (Header.decode x).version ≠ 1 ∨ (Header.decode x).dest ≠ s.moduleId →
      ∃ t, exec (row x b) s = .next t ∧ t = { s with fabric := t.fabric } ∧ t.fabric.peers = s.fabric.peers ∧
        Tab.get 0 t.fabric.stats 1 = Tab.get 0 s.fabric.stats 1 + 1) ∧
  (∀ row ∈ ([(fun x _ => .fabricRead x, 1), (fun x b => .fabricWrite x b, 2), (fun x _ => .fetchAdd x, 3), (fun x _ => .swap x, 4),
      (fun x _ => .cas x, 5), (fun x _ => .notify x, 6)] : List ((BitVec 384 → List Byte → Instr) × Nat)),
    ∀ (s : State) (x : BitVec 384) (b : List Byte) (p : BitVec 12) (h : Header), h = Header.decode x → h.opcode = row.2 →
      s.validFrom p h 0 → s.nextInOrder p h → s.exportedAt h = none →
      ∃ t, exec (row.1 x b) s = .next t ∧ t = { s with fabric := t.fabric, ports := t.ports } ∧
        ((t.peer p).stream h.cls).expect = h.psn + 1 ∧ Tab.get 0 t.fabric.stats 7 = Tab.get 0 s.fabric.stats 7 + 1) ∧
  (∀ row ∈ ([(fun x _ => .fabricRead x, 1), (fun x b => .fabricWrite x b, 2), (fun x _ => .fetchAdd x, 3), (fun x _ => .swap x, 4),
      (fun x _ => .cas x, 5), (fun x _ => .notify x, 6)] : List ((BitVec 384 → List Byte → Instr) × Nat)),
    ∀ (s : State) (x : BitVec 384) (b : List Byte) (p : BitVec 12) (h : Header), h = Header.decode x → h.opcode = row.2 →
      s.validFrom p h 0 → h.destInc = s.fabric.incarnation.toNat → h.ackValid = false → ((s.peer p).stream h.cls).seen h.psn = true →
      ∃ t, exec (row.1 x b) s = .next t ∧ t = { s with fabric := t.fabric, ports := t.ports } ∧
        ((t.peer p).stream h.cls) = ((s.peer p).stream h.cls) ∧ Tab.get 0 t.fabric.stats 3 = Tab.get 0 s.fabric.stats 3 + 1) ∧
  (∀ (s : State) (x : BitVec 384) (p : BitVec 12) (h : Header) (a : Nat), h = Header.decode x → h.opcode = 1 → s.validFrom p h 0 →
      s.nextInOrder p h → s.exportedAt h = some a →
      ∃ t, exec (.fabricRead x) s = .next t ∧
        t = { s with fabric := t.fabric, ports := t.ports, mem := t.mem, freeCount := t.freeCount, integ := t.integ, host := t.host } ∧
        t.mem.near = s.mem.near ∧ t.mem.far = s.mem.far ∧ ((t.peer p).stream h.cls).expect = h.psn + 1) ∧
  (∀ (s : State) (x : BitVec 384) (b : List Byte) (p : BitVec 12) (h : Header) (a : Nat), h = Header.decode x → h.opcode = 2 →
      s.validFrom p h 0 → s.nextInOrder p h → s.exportedAt h = some a → s.fabric.mirrorWaiting = [] →
      (∀ i, i < (b.take (64 * h.lines)).length → s.plainByte (a + i)) →
      ∃ t, exec (.fabricWrite x b) s = .next t ∧ ((t.peer p).stream h.cls).expect = h.psn + 1 ∧
        t = { s with fabric := t.fabric, ports := t.ports, mem := t.mem, host := t.host } ∧
        Tab.readBytes t.mem.near a (b.take (64 * h.lines)).length = b.take (64 * h.lines) ∧ t.mem.far = s.mem.far ∧
        (∀ k, (k < a ∨ a + (b.take (64 * h.lines)).length ≤ k) → Tab.get 0 t.mem.near k = Tab.get 0 s.mem.near k)) ∧
  (∀ (s : State) (x : BitVec 384) (p : BitVec 12) (h : Header) (a : Nat), h = Header.decode x → h.opcode = 6 → s.validFrom p h 0 →
      s.nextInOrder p h → s.exportedAt h = some a → s.fabric.mirrorWaiting = [] → a % 8 = 0 → s.plainByte a →
      ∃ t, exec (.notify x) s = .next t ∧ ((t.peer p).stream h.cls).expect = h.psn + 1 ∧
        t = { s with fabric := t.fabric, ports := t.ports, mem := t.mem, host := t.host } ∧
        Tab.readBytes t.mem.near a 8 = leBytes 8 h.operand1.toNat ∧ t.mem.far = s.mem.far ∧
        (∀ k, (k < a ∨ a + 8 ≤ k) → Tab.get 0 t.mem.near k = Tab.get 0 s.mem.near k)) ∧
  (∀ row ∈ ([(Instr.fetchAdd, 3, fun old x _ => old + x), (Instr.swap, 4, fun _ x _ => x),
      (Instr.cas, 5, fun old x y => if old = x then y else old)] :
      List ((BitVec 384 → Instr) × Nat × (BitVec 64 → BitVec 64 → BitVec 64 → BitVec 64))),
    ∀ (s : State) (x : BitVec 384) (p : BitVec 12) (h : Header) (a : Nat) (old : BitVec 64), h = Header.decode x → h.opcode = row.2.1 →
      s.validFrom p h 0 → s.nextInOrder p h → s.exportedAt h = some a → s.fabric.mirrorWaiting = [] → a % 8 = 0 → s.plainByte a →
      old = BitVec.ofNat 64 (ofLeBytes (Tab.readBytes s.mem.near a 8)) →
      (h.retry = false →
        ∃ t, exec (row.1 x) s = .next t ∧ ((t.peer p).stream h.cls).expect = h.psn + 1 ∧
          t = { s with fabric := t.fabric, ports := t.ports, mem := t.mem, host := t.host } ∧
          Tab.readBytes t.mem.near a 8 = leBytes 8 (row.2.2 old h.operand1 h.operand2).toNat ∧ t.mem.far = s.mem.far ∧
          (∀ k, (k < a ∨ a + 8 ≤ k) → Tab.get 0 t.mem.near k = Tab.get 0 s.mem.near k) ∧
          { request := h.request, opcode := BitVec.ofNat 6 h.opcode, value := old } ∈ (t.peer p).cache) ∧
      (h.retry = true → ∃ t, exec (row.1 x) s = .next t ∧ t = { s with fabric := t.fabric, ports := t.ports } ∧
          ((t.peer p).stream h.cls).expect = h.psn + 1))

/-- What comes back. An ACK releases the packets up to AckPsn; a KEEPALIVE is a receipt; a RESET returns the streams to PSN 0 and clears
the reply cache; a REPLY ends the operation it answers. Any of them makes its peer UP and notes the time. The model's own readings it
rests on: assumptions 91, 93, 96. -/
def Obligations.FabricAnswers : Prop :=
  (∀ (s : State) (x : BitVec 384) (p : BitVec 12) (h : Header), h = Header.decode x → s.validFrom p h 2 → h.ackValid = true →
      h.operand1 = 0 → h.operand2 = 0 → (s.peer p).ops = [] →
      (∀ k ∈ ((s.peer p).stream h.cls).unacked, wrapDiff 32 k.psn.toNat h.ackPsn.toNat ≠ none) →
      ∃ t, exec (.ackRx x) s = .next t ∧ t = { s with fabric := t.fabric } ∧
        t.peer p = ({ s.peer p with liveness := .up, lastReceipt := s.time.ticks } : Peer).setStream h.cls
          { (s.peer p).stream h.cls with unacked := ((s.peer p).stream h.cls).unacked.filter (fun k => !psnUpTo k.psn h.ackPsn) } ∧
        ∀ q, q ≠ p → t.peer q = s.peer q) ∧
  (∀ (s : State) (x : BitVec 384) (p : BitVec 12) (h : Header), h = Header.decode x → s.validFrom p h 3 → h.ackValid = false →
      ∃ t, exec (.keepaliveRx x) s = .next t ∧ t = { s with fabric := t.fabric } ∧
        t.peer p = { s.peer p with liveness := .up, lastReceipt := s.time.ticks } ∧ ∀ q, q ≠ p → t.peer q = s.peer q) ∧
  (∀ (s : State) (x : BitVec 384) (p : BitVec 12) (h : Header), h = Header.decode x → s.validFrom p h 4 → (s.peer p).ops = [] →
      ∃ t, exec (.resetRx x) s = .next t ∧ t = { s with fabric := t.fabric } ∧
        t.peer p = { s.peer p with liveness := .up, lastReceipt := s.time.ticks, streams := [], cache := [] } ∧
        ∀ q, q ≠ p → t.peer q = s.peer q) ∧
  (∀ (s : State) (x : BitVec 384) (b : List Byte) (p : BitVec 12) (h : Header) (o : FabricOp) (e : EngineId) (c : ContextId)
      (serial : BitVec 16), h = Header.decode x → s.validFrom p h 1 → h.ackValid = false → h.status = stDone →
      (s.peer p).answered h = some o → o.use = .port e c serial 0 → s.fabric.fences = [] →
      (∀ y ∈ s.engines, ∀ k ∈ y.2.contexts, k.2.portRun = none) →
      ∃ t, exec (.replyRx x b) s = .next t ∧ t = { s with fabric := t.fabric, engines := t.engines } ∧
        t.peer p = { s.peer p with liveness := .up, lastReceipt := s.time.ticks, ops := (s.peer p).ops.filter (fun q => q.id ≠ o.id) } ∧
        (t.ectx e c).runs = (s.ectx e c).runs ∧ ∀ q, q ≠ p → t.peer q = s.peer q)

/-- The timers of the fabric: a packet not acknowledged in time is sent again; a READ or atomic with no reply is sent with a new PSN;
KEEPALIVEs keep a link heard; a peer not heard falls SILENT and then DEAD; an operation DeadTimeout old ends; a mirror restarts. Before
its time a retransmission, a KEEPALIVE, a peer's silence or its death leaves the state as it was. The FENCE record at the front of its
context's list, when an operation it counts is open, waits as a fence that counts them all; at its timeout it ends, and not before. The
model's own readings it rests on: assumptions 3, 96, 100. -/
def Obligations.FabricTimersAndFences : Prop :=
  ((∀ (s : State) (p : BitVec 12) (cls : BitVec 2) (psn : BitVec 32) (k : Packet),
       ((s.peer p).stream cls).unacked.find? (fun k => k.psn == psn) = some k →
       (s.elapsed k.sentAt (s.act 0x8050 1 0) = false → exec (.retransmitTimeout p cls psn) s = .next s) ∧
       (∀ n, s.elapsed k.sentAt (s.act 0x8050 1 0) = true → s.noWork = false → s.choosePort p cls (some k.port.toNat) = some n →
         ∃ t, exec (.retransmitTimeout p cls psn) s = .next t ∧ t = { s with fabric := t.fabric, ports := t.ports } ∧
           (t.peer p).retransmits = (s.peer p).retransmits + 1 ∧ (t.peer p).ops = (s.peer p).ops ∧
           ((t.peer p).stream cls).unacked = ((s.peer p).stream cls).unacked.map (fun q =>
             if q.psn = psn then { q with port := BitVec.ofNat 5 n, sentAt := s.time.ticks } else q) ∧
           ((t.peer p).stream cls).nextPsn = ((s.peer p).stream cls).nextPsn ∧
           Tab.get 0 t.fabric.stats 2 = Tab.get 0 s.fabric.stats 2 + 1)) ∧
   (∀ (s : State) (p : BitVec 12) (request : BitVec 16) (o : FabricOp) (n : Nat),
       (s.peer p).ops.find? (fun o => o.sent && o.acked && o.request == request && opReplies o.opcode.toNat &&
         s.elapsed o.issuedAt (s.act 0x8050 1 0)) = some o →
       ((s.peer p).stream o.cls).unacked.length < s.classWindow o.cls → s.noWork = false → s.choosePort p o.cls none = some n →
       ∃ t, exec (.replyRetry p request) s = .next t ∧ t = { s with fabric := t.fabric, ports := t.ports } ∧
         ((t.peer p).stream o.cls).nextPsn = ((s.peer p).stream o.cls).nextPsn + 1 ∧
         (t.peer p).ops = (s.peer p).ops.map (fun q =>
           if q.id = o.id then { q with acked := false, psn := ((s.peer p).stream o.cls).nextPsn } else q)) ∧
   (∀ (s : State) (p : BitVec 12), s.elapsed (s.peer p).lastSent (s.act 0x8050 2 0) = false → exec (.keepaliveTimer p) s = .next s) ∧
   (∀ (s : State) (p : BitVec 12), peerSpray (s.act 0x8010 0 p.toNat) ≠ 0 → s.elapsed (s.peer p).lastSent (s.act 0x8050 2 0) = true →
       s.sprayPorts p ≠ [] → s.noWork = false →
       ∃ t n, exec (.keepaliveTimer p) s = .next t ∧ t = { s with fabric := t.fabric, ports := t.ports } ∧ n ∈ s.sprayPorts p ∧
         t.peer p = { s.peer p with lastSent := s.time.ticks, nextPort := BitVec.ofNat 5 (if n = 19 then 0 else n + 1) } ∧
         (∀ q, q ≠ fabricPort n → t.port q = s.port q)) ∧
   (∀ (s : State) (p : BitVec 12), peerSpray (s.act 0x8010 0 p.toNat) ≠ 0 → (s.peer p).liveness = .up →
       (s.elapsed (s.peer p).lastReceipt (4 * s.act 0x8050 2 0) = false → exec (.peerSilent p) s = .next s) ∧
       (s.elapsed (s.peer p).lastReceipt (4 * s.act 0x8050 2 0) = true →
         ∃ t, exec (.peerSilent p) s = .next t ∧
           t = { s with fabric := t.fabric, freeCount := t.freeCount, integ := t.integ, host := t.host } ∧
           t.peer p = { s.peer p with liveness := .silent } ∧ ∀ q, q ≠ p → t.peer q = s.peer q)) ∧
   (∀ (s : State) (p : BitVec 12), peerSpray (s.act 0x8010 0 p.toNat) ≠ 0 → (s.peer p).liveness ≠ .dead →
       (s.elapsed (s.peer p).lastReceipt (s.act 0x8050 3 0) = false → exec (.peerDead p) s = .next s) ∧
       (s.elapsed (s.peer p).lastReceipt (s.act 0x8050 3 0) = true → (s.peer p).ops = [] → s.act 0x8041 0 0 = 0 →
         (∀ q cls, ((s.peer q).stream cls).applied = []) →
         ∃ t, exec (.peerDead p) s = .next t ∧
           t = { s with fabric := t.fabric, freeCount := t.freeCount, integ := t.integ, host := t.host } ∧
           t.peer p = { s.peer p with liveness := .dead } ∧ ∀ q, q ≠ p → t.peer q = s.peer q)) ∧
   (∀ (s : State) (p : BitVec 12) (request : BitVec 16) (o : FabricOp) (e : EngineId) (c : ContextId) (serial : BitVec 16),
       (s.peer p).ops.find? (fun o => o.request == request && opReplies o.opcode.toNat && s.elapsed o.issuedAt (s.act 0x8050 3 0)) = some o →
       o.use = .port e c serial 0 → s.fabric.fences = [] → (∀ y ∈ s.engines, ∀ k ∈ y.2.contexts, k.2.portRun = none) →
       ∃ t, exec (.operationDeadTimeout p request) s = .next t ∧
         t = { s with fabric := t.fabric, engines := t.engines, freeCount := t.freeCount, integ := t.integ, host := t.host } ∧
         (t.peer p).ops = (s.peer p).ops.filter (fun q => q.id ≠ o.id) ∧
         (∀ r ∈ (t.ectx e c).runs, r.serial = serial → (if o.opcode = 1 then stRemoteTimeout else stUnknown) ∈ r.statuses)) ∧
   (∀ (s : State) (r : BitVec 16), r.toNat < s.act 0x8041 0 0 → exec (.mirrorRestart r) s =
       .next { s with fabric := { s.fabric with mirrors := Tab.set .active s.fabric.mirrors r.toNat .active } }) ∧
   (∀ (s : State) (r : BitVec 16), s.act 0x8041 0 0 ≤ r.toNat → exec (.mirrorRestart r) s = .next s)) ∧
  ((∀ (s : State) (e : EngineId) (c : ContextId) (record : BitVec 512) (r : Run), (s.ectx e c).portRun = some r → r.records = [record] →
       prOp record = opFence → s.engineStopped e = false → s.fabric.fences = [] → s.openOps e c ≠ [] →
       ∃ t f, exec (.fence e c record) s = .next t ∧ t = { s with fabric := { s.fabric with fences := [f] }, engines := t.engines } ∧
         f.engine = e ∧ f.context = c ∧ f.serial = r.serial ∧ f.counted = s.openOps e c ∧ f.issuedAt = s.time.ticks ∧
         f.result = prResult record ∧
         t.ectx e c = (s.ectx e c).updRun r.serial (fun q => { q with records := [] })) ∧
   (∀ (s : State) (e : EngineId) (c : ContextId) (f : Fence), s.fabric.fences.find? (fun f => f.engine == e && f.context == c) = some f →
       (s.elapsed f.issuedAt (s.act 0x8050 4 0) = false → exec (.fenceTimeout e c) s = .next s) ∧
       (s.elapsed f.issuedAt (s.act 0x8050 4 0) = true → f.result = 0 →
         ∃ t, exec (.fenceTimeout e c) s = .next t ∧
           t = { s with fabric := { s.fabric with fences := s.fabric.fences.erase f }, engines := t.engines } ∧
           (f.counted ≠ [] → ∀ q ∈ (t.ectx e c).runs, q.serial = f.serial → stFenceIncomplete ∈ q.statuses))))

/-- The sends of a fused chain: lines of a tile that is written go out to its destination when the grant, the credit and the context's
allotment allow; a tile acknowledged in full advances Sent and leaves its destination free for the next; a destination without credit
reads it again, and after SendCreditTimeout gets nothing more of the step, which carries REMOTE_TIMEOUT. The model's own readings it rests
on: assumption 101. -/
def Obligations.Sends : Prop :=
  (∀ (s s1 : State) (e : EngineId) (c : ContextId) (i : BitVec 3) (r : Run) (q : SendState) (tile : Pass) (d n entry target : Nat) (lost : Bool)
      (sent : BitVec 64) (credit : Int), (s.engine e).sendNext c i.toNat = some (r, q, tile) → d = r.step.descriptor.toNat →
      entry = (s.engine e).sendEntry ((s.engine e).part c) d i.toNat →
      n = min ((s.engine e).tileLineCount ((s.engine e).part c) d tile - q.issued) (s.lineRoom e c) → 0 < n →
      lost = r.poisonTiles.contains (if (s.engine e).form2 ((s.engine e).part c) d then tile.m else tile.ordinal) →
      s.noWork = false → s.engineStopped e = false → s.writeAdmitted e c = true → s.pathOpen e 2 (sdAddress entry) = true →
      (lost = false → (s.engine e).firstBad ((s.engine e).tileRanges ((s.engine e).part c) d tile) = none) →
      s.granted (s.ctxSource c) (sdAddress entry) false = true → s.regionAllows c (sdCredit entry) 16 true = true →
      s.sendCredit e c entry = (s1, sent, credit, []) →
      target = sdAddress entry + sdSlotBytes entry * (sent.toNat % Nat.max 1 (sdSlots entry)) + 64 * q.issued →
      (q.active = false → credit < 1 → exec (.sendTile e c i) s = .next (s1.setSend e c r.serial i.toNat (q.awaits s.time.ticks))) ∧
      (q.active = true ∨ 1 ≤ credit →
        (∀ p, gaModule target ≠ s.moduleId → s.livePeer (gaModule target) = some p →
          ∃ t, exec (.sendTile e c i) s = .next t ∧
            t = { s with fabric := t.fabric, ports := t.ports, engines := t.engines, mem := t.mem, freeCount := t.freeCount, integ := t.integ,
                         host := t.host, ctrs := t.ctrs, insts := t.insts } ∧ t.mem.near = s.mem.near ∧ t.mem.far = s.mem.far ∧
            (∀ v ∈ (t.ectx e c).runs, v.serial = r.serial →
              (Tab.get {} v.sends i.toNat).active = true ∧ (Tab.get {} v.sends i.toNat).waiting = false ∧
              (Tab.get {} v.sends i.toNat).next = q.next ∧ (Tab.get {} v.sends i.toNat).issued = q.issued + n)) ∧
        (∀ a, gaModule target = s.moduleId → s.ownAddress target (64 * n) = some a →
          ∃ t, exec (.sendTile e c i) s = .next t ∧
            (∀ v ∈ (t.ectx e c).runs, v.serial = r.serial → Tab.get {} v.sends i.toNat =
              { q with active := true, waiting := false, issued := q.issued + n, lines := q.lines + n })))) ∧
  (∀ (s s0 s1 : State) (e : EngineId) (c : ContextId) (i : BitVec 3) (r : Run) (q : SendState) (entry : Nat) (sent : BitVec 64) (credit : Int),
      ((s.engine e).sendRuns c i.toNat).find? (fun v => v.2.active && v.2.packets == 0) = some (r, q) → s.engineStopped e = false →
      entry = (s.engine e).sendEntry ((s.engine e).part c) r.step.descriptor.toNat i.toNat → sdNotify entry = 0 →
      s0 = (s.returnLines e c q.lines).setSend e c r.serial i.toNat { q with lines := 0 } →
      (∀ tile, (s.engine e).sendTile ((s.engine e).part c) c i.toNat (r, q) = some tile →
        q.issued < (s.engine e).tileLineCount ((s.engine e).part c) r.step.descriptor.toNat tile →
        exec (.sendLinesAcked e c i) s = .next s0) ∧
      ((∀ tile, (s.engine e).sendTile ((s.engine e).part c) c i.toNat (r, q) = some tile →
          (s.engine e).tileLineCount ((s.engine e).part c) r.step.descriptor.toNat tile ≤ q.issued) →
        s0.sendCredit e c entry = (s1, sent, credit, []) →
        ∃ t live, exec (.sendLinesAcked e c i) s = .next t ∧
          t = ((((s1.writeBytes (sdCredit entry + 8) (leBytes 8 (sent + 1).toNat) false (engineUnit e) (BitVec.ofNat 2 (s.ctxClass c))).1.countEngine
                e 11 1).setSend e c r.serial i.toNat { q with active := false, next := q.next + 1, issued := 0, lines := 0 }).setSend
                  e c r.serial i.toNat { q with active := false, next := q.next + 1, issued := 0, lines := 0, live := live }) ∧
          (∀ v ∈ (t.ectx e c).runs, v.serial = r.serial →
            (Tab.get {} v.sends i.toNat).active = false ∧ (Tab.get {} v.sends i.toNat).next = q.next + 1) ∧
          (∀ e', e' ≠ e → t.engine e' = s.engine e') ∧ t.batches = s.batches ∧ t.cores = s.cores ∧ t.vers = s.vers ∧ t.time = s.time)) ∧
  (∀ (s s1 : State) (e : EngineId) (c : ContextId) (i : BitVec 3) (r : Run) (q : SendState) (sent : BitVec 64) (credit : Int),
      (s.engine e).sendWaiting c i.toNat = some (r, q) → s.engineStopped e = false →
      s.sendCredit e c ((s.engine e).sendEntry ((s.engine e).part c) r.step.descriptor.toNat i.toNat) = (s1, sent, credit, []) →
      (credit < 1 → exec (.sendCreditReread e c i) s = .next s1) ∧
      (1 ≤ credit → exec (.sendCreditReread e c i) s = .next ((s1.endWait e q).setSend e c r.serial i.toNat { q with waiting := false }))) ∧
  (∀ (s : State) (e : EngineId) (c : ContextId) (i : BitVec 3),
      ((s.engine e).sendWaiting c i.toNat = none → exec (.sendCreditTimeout e c i) s = .next s) ∧
      (∀ r q, (s.engine e).sendWaiting c i.toNat = some (r, q) → s.elapsed q.since (s.act 0x4033 0 0) = false →
        exec (.sendCreditTimeout e c i) s = .next s) ∧
      (∀ r q, (s.engine e).sendWaiting c i.toNat = some (r, q) → s.elapsed q.since (s.act 0x4033 0 0) = true →
        ∃ t, exec (.sendCreditTimeout e c i) s = .next t ∧ t = { s with engines := t.engines, ctrs := t.ctrs } ∧
        (∀ v ∈ (t.ectx e c).runs, v.serial = r.serial →
          stRemoteTimeout ∈ v.statuses ∧ (Tab.get {} v.sends i.toNat).live = false) ∧
        (∀ e', e' ≠ e → t.engine e' = s.engine e')))

/-! ### Instances and the host link -/

/-- The lifecycle of an instance: a RESET advances the generation, ends its batches and disables its ring; it ends once its flush read and
scrubs are done; QUIESCE, RESUME and their completions move it between ACTIVE, QUIESCING and QUIESCED; in another state of the lifecycle a
RESET, a QUIESCE and a RESUME leave the state as it was. An import that is not good changes nothing; a good one takes its generation. The
model's own readings it rests on: assumptions 102, 105. -/
def Obligations.InstanceLifecycle : Prop :=
  (∀ row ∈ [Instr.instanceReset, Instr.vfFlr], ∀ (s : State) (n : InstanceId),
    ((s.inst n).life ≠ .resetting → (s.inst n).life ≠ .resetStalled →
      ∃ t, exec (row n) s = .next t ∧
        t = { s with insts := t.insts, batches := t.batches, engines := t.engines, host := t.host, ctrs := t.ctrs, freeCount := t.freeCount,
                     integ := t.integ, rw := setRec s.rw 0x3021 0 n.toNat (setBits (s.obj 0x3021 0 n.toNat) 52 52 0) } ∧
        (t.inst n).generation = (s.inst n).generation + 1 ∧ (t.inst n).generationC = ~~~((s.inst n).generation + 1) ∧
        (t.inst n).life = .resetting ∧ (t.inst n).ring.slots = 0 ∧ (t.inst n).ring.state = .idle ∧
        (∀ b ∈ t.batches, b.origin ≠ .ring (.inst n)) ∧ (∀ m, m ≠ n → t.inst m = s.inst m)) ∧
    ((s.inst n).life = .resetting ∨ (s.inst n).life = .resetStalled → exec (row n) s = .next s)) ∧
  (∀ (s : State) (n : InstanceId), (s.inst n).life = .resetting ∨ (s.inst n).life = .resetStalled → (s.inst n).scrubsLeft = 0 →
    (s.inst n).flushDone = true →
    ∃ t, exec (.instanceResetComplete n) s = .next t ∧
      t = { s with insts := t.insts, freeCount := t.freeCount, integ := t.integ, host := t.host } ∧
      t.inst n = { s.inst n with life := .idle, flushDone := false, resets := (s.inst n).resets + 1 } ∧
      ∀ m, m ≠ n → t.inst m = s.inst m) ∧
  (∀ (s : State) (n : InstanceId), (s.inst n).life = .active →
    ∃ t, exec (.instanceQuiesce n) s = .next t ∧ t = { s with insts := t.insts, host := t.host } ∧
      (t.inst n).life = .quiescing ∧ (t.inst n).disabling = false ∧ (t.inst n).ring = (s.inst n).ring ∧
      (t.inst n).generation = (s.inst n).generation ∧ ∀ m, m ≠ n → t.inst m = s.inst m) ∧
  (∀ (s : State) (n : InstanceId), (s.inst n).life ≠ .active → exec (.instanceQuiesce n) s = .next s) ∧
  (∀ (s : State) (n : InstanceId),
    ((s.inst n).life = .quiescing ∨ (s.inst n).life = .quiesced → ringEnabled (s.obj 0x3021 0 n.toNat) = true →
      exec (.instanceResume n) s = .next (s.setInst n { s.inst n with life := .active, flushDone := false })) ∧
    ((s.inst n).life ≠ .quiescing ∧ (s.inst n).life ≠ .quiesced ∨ ringEnabled (s.obj 0x3021 0 n.toNat) = false →
      exec (.instanceResume n) s = .next s)) ∧
  (∀ (s : State) (n : InstanceId), (s.inst n).life = .quiescing → (s.inst n).ring.slots = 0 → (s.inst n).flushDone = true →
    exec (.quiesceComplete n) s = .next (s.setInst n { s.inst n with
      life := if (s.inst n).disabling = true then .idle else .quiesced, flushDone := false, disabling := false })) ∧
  (∀ (s : State) (n : InstanceId), (s.inst n).life = .quiescing → (s.inst n).ring.slots ≠ 0 → (s.inst n).importing = none →
    exec (.quiesceComplete n) s = .next s) ∧
  (∀ (s : State) (n : InstanceId) (tag : Nat) (r : HostRead), s.findRead (.flush (.inst n)) = some (tag, r) → (s.inst n).importing = none →
    (exec (.flushReadComplete (.inst n)) s = .next { s with
      host := { s.host with reads := Tab.set none s.host.reads tag none },
      insts := Tab.set {} s.insts n.toNat { s.inst n with flushDone := true, flushIssued := false } }) ∧
    (s.elapsed r.issuedAt 100 = false → exec (.flushReadTimeout (.inst n)) s = .next s) ∧
    (s.elapsed r.issuedAt 100 = true → ∃ t, exec (.flushReadTimeout (.inst n)) s = .next t ∧ t = { s with insts := t.insts, host := t.host } ∧
      t.inst n = { s.inst n with flushRetries := (s.inst n).flushRetries + 1,
                                 life := if (s.inst n).life = .resetting then .resetStalled else (s.inst n).life } ∧
      ∀ m, m ≠ n → t.inst m = s.inst m)) ∧
  (∀ (s : State) (n : InstanceId) (rs : List (BitVec 512)), s.importGood n (rs.map (·.toNat)) = false →
    exec (.instanceImport n rs) s = .next s) ∧
  (∀ (s : State) (n : InstanceId) (rs : List (BitVec 512)), s.importGood n (rs.map (·.toNat)) = true → s.linkUp = false →
    ∃ t, exec (.instanceImport n rs) s = .next t ∧ t = { s with insts := t.insts, engines := t.engines } ∧
      (t.inst n).generation = BitVec.ofNat 16 (bits (rs.headD 0).toNat 483 468) ∧ (t.inst n).generationC = ~~~(t.inst n).generation ∧
      (t.inst n).importing = none ∧ (t.inst n).life = .idle ∧ ∀ m, m ≠ n → t.inst m = s.inst m)

/-- The link and its resets: a PF FLR, or a change of VF Enable or NumVFs, resets every instance; a hot reset and a loss of the link
advance every instance's generation and clear the port's vectors, translations and configuration; PERST_N holds the link in reset; the
link trains to L0 unless held in reset. What the host does to the port: completions and timeouts of reads, invalidations, writes that no
BAR maps, unmasking of vectors, dirty logs and harvests, IDE keys and streams. The model's own readings it rests on: assumptions 9, 10,
103, 104. -/
def Obligations.HostLinkAndResets : Prop :=
  ((∀ s : State, ∃ t, exec .pfFlr s = .next t ∧
     t = { s with insts := t.insts, batches := t.batches, engines := t.engines, host := t.host, rw := t.rw, freeCount := t.freeCount,
                      integ := t.integ, ctrs := t.ctrs } ∧
     (∀ n, (s.inst n).life ≠ .resetting → (s.inst n).life ≠ .resetStalled →
       (t.inst n).generation = (s.inst n).generation + 1 ∧ (t.inst n).life = .resetting) ∧
     t.obj 0x6040 8 0 = 0 ∧ t.obj 0xA010 4 0 = 0 ∧ bit (t.obj 0x3024 0 0) 52 = false) ∧
   (∀ (s : State) (enable : Bool) (num : BitVec 16),
     ((s.host.vfEnable = false ∨ enable = true) → s.host.numVFs = num →
       exec (.vfEnableChange enable num) s = .next { s with host := { s.host with vfEnable := enable, numVFs := num } }) ∧
     ((s.host.vfEnable = true ∧ enable = false) ∨ s.host.numVFs ≠ num →
       ∃ t, exec (.vfEnableChange enable num) s = .next t ∧
         t = { s with insts := t.insts, batches := t.batches, engines := t.engines, host := t.host, rw := t.rw, freeCount := t.freeCount,
                        integ := t.integ, ctrs := t.ctrs } ∧
         t.host.vfEnable = enable ∧ t.host.numVFs = num ∧
         ∀ n, (s.inst n).life ≠ .resetting → (s.inst n).life ≠ .resetStalled →
           (t.inst n).generation = (s.inst n).generation + 1 ∧ (t.inst n).life = .resetting)) ∧
   (∀ s : State, s.linkUp = false → exec .hotReset s = .next s ∧ exec .linkDown s = .next s) ∧
   (∀ row ∈ [(Instr.hotReset, LinkPhase.training), (Instr.linkDown, LinkPhase.down)], ∀ s : State, s.linkUp = true →
     ∃ t, exec row.1 s = .next t ∧ t.host.phase = row.2 ∧ t.host.vectors = [] ∧ t.host.vfEnable = false ∧ t.host.numVFs = 0 ∧
       t.host.translations = [] ∧ t.time = s.time ∧ t.vers = s.vers ∧ t.cores = s.cores ∧
       (∀ n, (s.inst n).life ≠ .resetting → (s.inst n).life ≠ .resetStalled → (t.inst n).generation = (s.inst n).generation + 1)) ∧
   (∀ (s : State) (width rate : BitVec 4) (flit : Bool),
     (s.start.running = true → s.host.perst = false → s.host.phase ≠ .inReset → s.linkUp = false →
       exec (.hostLinkUp width rate flit) s = .next { s with host := { s.host with phase := .up, width := width, rate := rate, flit := flit } }) ∧
     (s.start.running = false ∨ s.host.perst = true ∨ s.host.phase = .inReset ∨ s.linkUp = true →
       exec (.hostLinkUp width rate flit) s = .next s)) ∧
   (∀ s : State, s.host.perst = true → exec .perstNAssert s = .next s ∧
     exec .perstNRelease s = .next { s with host := { s.host with
       perst := false, phase := if s.host.phase = .inReset ∧ s.start.running = true then .training else s.host.phase } }) ∧
   (∀ s : State, s.host.perst = false → exec .perstNRelease s = .next s ∧
     ∃ t, exec .perstNAssert s = .next t ∧ t.host.perst = true ∧ (s.start.running = true → t.host.phase = .inReset) ∧
       (s.start.running = false → t = { s with host := { s.host with perst := true } }))) ∧
  ((∀ (s : State) (tag : BitVec 14) (result : ReadResult) (data : List Byte), Tab.get none s.host.reads tag.toNat = none →
     exec (.hostReadCompletion tag result data) s = .next { s with host := { s.host with lateDropped := s.host.lateDropped + 1 } } ∧
     exec (.hostReadTimeout tag) s = .next s) ∧
   (∀ (s : State) (tag : BitVec 14) (r : HostRead) (data : List Byte), Tab.get none s.host.reads tag.toNat = some r →
     r.purpose = .radioConsumed →
     ((∀ f, (s.ring f).left = 0) → exec (.hostReadCompletion tag .good data) s = .next { s with
       host := { s.host with reads := Tab.set none s.host.reads tag.toNat none },
       radio := { s.radio with ringConsumed := BitVec.ofNat 64 (ofLeBytes (data.take 8)) } }) ∧
     (s.elapsed r.issuedAt (readTimeoutUs s.host.timeoutCode) = false → exec (.hostReadTimeout tag) s = .next s) ∧
     (s.elapsed r.issuedAt (readTimeoutUs s.host.timeoutCode) = true →
       ∃ t, exec (.hostReadTimeout tag) s = .next t ∧ t = { s with host := t.host, freeCount := t.freeCount, integ := t.integ } ∧
         t.host.reads = Tab.set none s.host.reads tag.toNat none)) ∧
   (∀ (s : State) (f : Source) (page : BitVec 52) (count : BitVec 32), ∃ t, exec (.atsInvalidation f page count) s = .next t ∧
     t = { s with host := { s.host with translations := t.host.translations } } ∧
     ∀ q, q ∈ t.host.translations ↔ q ∈ s.host.translations ∧ (q.1 ≠ f ∨ q.2 < page.toNat ∨ page.toNat + count.toNat ≤ q.2)) ∧
   (∀ (s : State) (f : Source) (o : BitVec 17), s.linkUp = true → s.ideBlocked = false → o.toNat < barSize f →
     (barMapped f o.toNat = true → exec (.barUnmappedWrite f o) s = .next s) ∧
     (barMapped f o.toNat = false → ∃ t, exec (.barUnmappedWrite f o) s = .next t ∧
       t = { s with freeCount := t.freeCount, integ := t.integ, host := t.host } ∧ t.host.unmappedWrites = s.host.unmappedWrites + 1)) ∧
   (∀ (s : State) (f : Source) (v : BitVec 6) (k : Nat), k = vectorKey f v.toNat →
     ((Tab.get {} s.host.vectors k).pending = false → exec (.msixUnmask f v) s = .next { s with
       host := { s.host with vectors := Tab.set {} s.host.vectors k { unmasked := true, pending := false } } }) ∧
     ((Tab.get {} s.host.vectors k).pending = true → s.host.phase = .up → ∃ t w, exec (.msixUnmask f v) s = .next t ∧
       t = { s with host := { s.host with vectors := Tab.set {} s.host.vectors k { unmasked := true, pending := false },
                                          writes := s.host.writes ++ [w] } } ∧ w.purpose = .msix ∧ w.source = f)) ∧
   (∀ (s : State) (i : BitVec 4) (r : BitVec 256), 2 ^ 30 < dirtyPages r.toNat ∨ bits r.toNat 21 0 ≠ 0 ∨ dirtyHostBase r.toNat % 4096 ≠ 0 →
     exec (.dirtyLogWrite i r) s = .next s) ∧
   (∀ (s : State) (i : BitVec 4) (r : BitVec 256), dirtyPages r.toNat ≤ 2 ^ 30 → bits r.toNat 21 0 = 0 → dirtyHostBase r.toNat % 4096 = 0 →
     dirtyIova r.toNat % 4096 = 0 → dirtyDeviceBase r.toNat % 4096 = 0 → dirtyEnabled (s.obj 0x9030 0 i.toNat) = false →
     ∃ t, exec (.dirtyLogWrite i r) s = .next t ∧ t = { s with rw := setRec s.rw 0x9030 0 i.toNat r.toNat, host := t.host } ∧
       (dirtyEnabled r.toNat = true → (Tab.get {} t.host.dirty i.toNat).epoch = 0 ∧ (Tab.get {} t.host.dirty i.toNat).marked = [])) ∧
   (∀ (s : State) (i : BitVec 4),
     (dirtyEnabled (s.obj 0x9030 0 i.toNat) = false ∨ (Tab.get {} s.host.dirty i.toNat).harvesting = true → exec (.harvest i) s = .next s) ∧
     (dirtyEnabled (s.obj 0x9030 0 i.toNat) = true → (Tab.get {} s.host.dirty i.toNat).harvesting = false →
       ∃ t, exec (.harvest i) s = .next t ∧ t = { s with host := t.host } ∧
         (Tab.get {} t.host.dirty i.toNat).epoch = (Tab.get {} s.host.dirty i.toNat).epoch + 1 ∧
         (Tab.get {} t.host.dirty i.toNat).marked = [])) ∧
   (∀ (s : State) (k : Fin 5), ((Tab.get {} s.host.ide k.val).secure = false → exec (.ideStreamLoss k) s = .next s) ∧
     ((Tab.get {} s.host.ide k.val).secure = true → ∃ t, exec (.ideStreamLoss k) s = .next t ∧
       t = { s with freeCount := t.freeCount, integ := t.integ, host := t.host } ∧ (Tab.get {} t.host.ide k.val).secure = false ∧
       (Tab.get {} t.host.ide k.val).keys = [])) ∧
   (∀ (s : State) (k : Fin 5) (sub : BitVec 3) (key : BitVec 256), s.linkUp = true → s.host.flit = true → s.keeper.doe.session = .opened →
     ∃ t, exec (.ideKmKeyProg k sub key) s = .next t ∧ t = { s with host := { s.host with ide := t.host.ide } } ∧
       Tab.get 0 (Tab.get {} t.host.ide k.val).keys sub.toNat = key ∧
       (Tab.get {} t.host.ide k.val).secure = (Tab.get {} s.host.ide k.val).secure ∧
       ∀ j, j ≠ k.val → Tab.get {} t.host.ide j = Tab.get {} s.host.ide j) ∧
   (∀ (s : State) (k : Fin 5), s.linkUp = true → s.host.flit = true → (Tab.get {} s.host.ide k.val).keys ≠ [] →
     ∃ t, exec (.ideStreamSecure k) s = .next t ∧ t = { s with host := { s.host with ide := t.host.ide } } ∧
       (Tab.get {} t.host.ide k.val).secure = true ∧ ∀ j, j ≠ k.val → Tab.get {} t.host.ide j = Tab.get {} s.host.ide j))

/-! ### The object dictionary and its orders -/

/-- Each order of the physical function is the WRITE of its object: the effect is the order's, its Reason stands in the window, and the
request is counted. The model's own readings it rests on: assumptions 107, 109. -/
def Obligations.HostOrders : Prop :=
  (∀ (s : State) (v : BitVec 32) (u : BitVec 16) (x : BitVec 8) (g : Bool) (digest : BitVec 512) (i : Fin 456) (r : BitVec 256), s.pfServed →
    ∀ row ∈ ([(.commit .pf v, s.commitVersion v), (.revert .pf v, s.revertVersion v), (.confirm .pf v g, s.confirmVersion v g),
        (.stageReset .pf x, s.resetStaging x), (.quarantineClear .pf u, s.clearQuarantine u), (.managerKeysApply .pf x g, s.applyKeys x g),
        (.moduleReset .pf, s.orderReset 1), (.firmwareRestart .pf, s.orderReset 2), (.eraseInactive .pf, s.eraseInactive),
        (.armTrial .pf, s.armTrial), (.confirmRunning .pf, s.confirmRunning), (.advanceRollback .pf, s.advanceRollback),
        (.integratorKeyDigestWrite .pf digest, s.writeIntegratorDigest digest), (.progControlWrite .pf i r, s.writeControl i.val r.toNat),
        (.snapshotNow .pf x, s.requestSnapshot x.toNat)] : List (Instr × State × BitVec 8)),
      ∃ t, exec row.1 s = .next t ∧ s.answered row.2.1 t row.2.2) ∧
  (∀ (s : State) (order : List Byte) (g : Bool), s.pfServed → order.length = 1024 →
    (orKind (ofLeBytes order) = 1 → ∃ t, exec (.expel .pf order g) s = .next t ∧
      s.answered (s.managerOrder order g).1 t (s.managerOrder order g).2) ∧
    (orKind (ofLeBytes order) = 2 → ∃ t, exec (.readmit .pf order g) s = .next t ∧
      s.answered (s.managerOrder order g).1 t (s.managerOrder order g).2) ∧
    (orKind (ofLeBytes order) = 3 → ∃ t, exec (.setKeys .pf order g) s = .next t ∧
      s.answered (s.managerOrder order g).1 t (s.managerOrder order g).2)) ∧
  (∀ (s : State) (offset : BitVec 32) (data : List Byte), s.pfServed → offset.toNat % 4096 = 0 → data.length % 4096 = 0 → 0 < data.length →
    data.length ≤ 16 * 2 ^ 20 → offset.toNat + data.length ≤ 16384 * 4096 →
    ∃ t, exec (.imageWrite .pf offset data) s = .next t ∧ s.answered (s.writeImage offset.toNat data).1 t (s.writeImage offset.toNat data).2) ∧
  (∀ (s : State) (x : BitVec 8), s.pfServed →
    (x = 0 → ∃ t, exec (.keeperTestModeWrite .pf x) s = .next t ∧ s.answered (s.setObj 0xE003 0 0 0) t rsNone) ∧
    (x = 1 ∨ x = 2 ∨ x = 4 ∨ x = 5 → ∃ t, exec (.keeperTestModeWrite .pf x) s = .next t ∧
      s.answered { s with rw := setRec s.rw 0xE003 0 0 x.toNat, keeper := { s.keeper with sessions := [] } } t rsNone) ∧
    (x = 3 ∨ 5 < x.toNat → ∃ t, exec (.keeperTestModeWrite .pf x) s = .next t ∧ s.answered s t rsRange))

/-- What the version orders do: a COMMIT of the staging number whose checks pass is PENDING for the boundary 50 µs on, one whose checks
fail leaves its report; a REVERT cancels it, or orders the previous version; a CONFIRM in time stores the version; a new staging copy is a
copy of the active version numbered one above the highest. A COMMIT of another number has no effect. The model's own readings it rests on:
assumptions 109, 113, 114. -/
def Obligations.VersionOrders : Prop :=
  (∀ (s : State) (n : BitVec 32), s.vers.stagingNoC = ~~~s.vers.stagingNo → s.vers.stagingNo = n → s.vers.phase = .confirmed →
    s.vers.due = none →
    (s.versionFault s.vers.staging = none → (s.commitVersion n).2 = rsNone ∧ (s.commitVersion n).1 = { s with
      vers := { s.vers with phase := .pending, due := some (.commit, s.time.ticks + ticksOfUs 50) },
      chr := { s.chr with gated := (s.commitVersion n).1.chr.gated },
      integ := { s.integ with ledgers := (s.commitVersion n).1.integ.ledgers } }) ∧
    (∀ f, s.versionFault s.vers.staging = some f →
      s.commitVersion n = ({ s with vers := { s.vers with report := f.word } }, rsCheck))) ∧
  (∀ (s : State) (n : BitVec 32), s.vers.stagingNoC = ~~~s.vers.stagingNo → s.vers.stagingNo ≠ n → s.commitVersion n = (s, rsState)) ∧
  (∀ (s : State) (n : BitVec 32), s.vers.stagingNoC = ~~~s.vers.stagingNo → s.vers.stagingNo = n →
    s.vers.phase ≠ .confirmed ∨ s.vers.due ≠ none → s.commitVersion n = (s, rsState)) ∧
  (∀ (s : State) (n : BitVec 32), s.vers.activeNoC = ~~~s.vers.activeNo → s.vers.activeNo = n →
    (s.vers.phase = .pending → (s.revertVersion n).2 = rsNone ∧ (s.revertVersion n).1 = { s with
      vers := { s.vers with phase := .confirmed, due := none }, chr := { s.chr with gated := (s.revertVersion n).1.chr.gated } }) ∧
    (s.vers.phase ≠ .pending → s.vers.previousValid = false ∨ s.vers.previousRejected = true → s.revertVersion n = (s, rsState)) ∧
    (s.vers.phase ≠ .pending → s.vers.previousValid = true → s.vers.previousRejected = false → s.vers.due = none →
      (s.revertVersion n).2 = rsNone ∧ (s.revertVersion n).1.vers = { s.vers with due := some (.revert, s.time.ticks + ticksOfUs 50) })) ∧
  (∀ (s : State) (n : BitVec 32), s.vers.activeNoC = ~~~s.vers.activeNo → s.vers.activeNo = n →
    (s.vers.phase = .unconfirmed → s.deadlineLeft s.chr.periodCount ≠ none → s.deadlinePassed = false → s.vers.slotOrder ≠ none →
      ∃ t, s.confirmVersion n true = (t, rsNone) ∧ t = { s with vers := t.vers } ∧ t.vers.phase = .confirmed ∧ t.vers.deadline = 0 ∧
        t.vers.stored = true ∧ t.vers.active = s.vers.active ∧
        ∃ i, i < 2 ∧ Tab.get {} t.vers.slots i = { number := n, numberC := ~~~n, state := 1, verified := true, body := s.vers.active }) ∧
    (s.vers.phase = .unconfirmed → s.deadlinePassed = true → ∀ g, s.confirmVersion n g = (s, rsState)) ∧
    (s.vers.phase = .unconfirmed → s.deadlineLeft s.chr.periodCount ≠ none → s.deadlinePassed = false →
      (s.confirmVersion n false).2 = rsFlash ∧ (s.confirmVersion n false).1.vers.phase = .confirmed) ∧
    (s.vers.phase = .unconfirmed → s.deadlineLeft s.chr.periodCount = none → ∀ g, (s.confirmVersion n g).2 = rsState ∧
      (s.confirmVersion n g).1.vers = s.vers)) ∧
  (∀ s : State, s.vers.phase ≠ .pending → s.resetStaging 1 = ({ s with vers := { s.vers with
    staging := s.vers.active, counter := s.vers.counter + 1, stagingNo := s.vers.counter + 1, stagingNoC := ~~~(s.vers.counter + 1) } },
    rsNone)) ∧
  (∀ s : State, s.vers.phase = .pending → s.resetStaging 1 = (s, rsState))

/-- What the other orders do: resets fall due 1 ms on; the firmware commands act on the slots; fleet orders advance LastSequence, wait for
a boundary or replace the key set; a core whose quarantine is cleared is marked to return; controls wait for the boundary and a snapshot
is requested. The model's own readings it rests on: assumptions 109, 125, 138. -/
def Obligations.ModuleOrders : Prop :=
  (∀ s : State, s.start.resetDue = none →
    s.orderReset 1 = ({ s with start := { s.start with resetDue := some (true, s.time.ticks + ticksOfUs 1000) } }, rsNone) ∧
    s.orderReset 2 = ({ s with start := { s.start with resetDue := some (false, s.time.ticks + ticksOfUs 1000) } }, rsNone)) ∧
  (∀ s : State, (s.start.image 0).stateCode ≠ 2 → (s.start.image 1).stateCode ≠ 2 → s.eraseInactive = (s.setImage s.otherSlot {}, rsNone)) ∧
  (∀ s : State, (s.start.image 0).stateCode = 2 ∨ (s.start.image 1).stateCode = 2 → s.eraseInactive = (s, rsState)) ∧
  (∀ (s : State) (i : ImageSlot), i = s.start.image s.otherSlot →
    (i.stateCode ≠ 0 ∨ i.written = false → s.armTrial = (s, rsState)) ∧
    (i.stateCode = 0 → i.written = true →
      s.armTrial = (if s.slotVerifies i = true ∧ i.stage1Good = true then (s.setImage s.otherSlot { i with state := 2, attempts := 0 }, rsNone)
        else (s, rsCheck)))) ∧
  (∀ (s : State) (k : Nat) (i : ImageSlot), k = s.start.bootedSlot.toNat → i = s.start.image k → s.start.recovery = false →
    (i.stateCode = 2 → s.confirmRunning =
      (s.setImage k { i with state := 1, confirmSeq := (s.start.image (1 - k)).confirmSeq + 1 }, rsNone)) ∧
    (i.stateCode ≠ 2 → s.confirmRunning = (s, rsState)) ∧
    (i.stateCode = 1 → fuseCounter s.start.fuses < ihSecurityVersion i.header →
      s.advanceRollback.2 = rsNone ∧
      s.advanceRollback.1.start.fuses = s.start.fuses ||| BitVec.ofNat 64 (2 ^ ihSecurityVersion i.header - 1)) ∧
    (i.stateCode = 1 → ihSecurityVersion i.header ≤ fuseCounter s.start.fuses → s.advanceRollback = (s, rsState))) ∧
  (∀ (s : State) (offset : Nat) (data : List Byte), offset % 4096 = 0 → data.length % 4096 = 0 → data ≠ [] →
    offset + data.length ≤ 16384 * 4096 →
    ∃ i, s.writeImage offset data = (s.setImage s.otherSlot i, rsNone) ∧ i.written = true ∧
      (∀ k, k < data.length → some (Tab.get 0xFF i.content (offset + k)) = data[k]?) ∧
      (∀ a, (a < offset ∨ offset + data.length ≤ a) → Tab.get 0xFF i.content a = Tab.get 0xFF (s.start.image s.otherSlot).content a)) ∧
  (∀ (s : State) (d : BitVec 512), (s.start.integratorLocked = true → s.writeIntegratorDigest d = (s, rsState)) ∧
    (s.start.integratorLocked = false → s.writeIntegratorDigest d =
      ({ s with start := { s.start with integratorDigest := d, integratorLocked := true } }, rsNone))) ∧
  (∀ (s : State) (order : List Byte) (r : Nat), r = ofLeBytes order → order.length = 1024 → s.orderGood r = true →
    ∃ t, s.managerOrder order true = (t, rsNone) ∧
      t = { s with vers := { s.vers with settings := t.vers.settings }, integ := t.integ, freeCount := t.freeCount, host := t.host } ∧
      t.integ.lastSequence = BitVec.ofNat 64 (orSequence r) ∧
      (orKind r = 1 → t.integ.orderPending = some (true, s.time.ticks + ticksOfUs 50)) ∧
      (orKind r = 2 → t.integ.orderPending = some (false, s.time.ticks + ticksOfUs 50)) ∧
      (orKind r = 3 → t.integ.managerKeys = s.stagedKeys ∧ t.integ.quorum = BitVec.ofNat 8 s.stagedQuorum)) ∧
  (∀ (s : State) (order : List Byte) (g : Bool), s.orderGood (ofLeBytes order) = false →
    (s.managerOrder order g).2 = rsQuorum ∧ (s.managerOrder order g).1.integ.lastSequence = s.integ.lastSequence ∧
    (s.managerOrder order g).1.integ.managerKeys = s.integ.managerKeys ∧
    (s.managerOrder order g).1.integ.orderPending = s.integ.orderPending) ∧
  (∀ (s : State), s.integ.managerKeys = [] → quorumFits s.stagedQuorum s.stagedKeys.length = true →
    (s.applyKeys 1 true).2 = rsNone ∧ (s.applyKeys 1 true).1.integ.managerKeys = s.stagedKeys ∧
    (s.applyKeys 1 true).1.integ.quorum = BitVec.ofNat 8 s.stagedQuorum) ∧
  (∀ (s : State) (g : Bool), s.integ.managerKeys ≠ [] → s.applyKeys 1 g = (s, rsState)) ∧
  (∀ (s : State) (n : Fin 48), (s.core n).health = .quarantined →
    s.clearQuarantine (BitVec.ofNat 16 (6 * 256 + n.val)) =
      (s.setCore n { s.core n with returning := true, parityTimes := [] }, rsNone)) ∧
  (∀ (s : State) (i r : Nat), (controlGood i r = false → s.writeControl i r = (s, rsRange)) ∧
    (controlGood i r = true → s.writeControl i r = ({ s with ctrs := { s.ctrs with
      waiting := Tab.set none s.ctrs.waiting i (some (BitVec.ofNat 256 r)) } }, rsNone))) ∧
  (∀ s : State, s.requestSnapshot 1 = ({ s with ctrs := { s.ctrs with snapRequested := true } }, rsNone))

/-- Requests of the windows. A request whose block has a reserved bit set, or of an object that is absent, is refused and changes nothing
else; a virtual function's request of an object of the administrator is refused with ACCESS; an inline READ returns the object's bytes; a
WRITE of 0x9050 stores its value, and an indirect WRITE whose data could not be moved is not applied. An export is the READ of
InstanceExport, refused unless its instance is QUIESCED. The model's own readings it rests on: assumptions 106, 107, 108. -/
def Obligations.DictionaryRequests : Prop :=
  (∀ row ∈ ([(1, fun who r _ => .dictionaryRead who r .good), (2, fun who r d => .dictionaryWrite who r d .good true)] :
      List (Nat × (Requester → BitVec 512 → List Byte → Instr))),
    ∀ (s : State) (r : BitVec 512) (d : List Byte), s.pfServed → rqOpcode r.toNat = row.1 →
      (bits r.toNat 500 496 ≠ 0 ∨ bits r.toNat 471 464 ≠ 0 ∨ bits r.toNat 319 0 ≠ 0 →
        ∃ t, exec (row.2 .pf r d) s = .next t ∧ s.answered s t rsSize) ∧
      (blockFault .pf r.toNat = rsNone → findObject (rqIndex r.toNat) (rqSub r.toNat) = none →
        ∃ t, exec (row.2 .pf r d) s = .next t ∧ s.answered s t rsNoObject)) ∧
  (∀ row ∈ ([(1, fun who r _ => .dictionaryRead who r .good), (2, fun who r d => .dictionaryWrite who r d .good true)] :
      List (Nat × (Requester → BitVec 512 → List Byte → Instr))),
    ∀ (s : State) (n : InstanceId) (r : BitVec 512) (d : List Byte) (o : ObjInfo), s.reaches (.vf n) = true → s.serving = true →
      s.start.recovery = false → rqOpcode r.toNat = row.1 → blockFault (.vf n) r.toNat = rsNone →
      findObject (rqIndex r.toNat) (rqSub r.toNat) = some o → o.who = .admin →
      (s.inst n).life ≠ .resetting → (s.inst n).life ≠ .resetStalled →
      ∃ t, exec (row.2 (.vf n) r d) s = .next t ∧
        t = { s with vers := { s.vers with stats := t.vers.stats }, host := { s.host with windows := t.host.windows } } ∧
        (Tab.get {} t.host.windows (1 + n.toNat)).reason = rsAccess) ∧
  (∀ (s : State) (r : BitVec 512) (o : ObjInfo) (n total : Nat), s.pfServed → rqOpcode r.toNat = 1 → rqCopy r.toNat = 0 →
      rqIndirect r.toNat = false → blockFault .pf r.toNat = rsNone → findObject (rqIndex r.toNat) (rqSub r.toNat) = some o →
      o.cls ≠ .wo → o.index ≠ 0x9040 → (∀ k, o.type ≠ .pair k) → total = s.objectSize none o (rqSub r.toNat) 0 →
      readFits o total (rqOffset r.toNat) (rqLength r.toNat) = true → n = min (rqLength r.toNat) (total - rqOffset r.toNat) →
      ∃ t, exec (.dictionaryRead .pf r .good) s = .next t ∧ s.answered s t rsNone ∧
        ∃ rest, (Tab.get {} t.host.windows 0).data = s.objectBytes none o (rqSub r.toNat) 0 (rqOffset r.toNat) n ++ rest) ∧
  (∀ (s : State) (r : BitVec 512) (data : List Byte) (o : ObjInfo), s.pfServed → rqOpcode r.toNat = 2 → blockFault .pf r.toNat = rsNone →
      findObject (rqIndex r.toNat) (rqSub r.toNat) = some o → s.accessFault .pf r.toNat o = rsNone → rqIndirect r.toNat = true →
      rqLength r.toNat ≠ 0 →
      ∃ t, exec (.dictionaryWrite .pf r data .timeout true) s = .next t ∧ s.answered s t rsDma) ∧
  (∀ (s : State) (r : BitVec 512) (data : List Byte), s.pfServed → rqOpcode r.toNat = 2 → rqCopy r.toNat = 0 →
      rqIndirect r.toNat = false → blockFault .pf r.toNat = rsNone → rqIndex r.toNat = 0x9050 → rqSub r.toNat = 0 →
      rqOffset r.toNat = 0 → rqLength r.toNat = 1 → data = [1] →
      ∃ t, exec (.dictionaryWrite .pf r data .good true) s = .next t ∧ s.answered (s.setObj 0x9050 0 0 1) t rsNone) ∧
  (∀ (s : State) (offset length : BitVec 32), s.pfServed → length.toNat ≤ 3968 →
      ((s.inst (BitVec.ofNat 10 (s.obj 0x9040 1 0))).life ≠ .quiesced →
        ∃ t, exec (.instanceExport offset length) s = .next t ∧ s.answered s t rsState) ∧
      ((s.inst (BitVec.ofNat 10 (s.obj 0x9040 1 0))).life = .quiesced → offset = 0 → length = 0 →
        ∃ t, exec (.instanceExport offset length) s = .next t ∧ s.answered s t rsNone))

/-- While a commit is PENDING a write of a STAGE object and a StageReset are refused with STATE, as is a COMMIT while PENDING or
UNCONFIRMED (R382); nothing but the answer changes. The model's own readings it rests on: assumptions 106, 109. -/
def Obligations.RefusedWhilePending : Prop :=
  (∀ (s : State) (who : Requester) (r : Nat) (o : ObjInfo), s.vers.phase = .pending → o.cls = .stage → rqOpcode r = 2 → rqCopy r = 1 →
    o.admits who = true → (who = .pf ∨ (o.index ≠ 0xB030 ∧ o.index ≠ 0xE003)) → s.accessFault who r o = rsState) ∧
  (∀ (s : State) (r : BitVec 512) (data : List Byte) (dma : ReadResult) (g : Bool) (o : ObjInfo), s.pfServed → s.vers.phase = .pending →
    rqOpcode r.toNat = 2 → rqCopy r.toNat = 1 → blockFault .pf r.toNat = rsNone →
    findObject (rqIndex r.toNat) (rqSub r.toNat) = some o → o.cls = .stage →
    ∃ t, exec (.dictionaryWrite .pf r data dma g) s = .next t ∧ s.answered s t rsState) ∧
  (∀ (s : State) (n : BitVec 32), s.pfServed → s.vers.stagingNoC = ~~~s.vers.stagingNo →
    s.vers.phase = .pending ∨ s.vers.phase = .unconfirmed →
    ∃ t, exec (.commit .pf n) s = .next t ∧ s.answered s t rsState) ∧
  (∀ s : State, s.pfServed → s.vers.phase = .pending → ∃ t, exec (.stageReset .pf 1) s = .next t ∧ s.answered s t rsState)

/-! ### The keeper line and attestation -/

/-- The keeper line: it comes UP and goes DOWN; a frame that arrives while the line serves is counted, and dropped with a count of its own
when its FCS fails or it is not for the line; a secured message that opens renews its session, and one that does not ends it; an echo and
a solicitation of an own address are answered; an advertisement resolves a neighbour; a session ends when it has idled, and not before.
Nothing outside the keeper changes. The secured requests of an open session: the first, or one whose Sequence is one above the last, is
served and its response kept; an equal one is answered again without being served; any other is dropped and counted. The model's own
readings it rests on: assumptions 129, 130, 133. -/
def Obligations.KeeperRequests : Prop :=
  ((∀ (s : State) (sqi : BitVec 3) (polarity : Bool), s.start.running = true → s.keeper.phase ≠ .up →
     ∃ t, exec (.keeperLinkUp sqi polarity) s = .next t ∧ t = { s with keeper := t.keeper } ∧ t.keeper.phase = .up ∧ t.keeper.sqi = sqi ∧
       t.keeper.ups = s.keeper.ups + 1 ∧ t.keeper.polarity = (polarity && !s.start.klMaster) ∧ t.keeper.sessions = s.keeper.sessions) ∧
   (∀ (s : State) (sqi : BitVec 3) (polarity : Bool), s.start.running = false ∨ s.keeper.phase = .up →
     exec (.keeperLinkUp sqi polarity) s = .next s) ∧
   (∀ s : State, s.keeper.phase = .up → ∃ t, exec .keeperLinkDown s = .next t ∧
     t = { s with keeper := { s.keeper with phase := .down, sqi := 0, neighbours := [], waiting := [] }, freeCount := t.freeCount,
                  integ := t.integ, host := t.host }) ∧
   (∀ s : State, s.keeper.phase ≠ .up → exec .keeperLinkDown s = .next s) ∧
   (∀ (s : State) (good plain : Bool) (d a : BitVec 128) (tp p : BitVec 16) (b : List Byte), s.keeper.phase ≠ .up →
     exec (.keeperFrameRx good plain d tp a p b) s = .next s) ∧
   (∀ (s : State) (plain : Bool) (d a : BitVec 128) (tp p : BitVec 16) (b : List Byte), s.keeper.phase = .up → s.keeperServes = true →
     ∃ t, exec (.keeperFrameRx false plain d tp a p b) s = .next t ∧ t = { s with keeper := { s.keeper with stats := t.keeper.stats } } ∧
       Tab.get 0 t.keeper.stats 0 = Tab.get 0 s.keeper.stats 0 + 1 ∧ Tab.get 0 t.keeper.stats 2 = Tab.get 0 s.keeper.stats 2 + 1) ∧
   (∀ (s : State) (plain : Bool) (d a : BitVec 128) (tp p : BitVec 16) (b : List Byte), s.keeper.phase = .up → s.keeperServes = true →
     plain = false ∨ d ∉ s.ownAddresses ∨ tp.toNat ≠ s.keeperObject 0xE012 →
     ∃ t, exec (.keeperFrameRx true plain d tp a p b) s = .next t ∧ t = { s with keeper := { s.keeper with stats := t.keeper.stats } } ∧
       Tab.get 0 t.keeper.stats 0 = Tab.get 0 s.keeper.stats 0 + 1 ∧ Tab.get 0 t.keeper.stats 3 = Tab.get 0 s.keeper.stats 3 + 1) ∧
   (∀ (s : State) (d a : BitVec 128) (tp p : BitVec 16) (b : List Byte) (k : BitVec 2), s.keeper.phase = .up →
     s.keeperServes = true → d ∈ s.ownAddresses → tp.toNat = s.keeperObject 0xE012 → 16 ≤ b.length →
     bits (ofBeBytes (b.take 16)) 127 124 = 1 → keeperHeaderGood (ofBeBytes (b.take 16)) (b.length - 16) = true →
     bits (ofBeBytes (b.take 16)) 123 120 = 1 → s.sessionNamed (ofLeBytes ((b.drop 16).take 4)) = some k →
     ∃ t, exec (.keeperFrameRx true true d tp a p b) s = .next t ∧
       t = { s with keeper := { s.keeper with stats := t.keeper.stats, sessions := t.keeper.sessions } } ∧
       t.session k = (if (Config.spdmOpen (s.session k).keyNumber (b.drop 16)).isSome = true then
         { s.session k with lastValid := s.time.ticks } else {}) ∧ ∀ j, j ≠ k → t.session j = s.session j) ∧
   (∀ (s : State) (source destination : BitVec 128) (body : List Byte), s.keeper.phase = .up → s.keeperServes = true →
     destination ∈ s.ownAddresses → s.nextHop source = some source → (∃ mac, (source, mac) ∈ s.keeper.neighbours) →
     ∃ t, exec (.icmpv6Echo source destination body) s = .next t ∧
       t = { s with keeper := { s.keeper with out := s.keeper.out ++ [.echoReply destination source body], stats := t.keeper.stats } } ∧
       Tab.get 0 t.keeper.stats 1 = Tab.get 0 s.keeper.stats 1 + 1) ∧
   (∀ (s : State) (source target : BitVec 128) (m : BitVec 48), s.keeper.phase = .up → s.keeperServes = true → target ∈ s.ownAddresses →
     source ≠ 0 → s.nextHop source = some source → s.keeper.waiting = [] →
     ∃ t, exec (.neighbourSolicitation source target (some m)) s = .next t ∧
       t = { s with keeper := { s.keeper with out := s.keeper.out ++ [.advertisement source target], stats := t.keeper.stats,
                                              neighbours := t.keeper.neighbours } } ∧ (source, m) ∈ t.keeper.neighbours) ∧
   (∀ (s : State) (target : BitVec 128) (m : BitVec 48), s.keeper.phase = .up → s.keeperServes = true → target ∉ s.ownAddresses →
     ∃ t, exec (.neighbourAdvertisement target m) s = .next t ∧ t = { s with keeper := t.keeper } ∧ (target, m) ∈ t.keeper.neighbours ∧
       (∀ w ∈ t.keeper.waiting, w.1 ≠ target) ∧
       t.keeper.out = s.keeper.out ++ (s.keeper.waiting.filter (fun w => w.1 == target)).map (·.2)) ∧
   (∀ (s : State) (target : BitVec 128) (m : BitVec 48), s.keeper.phase = .up → s.keeperServes = true → target ∈ s.ownAddresses →
     ∃ t, exec (.neighbourAdvertisement target m) s = .next t ∧
       t = { s with keeper := t.keeper, freeCount := t.freeCount, integ := t.integ, host := t.host } ∧ target ∈ t.keeper.duplicate ∧
       t.keeper.sessions = s.keeper.sessions) ∧
   (∀ (s : State) (k : BitVec 2),
     ((s.session k).phase ≠ .closed → (s.session k).lastValid + (s.session k).idleLimit.toNat * 781250000 ≤ s.time.ticks →
       exec (.keeperSessionIdleTimeout k) s = .next (s.setSession k {})) ∧
     (s.time.ticks < (s.session k).lastValid + (s.session k).idleLimit.toNat * 781250000 →
       exec (.keeperSessionIdleTimeout k) s = .next s))) ∧
  ((∀ (s : State) (k : BitVec 2) (r : BitVec 512) (data : List Byte) (g : Bool), s.reaches (.keeper k) = true → s.serving = true →
     (s.session k).anyRequest = true →
     (BitVec.ofNat 16 (rqSequence r.toNat) = (s.session k).lastSequence →
       ∃ t, exec (.securedRequest k r data g) s = .next t ∧ t = { s with keeper := t.keeper } ∧
         (t.session k).lastSequence = (s.session k).lastSequence ∧ (t.session k).response = (s.session k).response ∧
         Tab.get 0 t.keeper.stats 5 = Tab.get 0 s.keeper.stats 5 + 1) ∧
     (BitVec.ofNat 16 (rqSequence r.toNat) ≠ (s.session k).lastSequence →
       BitVec.ofNat 16 (rqSequence r.toNat) ≠ (s.session k).lastSequence + 1 →
       ∃ t, exec (.securedRequest k r data g) s = .next t ∧ t = { s with keeper := t.keeper } ∧
         (t.session k).lastSequence = (s.session k).lastSequence ∧ t.keeper.out = s.keeper.out ∧
         Tab.get 0 t.keeper.stats 3 = Tab.get 0 s.keeper.stats 3 + 1)) ∧
   (∀ (s : State) (k : BitVec 2) (r : BitVec 512) (data : List Byte) (g : Bool), s.reaches (.keeper k) = true → s.serving = true →
     ((s.session k).anyRequest = false ∨ BitVec.ofNat 16 (rqSequence r.toNat) = (s.session k).lastSequence + 1) →
     s.start.recovery = false → blockFault (.keeper k) r.toNat = rsNone → findObject (rqIndex r.toNat) (rqSub r.toNat) = none →
     ∃ t, exec (.securedRequest k r data g) s = .next t ∧
       t = { s with keeper := t.keeper, vers := { s.vers with stats := t.vers.stats } } ∧
       (t.session k).lastSequence = BitVec.ofNat 16 (rqSequence r.toNat) ∧ (t.session k).anyRequest = true ∧
       (t.session k).lastValid = s.time.ticks ∧ Tab.get 0 t.vers.stats 1 = Tab.get 0 s.vers.stats 1 + 1))

/-- The SPDM responder in the DOE mailbox: negotiation goes version, capabilities, algorithms; digests, certificates, challenges and
measurements follow it; KEY_EXCHANGE, FINISH, HEARTBEAT, KEY_UPDATE and END_SESSION open, hold and close the session. A message before its
turn is answered with an error. Nothing outside the mailbox changes. Discovery names the protocols. The model's own readings it rests on:
assumption 131. -/
def Obligations.Attestation : Prop :=
  (∀ (s : State) (m : List Byte), s.linkUp = true → s.serving = true →
    ∃ t, exec (.getVersion .doe m) s = .next t ∧ t = { s with keeper := { s.keeper with doe := t.keeper.doe } } ∧
      t.keeper.doe.version = true ∧ t.keeper.doe.capabilities = false ∧ t.keeper.doe.algorithms = false ∧
      t.keeper.doe.session = s.keeper.doe.session) ∧
  (∀ row ∈ ([(Instr.getCapabilities, fun d => d.version, fun d => { d with capabilities := true }),
      (Instr.negotiateAlgorithms, fun d => d.capabilities, fun d => { d with algorithms := true }),
      (Instr.getDigests, fun d => d.algorithms || d.session == .opened, id),
      (Instr.getCertificate, fun d => d.algorithms || d.session == .opened, id),
      (Instr.challenge, fun d => d.algorithms || d.session == .opened, id),
      (Instr.getMeasurements, fun d => d.algorithms || d.session == .opened, id),
      (Instr.finish, fun d => d.session == .exchanged, fun d => { d with session := .opened }),
      (Instr.heartbeat, fun d => d.session == .opened, id), (Instr.keyUpdate, fun d => d.session == .opened, id),
      (Instr.endSession, fun d => d.session == .opened, fun d => { d with session := .closed })] :
      List ((SpdmPath → List Byte → Instr) × (SpdmState → Bool) × (SpdmState → SpdmState))),
    ∀ (s : State) (m : List Byte), s.linkUp = true → s.serving = true →
      ∃ t, exec (row.1 .doe m) s = .next t ∧ t = { s with keeper := { s.keeper with doe := t.keeper.doe } } ∧
        t.keeper.doe.transcript = s.keeper.doe.transcript ++ m ++ t.keeper.doe.response ∧
        (row.2.1 s.keeper.doe = true → t.keeper.doe = { (row.2.2 s.keeper.doe) with
          transcript := t.keeper.doe.transcript
          response := t.keeper.doe.response }) ∧
        (row.2.1 s.keeper.doe = false → t.keeper.doe = { s.keeper.doe with
          transcript := t.keeper.doe.transcript
          response := Config.spdmBody spdmError m [spdmUnexpected] })) ∧
  (∀ (s : State) (m : List Byte), s.linkUp = true → s.serving = true → s.keeper.doe.algorithms = true →
    (s.keeper.doe.session = .closed → ∃ t, exec (.keyExchange .doe m) s = .next t ∧
      t = { s with keeper := { s.keeper with doe := t.keeper.doe } } ∧ t.keeper.doe.session = .exchanged) ∧
    (s.keeper.doe.session ≠ .closed → ∃ t, exec (.keyExchange .doe m) s = .next t ∧
      t = { s with keeper := { s.keeper with doe := t.keeper.doe } } ∧ t.keeper.doe.session = s.keeper.doe.session ∧
      t.keeper.doe.response = Config.spdmBody spdmError m [spdmBusy])) ∧
  (∀ (s : State) (k : BitVec 2) (a : BitVec 128) (p : BitVec 16) (m : List Byte), s.keeperUp = true → s.keeperServes = true →
    (s.session k).phase = .exchanged →
    ∃ t, exec (.finish (.keeper k a p) m) s = .next t ∧ t = { s with keeper := t.keeper } ∧
      (t.session k).phase = (if Config.chainEndsAt m s.operatorRoots = true then .opened else .closed) ∧
      (Config.chainEndsAt m s.operatorRoots = true → (t.session k).anyRequest = false ∧ (t.session k).lastValid = s.time.ticks)) ∧
  (∀ (s : State) (i : BitVec 8), s.linkUp = true → s.serving = true → exec (.doeDiscovery i) s = .next { s with
    keeper := { s.keeper with doe := { s.keeper.doe with response := leBytes 4 (doeProtocol i.toNat) } } }) ∧
  (∀ (s : State) (i : BitVec 8), s.linkUp = false ∨ s.serving = false → exec (.doeDiscovery i) s = .next s)

/-! ### Integrity, power and temperature -/

/-- The log: a held record is written once 1 ms has passed since its first event and not before, to the recent events, to the ring when it
is enabled and has room, and to those that wait for the fault log when it is at least an ERROR; the fault log keeps the last 64. The
model's own readings it rests on: assumptions 3, 121. -/
def Obligations.LogWrites : Prop :=
  (∀ (s : State) (k : BitVec 16), s.integ.holding[k.toNat]? = none → exec (.eventRecordWrite k) s = .next s) ∧
  (∀ (s : State) (k : BitVec 16) (r : EventRecord), s.integ.holding[k.toNat]? = some r →
    (s.time.ticks < r.raisedAt + 781250 → exec (.eventRecordWrite k) s = .next s) ∧
    (r.raisedAt + 781250 ≤ s.time.ticks → ∃ t, exec (.eventRecordWrite k) s = .next t ∧
      t = { s with integ := t.integ, host := t.host } ∧ t.integ.holding = s.integ.holding.eraseIdx k.toNat ∧
      t.integ.faultLog = s.integ.faultLog ∧ t.integ.health = s.integ.health ∧
      (s.obj 0xA010 4 0 ≠ 1 → t.host = s.host ∧ t.integ.recent = lastN 256 (s.integ.recent ++ [r]) ∧
        t.integ.ringWritten = s.integ.ringWritten ∧
        t.integ.unlogged = s.integ.unlogged ++ (if 2 ≤ r.severity.toNat then [r] else [])) ∧
      (s.obj 0xA010 4 0 = 1 → (s.integ.ringWritten - s.integ.ringConsumed).toNat < 2 ^ s.obj 0xA010 2 0 →
        t.integ.ringWritten = s.integ.ringWritten + 1 ∧ t.integ.overflow = false ∧
        t.integ.recent = lastN 256 (s.integ.recent ++
          [{ r with phase := phaseAt s.integ.ringWritten.toNat (2 ^ s.obj 0xA010 2 0), overflow := s.integ.overflow }])) ∧
      (s.obj 0xA010 4 0 = 1 → 2 ^ s.obj 0xA010 2 0 ≤ (s.integ.ringWritten - s.integ.ringConsumed).toNat →
        t.host = s.host ∧ t.integ.ringWritten = s.integ.ringWritten ∧ t.integ.overflow = true ∧
        t.integ.dropped = s.integ.dropped + 1 ∧ t.integ.recent = lastN 256 (s.integ.recent ++ [r])))) ∧
  (∀ s : State, exec .faultLogWrite s = .next { s with
    integ := { s.integ with faultLog := lastN 64 (s.integ.faultLog ++ s.integ.unlogged), unlogged := [] } })

/-- Once a second every score decays by the multiplier, and no sooner; where no score reaches its threshold no flag is set. The sweep
leaves a state whose complemented values all check as it was; an increment neither of whose pairs checks raises its event and makes
TimeQuality FAULT. The model's own readings it rests on: assumptions 3, 124. -/
def Obligations.HealthAndSweep : Prop :=
  ((∀ s : State, s.time.ticks < s.integ.decayTicks + 781250000 → exec .healthDecay s = .next s) ∧
   (∀ s : State, s.integ.decayTicks + 781250000 ≤ s.time.ticks →
     (∀ q ∈ s.integ.health, q.2.flagged = false ∧ q.2.own = false) →
     (∀ k, (decayed (Tab.get {} s.integ.health k).score (decayMultiplier (s.obj 0xA002 0 0))).toNat <
       s.obj 0xA004 0 (thresholdOf k) * 65536) →
     ∃ t, exec .healthDecay s = .next t ∧
       t = { s with integ := { s.integ with decayTicks := s.integ.decayTicks + 781250000, health := t.integ.health } } ∧
       ∀ k, Tab.get {} t.integ.health k = { Tab.get {} s.integ.health k with
         score := decayed (Tab.get {} s.integ.health k).score (decayMultiplier (s.obj 0xA002 0 0)) })) ∧
  (∀ s : State, (∀ u l, l ∈ (s.island u).list → pairGood 384 l.value.toNat l.comp.toNat = true) →
     (∀ (e : EngineId) k, pairGood 64 (Tab.get {} (s.engine e).bounds k).value.toNat (Tab.get {} (s.engine e).bounds k).comp.toNat = true) →
     (∀ (e : EngineId) q, q ∈ (s.engine e).moorings → q.2.good = true) →
     (∀ n, (Tab.get {} s.insts n).generationC = ~~~(Tab.get {} s.insts n).generation) →
     (∀ k < s.act 0x7011 0 0, pairGood 128 (s.act 0x7010 0 k % 2 ^ 128) (s.act 0x7010 0 k >>> 128) = true) →
     (∀ q ∈ s.integ.ledgers, q.2.sizeFault = 0) → s.vers.activeNoC = ~~~s.vers.activeNo → s.vers.stagingNoC = ~~~s.vers.stagingNo →
     s.vers.previousNoC = ~~~s.vers.previousNo →
     (s.time.increment.2 = 0 → exec .complementSweep s = .next s) ∧
     (s.time.increment.2 = 2 → ∃ t, exec .complementSweep s = .next t ∧ t.time.quality = .fault ∧ t.time.units = s.time.units ∧
       t = { s with time := t.time, freeCount := t.freeCount, integ := t.integ, host := t.host }))

/-- A self-test segment of an array runs for 1,024 cycles in its turn in a SERVICE window; the one that completes the array's eight puts a
first faulty row's work on the spare, the array quarantined, and disables the array at a second; without a fault the array stays as it
was. Out of its turn, or while the engine may start nothing, the command changes nothing. 100 ms without a heartbeat fence the module:
HostReady is 0, every fetched batch is ended, and no engine holds a step. The model's own readings it rests on: assumption 56. -/
def Obligations.SelfTestAndHeartbeat : Prop :=
  ((∀ (s : State) (e : EngineId) (a : ArrayId) (row : Option (BitVec 6)) (n : BitVec 40),
     s.openWindow (engineUnit e) = none ∨ s.mayStart = false ∨ s.engineStopped e = true ∨ s.arbiterWaits e = true →
     exec (.selfTestSegment e a row n) s = .next s) ∧
   (∀ (s : State) (e : EngineId) (a : ArrayId) (row : Option (BitVec 6)) (n : BitVec 40) (l : ListEntry) (k : Nat)
     (arrays : List (EngineId × ArrayId)) (m : MatrixArray), s.openWindow (engineUnit e) = some l → winOwner l.win = ownerService →
     arrays = arraysOf (winEngines l.win) → m = (s.engine e).array a →
     s.nextSegment arrays (Tab.get 0 s.chr.selfTests (winEngines l.win)) (arrays.length + 1) = some (e, a, k) →
     s.arbiterWaits e = false → s.engineStopped e = false → s.mayStart = true → l.fits 1024 n.toNat = true → m.flight = [] →
     m.freeAt ≤ n.toNat →
     ∃ t, exec (.selfTestSegment e a row n) s = .next t ∧
       t = { s with engines := t.engines, chr := { s.chr with selfTests := t.chr.selfTests }, ctrs := t.ctrs, freeCount := t.freeCount,
                    integ := t.integ, host := t.host } ∧
       Tab.get 0 t.chr.selfTests (winEngines l.win) = (k + 1) % (8 * arrays.length) ∧
       (∀ f b, (f, b) ≠ (e, a) → (t.engine f).array b = (s.engine f).array b) ∧
       (k % 8 ≠ 7 → (t.engine e).array a = { m with
           testRows := m.testRows ++ (row.map (·.toNat)).toList, freeAt := n.toNat + 1024, slots := n.toNat + 1024, idle := acNoStep, idleOwner := none } ∧
         t.integ = s.integ) ∧
       (k % 8 = 7 → m.testRows = [] →
         (row = none → (t.engine e).array a = { m with freeAt := n.toNat + 1024, slots := n.toNat + 1024, idle := acNoStep, idleOwner := none }) ∧
         (∀ r, row = some r → r.toNat < 32 → m.sparedRow = 0xFF → (t.engine e).array a = { m with
           freeAt := n.toNat + 1024
           slots := n.toNat + 1024
           idle := acNoStep, idleOwner := none
           sparedRow := BitVec.ofNat 8 r.toNat
           latency := 161
           health := .quarantined
           bySelfTest := true
           returning := true }) ∧
         (∀ r, row = some r → m.sparedRow ≠ 0xFF → r.toNat ≠ m.sparedRow.toNat →
           (t.engine e).array a = { m with
             freeAt := n.toNat + 1024, slots := n.toNat + 1024, idle := acNoStep, idleOwner := none, health := .disabled })))) ∧
  ((∀ s : State, s.start.running = true → s.integ.fenced = false → ∃ t, exec .firmwareHeartbeatTimeout s = .next t ∧
     t = { s with batches := t.batches, engines := t.engines, radio := t.radio, cores := t.cores, ports := t.ports,
                  freeCount := t.freeCount, host := t.host, integ := t.integ } ∧
     t.integ.fenced = true ∧ t.integ.firmwareLost = true ∧ t.host.hostReady = false ∧ (∀ b ∈ t.batches, b.ended = true) ∧
     (∀ (e : EngineId) c, (Tab.get {} (t.engine e).contexts c).queue = [] ∧ (Tab.get {} (t.engine e).contexts c).runs = []) ∧
     (∀ n, (t.core n).job = none) ∧ (∀ p, (Tab.get {} t.ports p).wire = none)) ∧
   (∀ s : State, s.start.running = false → exec .firmwareHeartbeatTimeout s = .next s))

/-- A power sample: P10 is the sum of millivolts times milliamperes, the last hundred are kept, and the duties follow: at most 16 above
PowerFastLimit, 8 less in the groups of the lowest priority above PowerLimit, 4 more in those of the highest when 20 W below it; a tripped
group stays at 0. A tenth of a second above the limit with every duty at 0 raises one event. Temperature: every sensor is read; a group in
an excursion loses 8 of its duty, one under a trip all of it; at 115 °C, or when a trip has lasted 1,000 samples, the module fences itself
and asserts THERM_TRIP_N. The model's own readings it rests on: assumptions 134, 135. -/
def Obligations.PowerAndTemperature : Prop :=
  ((∀ (s : State) (rails : List (BitVec 32 × BitVec 32)), s.start.running = false → exec (.powerSample rails) s = .next s) ∧
   (∀ (s : State) (rails : List (BitVec 32 × BitVec 32)), s.start.running = true →
     ∃ t, exec (.powerSample rails) s = .next t ∧ t = { s with power := t.power } ∧ t.power.sensors = s.power.sensors ∧
       t.power.history = lastN 100 (s.power.history ++ [t.power.p10]) ∧
       (s.power.rails = [] → rails.length = 10 → t.power.p10 = (rails.map (fun q => q.1.toNat * q.2.toNat)).sum) ∧
       (∀ g < 8, s.power.tripped g = true → t.power.dutyAt g = 0) ∧
       (∀ g < 8, s.power.tripped g = false →
         (s.obj 0xC002 0 0 * 1000000 < t.power.p10 → t.power.dutyAt g = min (s.power.dutyAt g) 16) ∧
         (t.power.p10 ≤ s.obj 0xC002 0 0 * 1000000 → s.obj 0xC001 0 0 * 1000000 < t.power.mean →
           t.power.dutyAt g = if 0 < s.power.dutyAt g ∧ (∀ h < 8, 0 < s.power.dutyAt h → s.throttlePriority g ≤ s.throttlePriority h)
             then s.power.dutyAt g - 8 else s.power.dutyAt g) ∧
         (t.power.p10 ≤ s.obj 0xC002 0 0 * 1000000 → t.power.mean + 20000000 < s.obj 0xC001 0 0 * 1000000 →
           t.power.dutyAt g = if s.power.dutyAt g < 64 ∧ (∀ h < 8, s.power.dutyAt h < 64 → s.throttlePriority h ≤ s.throttlePriority g)
             then min (s.power.dutyAt g + 4) 64 else s.power.dutyAt g) ∧
         (t.power.p10 ≤ s.obj 0xC002 0 0 * 1000000 → t.power.mean ≤ s.obj 0xC001 0 0 * 1000000 →
           s.obj 0xC001 0 0 * 1000000 ≤ t.power.mean + 20000000 → t.power.dutyAt g = s.power.dutyAt g))) ∧
   (∀ s : State, s.power.overFor < 10000 ∨ s.power.overRaised = true → exec .powerLimitEvent s = .next s) ∧
   (∀ s : State, 10000 ≤ s.power.overFor → s.power.overRaised = false → ∃ t, exec .powerLimitEvent s = .next t ∧
     t = { s with power := { s.power with overRaised := true }, freeCount := t.freeCount, integ := t.integ, host := t.host })) ∧
  ((∀ (s : State) (rs : List (BitVec 16)), s.sensing = false → exec (.temperatureSample rs) s = .next s) ∧
   (∀ (s : State) (rs : List (BitVec 16)), s.sensing = true → (∀ r ∈ rs, r.toInt < 29440) →
     ∃ t, exec (.temperatureSample rs) s = .next t ∧
       t = { s with power := t.power, mem := { s.mem with channels := t.mem.channels }, engines := t.engines, ctrs := t.ctrs,
                    freeCount := t.freeCount, integ := t.integ, host := t.host } ∧
       (∀ k < 59, ∀ r, rs[k]? = some r →
         Tab.get ({} : Sensor) t.power.sensors k = (Tab.get ({} : Sensor) s.power.sensors k).read r ∧
         (11 ≤ k → (Tab.get {} t.mem.channels (k - 11)).temperature = BitVec.ofNat 8 (r.toInt / 256).toNat)) ∧
       (∀ g < 8, t.power.dutyAt g = if t.power.tripped g then 0 else if t.power.excursion g then s.power.dutyAt g - 8
         else s.power.dutyAt g) ∧
       ((∀ r ∈ rs, r.toInt < 26880) → t.engines = s.engines ∧ t.ctrs = s.ctrs)) ∧
   (∀ (s : State) (rs : List (BitVec 16)) (k : Nat) (r : BitVec 16), s.sensing = true → k < 59 → rs[k]? = some r → 29440 ≤ r.toInt →
     ∃ t, exec (.temperatureSample rs) s = .next t ∧ t.start = { s.start with thermTrip := true } ∧ t.integ.fenced = true) ∧
   (∀ (s : State) (k : Fin 59), (Tab.get ({} : Sensor) s.power.sensors k.val).tripSamples < 1000 →
     exec (.thermalTripTimeout k) s = .next s) ∧
   (∀ (s : State) (k : Fin 59), 1000 ≤ (Tab.get ({} : Sensor) s.power.sensors k.val).tripSamples →
     ∃ t, exec (.thermalTripTimeout k) s = .next t ∧ t.start = { s.start with thermTrip := true } ∧ t.integ.fenced = true ∧
       t = { s with batches := t.batches, engines := t.engines, radio := t.radio, cores := t.cores, ports := t.ports,
                    freeCount := t.freeCount, host := t.host, integ := t.integ, start := t.start }))

/-! ### Reset, start-up and boundary scan -/

/-- The resets: MOD_RST_N low, the removal of the rails, and the reset that ResetCommand ordered, which begins when its time has come.
Each keeps flash, fuses and far memory and loses near memory, the regions and the work in progress. While MOD_RST_N is low the
transmitters are off and the time outputs low, and without the rails every pad but the straps, which are inputs, is in high impedance. The
model's own readings it rests on: assumptions 136, 137. -/
def Obligations.ResetsBegin : Prop :=
  (∀ s : State, s.start.powered = false ∨ s.start.modRst = true → exec .modRstNAssert s = .next s) ∧
  (∀ s : State, s.start.powered = true → s.start.modRst = false → ∃ t, exec .modRstNAssert s = .next t ∧
    s.flashKept t ∧ t.start.modRst = true ∧ t.start.powered = true ∧ t.start.running = false ∧ t.start.images = s.start.images ∧
    t.vers = { slots := s.vers.slots, settings := s.vers.settings } ∧
    t.integ = { faultLog := lastN 64 (s.integ.faultLog ++ s.integ.unlogged) } ∧ t.mem.near = [] ∧ t.mem.regions = [] ∧
    t.batches = [] ∧ t.insts = [] ∧ t.rw = [] ∧ t.ports = [] ∧ t.fabric = {} ∧ t.time = {} ∧ t.power = {} ∧
    t.host = { perst := s.host.perst } ∧ t.tap = s.tap ∧
    (∀ b l, t.pad (.fronthaulTx b l) = .off) ∧ (∀ p, t.pad (.fabricTx p) = .off) ∧ (∀ p, t.pad (.cxlTx p) = .off) ∧ t.pad .pcieTx = .off ∧
    t.pad .keeperMdi = .highZ ∧ t.pad .ppsOut = .low ∧ t.pad .ref10mOut = .low ∧ t.pad .synceClkOutP = .low ∧ t.pad .synceClkOutN = .high ∧
    t.pad .thermTripN = .released ∧ t.pad .modAlertN = .released ∧ t.pad .flash = .highZ ∧ t.pad .tdo = .highZ ∧
    (∀ e : EngineId, (t.engine e).contexts = [] ∧ (t.engine e).moorings = [] ∧ (t.engine e).granules = [] ∧
      ∀ a, ((t.engine e).array a).health = ((s.engine e).array a).health ∧
        ((t.engine e).array a).sparedRow = ((s.engine e).array a).sparedRow ∧ ((t.engine e).array a).flight = [])) ∧
  (∀ s : State, s.start.powered = false → exec .powerDown s = .next s) ∧
  (∀ s : State, s.start.powered = true → ∃ t, exec .powerDown s = .next t ∧ s.flashKept t ∧ t.start.powered = false ∧
    t.start.running = false ∧ t.start.thermTrip = false ∧ t.start.thermalBefore = s.start.thermTrip ∧ t.start.images = s.start.images ∧
    t.integ = { faultLog := s.integ.faultLog } ∧ t.mem.near = [] ∧ t.batches = [] ∧ t.insts = [] ∧ t.rw = [] ∧ t.tap = {} ∧
    t.host = { perst := s.host.perst } ∧ (∀ g, g ≠ .straps → t.pad g = .highZ) ∧ t.pad .straps = .input) ∧
  (∀ (s : State) (found : StartupReport), s.start.resetDue = none → exec (.resetBegin found) s = .next s) ∧
  (∀ (s : State) (found : StartupReport) (whole : Bool) (tick : Nat), s.start.resetDue = some (whole, tick) →
    (s.time.ticks < tick → exec (.resetBegin found) s = .next s) ∧
    (tick ≤ s.time.ticks → ∃ t, exec (.resetBegin found) s = .next t ∧ s.flashKept t ∧ t.start.running = true ∧
      t.start.powered = s.start.powered ∧ t.start.resetDue = none ∧ t.start.lastReset = (if whole then .command else .firmware) ∧
      t.host.hostReady = true ∧ t.host.radioReady = false ∧ t.batches = [] ∧
      (t.start.recovery = true → t.mem.near = (if whole then [] else s.mem.near)) ∧
      (t.start.recovery = false → t.mem.near = t.imageCopy t.start.bootedSlot.toNat (if whole then [] else s.mem.near)) ∧
      t.time = (if whole then {} else s.time)))

/-- MOD_RST_N is released: a cold reset after the rails were applied, a thermal one after a shutdown, else one by the pad. The straps are
sampled; in boundary-scan mode nothing boots. The slot chosen boots, or there is none and the module is in recovery; either way it is
ready for the host. Released when it is not held, the pad changes nothing. Boot slots: a slot in TRIAL is tried first, and counts the
attempt; one that has had two, or that does not verify, is REJECTED; an EMPTY or REJECTED slot is not tried. The model's own readings it
rests on: assumptions 138, 140, 142. -/
def Obligations.ResetReleased : Prop :=
  ((∀ (s : State) (found : StartupReport), s.start.powered = true → s.start.modRst = false →
     exec (.modRstNRelease found) s = .next s) ∧
   (∀ (s : State) (found : StartupReport) (kind : ResetKind), s.start.powered = false ∨ s.start.modRst = true →
     kind = (if s.start.powered then .pad else if s.start.thermalBefore then .thermal else .cold) →
     ∃ t, exec (.modRstNRelease found) s = .next t ∧ s.flashKept t ∧ t.start.powered = true ∧ t.start.modRst = false ∧
       t.start.klMaster = found.klMaster ∧ t.start.testEn = found.testEn ∧ t.start.lastReset = kind ∧ t.batches = [] ∧
       (t.start.running = true ∧ t.start.recovery = false → t.mem.near = t.imageCopy t.start.bootedSlot.toNat []) ∧
       (t.start.running = false ∨ t.start.recovery = true → t.mem.near = []) ∧
       (found.testEn = true → t.start.running = false ∧ t.host.hostReady = false ∧ t.tap.drive = .highZ) ∧
       (found.testEn = false → t.start.running = true ∧ t.host.hostReady = true ∧ t.host.radioReady = false ∧ t.tap.drive = .functional ∧
         ((s.wiped.sampleStraps found).bootChoice kind = none → t.start.recovery = true ∧ t.start.bootedSlot = 0xFF) ∧
         (∀ k, (s.wiped.sampleStraps found).bootChoice kind = some k → t.start.recovery = false ∧
           t.start.bootedSlot = BitVec.ofNat 8 k ∧ t.keeper.phase = .training ∧ t.vers.phase = .confirmed ∧ t.vers.due = none ∧
           (∀ c < 48, ((Tab.get {} t.mem.channels c).state = .failedTraining ↔ ∃ x ∈ found.channelsFailed, x.val = c)))))) ∧
  ((∀ s : State, (s.start.image 0).stateCode ≠ 1 → (s.start.image 0).stateCode ≠ 2 → (s.start.image 1).stateCode ≠ 1 →
     (s.start.image 1).stateCode ≠ 2 → s.chooseSlot 3 = (s, none)) ∧
   (∀ (s : State) (k : Nat), (s.start.image k).stateCode = 2 → (s.start.image k).attempts = 2 →
     s.trySlot k = (s.setImage k { s.start.image k with state := 3 }, none)) ∧
   (∀ (s : State) (k : Nat), (s.start.image k).stateCode ≠ 2 ∨ (s.start.image k).attempts ≠ 2 →
     s.trySlot k = if s.slotVerifies (s.start.image k) = true ∧ (s.start.image k).stage1Good = true then
       (s.setImage k { s.start.image k with
         attempts := if (s.start.image k).stateCode = 2 then (s.start.image k).attempts + 1 else (s.start.image k).attempts
         verified := true }, some k)
       else (s.setImage k { s.start.image k with state := 3 }, none)) ∧
   (∀ s : State, (s.start.image 0).stateCode = 1 → (s.start.image 1).stateCode = 2 → s.bootOrder = [1, 0]) ∧
   (∀ s : State, (s.start.image 0).stateCode = 1 → (s.start.image 1).stateCode = 1 →
     s.bootOrder = if (s.start.image 0).confirmSeq.toNat < (s.start.image 1).confirmSeq.toNat then [1, 0] else [0, 1]))

/-- The test access port. While the rails are up: BYPASS shifts out one 0, and TRST_N selects IDCODE, whatever TEST_EN is; the
instructions that act on the boundary act when TEST_EN is 1 and are BYPASS when it is 0. Nothing else ever changes. The model's own
readings it rests on: assumption 142. -/
def Obligations.TestPort : Prop :=
  (∀ s : State, s.start.powered = true →
    exec .bypass s = .next { s with tap := { s.tap with instruction := 0xFF, out := [false], drive := s.padsIdle } } ∧
    exec .trstNAssert s = .next { s with tap := { s.tap with instruction := 0x01, out := [], drive := s.padsIdle } }) ∧
  (∀ row ∈ ([(.extest, 0x00, .boundary), (.extestPulse, 0x03, .pulse), (.extestTrain, 0x04, .train), (.samplePreload, 0x02, .highZ)] :
      List ((List Bool → List Bool → Instr) × BitVec 8 × PadDrive)),
    ∀ (s : State) (pads update : List Bool), pads.length = 3312 → update.length = 3312 → s.start.powered = true →
      (s.start.testEn = true → exec (row.1 pads update) s = .next { s with
        tap := { instruction := row.2.1, captured := pads, update := update, out := pads, drive := row.2.2 } }) ∧
      (s.start.testEn = false → exec (row.1 pads update) s = .next { s with
        tap := { s.tap with instruction := row.2.1, out := [false], drive := .functional } })) ∧
  (∀ row ∈ ([(.clamp, 0x05, .clamped), (.highz, 0x06, .highZ)] : List (Instr × BitVec 8 × PadDrive)),
    ∀ s : State, s.start.powered = true →
      (s.start.testEn = true → exec row.1 s = .next { s with
        tap := { s.tap with instruction := row.2.1, out := [false], drive := row.2.2 } }) ∧
      (s.start.testEn = false → exec row.1 s = .next { s with
        tap := { s.tap with instruction := row.2.1, out := [false], drive := .functional } })) ∧
  (∀ s : State, s.start.powered = false →
    ∀ i ∈ [Instr.extest [] [], .idcode, .samplePreload [] [], .extestPulse [] [], .extestTrain [] [], .clamp, .highz, .bypass, .trstNAssert],
      exec i s = .next s)

/-- The IDCODE register of stepping B0 reads 0x2920_05E7, its lowest bit first: version 2, part number 0x9200, Trewidon's 0x2F3 and the
marker; nothing outside the test port changes (R468). -/
def Obligations.IdcodeReads : Prop :=
  ∀ s : State, s.start.powered = true →
    ∃ t, exec .idcode s = .next t ∧ t = { s with tap := { s.tap with instruction := 0x01, out := t.tap.out, drive := s.padsIdle } } ∧
      t.tap.out.length = 32 ∧ (∀ k < 32, t.tap.out[k]? = some ((0x292005E7#32).getLsbD k)) ∧
      (0x292005E7#32).extractLsb 31 28 = 0x2 ∧ (0x292005E7#32).extractLsb 27 12 = 0x9200 ∧
      (0x292005E7#32).extractLsb 11 1 = 0x2F3 ∧ (0x292005E7#32).getLsbD 0 = true
end

