-- ==== Sys2Proof/Laws/Tab.lean ====
section
/-!
SUPPORT. Sparse tables: a read after a write, what a write leaves alone, and that every operation keeps the canonical form.
-/

namespace Sys2Proof.Machine

variable {α : Type}

theorem Tab.sortedFrom_none {b : Option Nat} {t : Tab α} (h : Tab.sortedFrom b t = true) : Tab.sortedFrom none t = true := by
  cases t with
  | nil => rfl
  | cons p t => simp_all [Tab.sortedFrom]

/-- Reading after an insertion. -/
@[simp] theorem Tab.get_put (d : α) (t : Tab α) (k j : Nat) (v : α) :
    Tab.get d (Tab.put t k v) j = if j = k then v else Tab.get d t j := by
  induction t with
  | nil => simp only [Tab.put, Tab.get]
  | cons p t ih =>
    obtain ⟨k', v'⟩ := p
    simp only [Tab.put]
    split
    · simp only [Tab.get]
    · split
      · subst_vars; simp only [Tab.get]; split <;> rfl
      · simp only [Tab.get, ih]
        by_cases h1 : j = k'
        · rw [if_pos h1, if_neg (by omega), if_pos h1]
        · rw [if_neg h1, if_neg h1]

/-- Reading after a removal. -/
@[simp] theorem Tab.get_erase (d : α) (t : Tab α) (k j : Nat) :
    Tab.get d (Tab.erase t k) j = if j = k then d else Tab.get d t j := by
  induction t with
  | nil => simp [Tab.erase, Tab.get]
  | cons p t ih =>
    obtain ⟨k', v'⟩ := p
    simp only [Tab.erase, List.filter_cons, decide_not] at ih ⊢
    by_cases h : k' = k
    · subst h
      simp only [decide_true, Bool.not_true, Bool.false_eq_true, if_false, Tab.get, ih]
      by_cases h1 : j = k'
      · rw [if_pos h1, if_pos h1]
      · rw [if_neg h1, if_neg h1, if_neg h1]
    · simp only [h, decide_false, Bool.not_false, if_true, Tab.get, ih]
      by_cases h1 : j = k'
      · rw [if_pos h1, if_pos h1, if_neg (by omega)]
      · rw [if_neg h1, if_neg h1]

theorem Tab.put_sortedFrom {b : Option Nat} {t : Tab α} (h : Tab.sortedFrom b t = true) (k : Nat) (v : α)
    (hb : ∀ x, b = some x → x < k) : Tab.sortedFrom b (Tab.put t k v) = true := by
  induction t generalizing b with
  | nil => cases b <;> simp_all [Tab.put, Tab.sortedFrom]
  | cons p t ih =>
    obtain ⟨k', v'⟩ := p
    simp only [Tab.put]
    split
    · cases b <;> simp_all [Tab.sortedFrom]
    · split
      · subst_vars; cases b <;> simp_all [Tab.sortedFrom]
      · simp only [Tab.sortedFrom, Bool.and_eq_true] at h ⊢
        refine ⟨h.1, ih h.2 ?_⟩
        intro x hx; simp only [Option.some.injEq] at hx; omega

theorem Tab.filter_sortedFrom {b : Option Nat} {t : Tab α} (h : Tab.sortedFrom b t = true) (p : Nat × α → Bool) :
    Tab.sortedFrom b (t.filter p) = true := by
  induction t generalizing b with
  | nil => rfl
  | cons q t ih =>
    simp only [Tab.sortedFrom, Bool.and_eq_true] at h
    rw [List.filter_cons]
    split
    · simp only [Tab.sortedFrom, Bool.and_eq_true]; exact ⟨h.1, ih h.2⟩
    · have := ih h.2
      revert this
      generalize t.filter p = u
      intro this
      cases u with
      | nil => rfl
      | cons r u =>
        cases b with
        | none => simp_all [Tab.sortedFrom]
        | some x =>
          simp only [Tab.sortedFrom, Bool.and_eq_true, decide_eq_true_eq] at h this ⊢
          exact ⟨by omega, this.2⟩

theorem Tab.mem_put {t : Tab α} {k : Nat} {v : α} {p : Nat × α} (h : p ∈ Tab.put t k v) : p = (k, v) ∨ p ∈ t := by
  induction t with
  | nil => simp_all [Tab.put]
  | cons q t ih =>
    obtain ⟨k', v'⟩ := q
    simp only [Tab.put] at h
    split at h
    · simpa using h
    · split at h
      · simp only [List.mem_cons] at h ⊢; tauto
      · simp only [List.mem_cons] at h ⊢
        rcases h with h | h
        · exact .inr (.inl h)
        · rcases ih h with h | h
          · exact .inl h
          · exact .inr (.inr h)

variable [DecidableEq α] {d : α}

theorem Tab.wf_sorted {t : Tab α} (h : Tab.wf d t = true) : Tab.sortedFrom none t = true := by
  simp only [Tab.wf, Bool.and_eq_true] at h; exact h.1

@[simp] theorem Tab.wf_nil : Tab.wf d ([] : Tab α) = true := rfl

/-- A read after a write gives the value written, and a write leaves every other key alone. -/
@[simp] theorem Tab.get_set (t : Tab α) (k j : Nat) (v : α) :
    Tab.get d (Tab.set d t k v) j = if j = k then v else Tab.get d t j := by
  unfold Tab.set
  split
  · subst_vars; exact Tab.get_erase v t k j
  · exact Tab.get_put d t k j v

/-- A write keeps the canonical form. -/
theorem Tab.wf_set {t : Tab α} (h : Tab.wf d t = true) (k : Nat) (v : α) : Tab.wf d (Tab.set d t k v) = true := by
  simp only [Tab.wf, Bool.and_eq_true, List.all_eq_true, decide_eq_true_eq] at h ⊢
  unfold Tab.set
  split
  · exact ⟨Tab.filter_sortedFrom h.1 _, fun p hp => h.2 p (List.mem_of_mem_filter hp)⟩
  · rename_i hv
    refine ⟨Tab.put_sortedFrom h.1 k v (by simp), fun p hp => ?_⟩
    rcases Tab.mem_put hp with rfl | hp
    · exact hv
    · exact h.2 p hp

theorem Tab.wf_upd {t : Tab α} (h : Tab.wf d t = true) (k : Nat) (f : α → α) : Tab.wf d (Tab.upd d t k f) = true :=
  Tab.wf_set h k _

/-- A change of one key's value. -/
@[simp] theorem Tab.get_upd (t : Tab α) (k j : Nat) (f : α → α) :
    Tab.get d (Tab.upd d t k f) j = if j = k then f (Tab.get d t k) else Tab.get d t j := Tab.get_set t k j _

theorem Tab.mapAll_sortedFrom {b : Option Nat} {t : Tab α} (h : Tab.sortedFrom b t = true) (f : Nat → α → α) :
    Tab.sortedFrom b (Tab.mapAll d f t) = true := by
  induction t generalizing b with
  | nil => rfl
  | cons p t ih =>
    obtain ⟨k, v⟩ := p
    simp only [Tab.sortedFrom, Bool.and_eq_true] at h
    simp only [Tab.mapAll]
    split
    · apply Tab.filter_sortedFrom
      have h2 := ih h.2
      revert h2
      generalize Tab.mapAll d f t = u
      intro h2
      cases u with
      | nil => rfl
      | cons q u =>
        cases b with
        | none => simp_all [Tab.sortedFrom]
        | some x =>
          simp only [Tab.sortedFrom, Bool.and_eq_true, decide_eq_true_eq] at h h2 ⊢
          exact ⟨by omega, h2.2⟩
    · simp only [Tab.sortedFrom, Bool.and_eq_true]
      exact ⟨h.1, ih h.2⟩

/-- A change of every listed value, at one key: what the change makes of the value read there, when it leaves the default alone. -/
theorem Tab.get_mapAll (t : Tab α) (f : Nat → α → α) (hf : ∀ k, f k d = d) (j : Nat) :
    Tab.get d (Tab.mapAll d f t) j = f j (Tab.get d t j) := by
  induction t with
  | nil => simp [Tab.mapAll, Tab.get, hf]
  | cons p t ih =>
    obtain ⟨k, v⟩ := p
    simp only [Tab.mapAll, Tab.get]
    by_cases h : f k v = d
    · rw [if_pos h, Tab.get_erase, ih]
      by_cases e : j = k
      · rw [if_pos e, if_pos e, e, h]
      · rw [if_neg e, if_neg e]
    · rw [if_neg h]
      simp only [Tab.get, ih]
      by_cases e : j = k
      · rw [if_pos e, if_pos e, e]
      · rw [if_neg e, if_neg e]

/-- A change of every listed value keeps the canonical form. -/
theorem Tab.wf_mapAll {t : Tab α} (h : Tab.wf d t = true) (f : Nat → α → α) : Tab.wf d (Tab.mapAll d f t) = true := by
  simp only [Tab.wf, Bool.and_eq_true, List.all_eq_true, decide_eq_true_eq] at h ⊢
  refine ⟨Tab.mapAll_sortedFrom h.1 f, ?_⟩
  have : ∀ (t : Tab α) (p : Nat × α), p ∈ Tab.mapAll d f t → p.2 ≠ d := by
    intro t
    induction t with
    | nil => intro p hp; cases hp
    | cons q t ih =>
      obtain ⟨k, v⟩ := q
      intro p hp
      simp only [Tab.mapAll] at hp
      split at hp
      · exact ih p (List.mem_of_mem_filter hp)
      · rcases List.mem_cons.1 hp with rfl | hp
        · assumption
        · exact ih p hp
  exact this t

/-- Dropping entries keeps the canonical form. -/
theorem Tab.wf_filter {t : Tab α} (h : Tab.wf d t = true) (p : Nat × α → Bool) : Tab.wf d (t.filter p) = true := by
  simp only [Tab.wf, Bool.and_eq_true, List.all_eq_true, decide_eq_true_eq] at h ⊢
  exact ⟨Tab.filter_sortedFrom h.1 p, fun q hq => h.2 q (List.mem_of_mem_filter hq)⟩

/-! ### Bytes -/

/-- A write of bytes keeps the canonical form. -/
theorem Tab.wf_writeBytes {t : Tab Byte} (h : Tab.wf 0 t = true) (a : Nat) (bs : List Byte) :
    Tab.wf 0 (Tab.writeBytes t a bs) = true := by
  induction bs generalizing t a with
  | nil => exact h
  | cons b bs ih => exact ih (Tab.wf_set h a b) (a + 1)

/-- Every byte outside those written reads as before. -/
theorem Tab.get_writeBytes_of_not_mem (t : Tab Byte) (a : Nat) (bs : List Byte) (j : Nat)
    (hj : j < a ∨ a + bs.length ≤ j) : Tab.get 0 (Tab.writeBytes t a bs) j = Tab.get 0 t j := by
  induction bs generalizing t a with
  | nil => rfl
  | cons b bs ih =>
    simp only [List.length_cons] at hj
    rw [Tab.writeBytes, ih _ (a + 1) (by omega), Tab.get_set, if_neg (by omega)]

/-- Every byte written reads as written. -/
theorem Tab.get_writeBytes_of_mem (t : Tab Byte) (a : Nat) (bs : List Byte) (i : Nat)
    (hi : i < bs.length) : Tab.get 0 (Tab.writeBytes t a bs) (a + i) = bs[i] := by
  induction bs generalizing t a i with
  | nil => cases hi
  | cons b bs ih =>
    rw [Tab.writeBytes]
    cases i with
    | zero =>
      rw [show a + 0 = a by rfl, Tab.get_writeBytes_of_not_mem _ (a + 1) bs a (by omega), Tab.get_set, if_pos rfl]
      rfl
    | succ i =>
      have := ih (Tab.set 0 t a b) (a + 1) i (by simpa using hi)
      rw [show a + (i + 1) = a + 1 + i by omega, this]
      rfl

/-- Reading back the bytes written. -/
theorem Tab.readBytes_writeBytes (t : Tab Byte) (a : Nat) (bs : List Byte) :
    Tab.readBytes (Tab.writeBytes t a bs) a bs.length = bs := by
  have key : ∀ (n i : Nat), i + n = bs.length →
      Tab.readBytes (Tab.writeBytes t a bs) (a + i) n = bs.drop i := by
    intro n
    induction n with
    | zero => intro i hi; simp [Tab.readBytes, List.drop_eq_nil_of_le (show bs.length ≤ i by omega)]
    | succ n ih =>
      intro i hi
      rw [Tab.readBytes, Tab.get_writeBytes_of_mem t a bs i (by omega), show a + i + 1 = a + (i + 1) by omega, ih (i + 1) (by omega)]
      exact (List.drop_eq_getElem_cons (by omega)).symm
  simpa using key bs.length 0 (by omega)

end Sys2Proof.Machine
end

