-- ==== Sys2Proof/Laws/Keeps.lean ====
section
/-!
SUPPORT. What every operation of the machine keeps: the queue of waiting commands, and the canonical form of memory. The lemmas of
the other files of this family say it once per operation, so that no proof about a command unfolds the operations under it.
-/

namespace Sys2Proof.Machine

/-- From s to t the queue stayed as it was, and memory that was in canonical form still is. -/
structure Keeps (s t : State) : Prop where
  queue : t.pending = s.pending
  memory : s.mem.wf = true → t.mem.wf = true

theorem Keeps.refl (s : State) : Keeps s s := ⟨rfl, id⟩

theorem Keeps.trans {r s t : State} (h : Keeps r s) (g : Keeps s t) : Keeps r t :=
  ⟨g.queue.trans h.queue, fun m => g.memory (h.memory m)⟩

theorem Memory.wf_near {m : Memory} (h : m.wf = true) : Tab.wf 0 m.near = true := by
  simp only [Memory.wf, Bool.and_eq_true] at h; exact h.1

theorem Memory.wf_far {m : Memory} (h : m.wf = true) : Tab.wf 0 m.far = true := by
  simp only [Memory.wf, Bool.and_eq_true] at h; exact h.2

theorem Memory.wf_mk {m : Memory} (h : Tab.wf 0 m.near = true) (g : Tab.wf 0 m.far = true) : m.wf = true := by
  simp only [Memory.wf, Bool.and_eq_true]; exact ⟨h, g⟩

/-- A state that differs from t in neither the queue nor the bytes of memory. -/
theorem Keeps.of_same {r t u : State} (h : Keeps r t) (hq : u.pending = t.pending) (hn : u.mem.near = t.mem.near)
    (hf : u.mem.far = t.mem.far) : Keeps r u :=
  h.trans ⟨hq, fun m => Memory.wf_mk (hn ▸ Memory.wf_near m) (hf ▸ Memory.wf_far m)⟩

/-- A state with the same queue whose memory is in canonical form when that of t is. -/
theorem Keeps.of_mem {r t u : State} (h : Keeps r t) (hq : u.pending = t.pending) (hm : t.mem.wf = true → u.mem.wf = true) : Keeps r u :=
  h.trans ⟨hq, hm⟩

section
variable {r t : State} {a1} {a2} {a3} {a4} {a5} {a6} {a7} {a8} {a9} {a10} {a11} {a12} {a13} {a14} {a15} {a17} {a18} {a19} {a20} {a21} {a22} {a23} {a24} {a25} {a26} {a27}

/-- A record update that leaves memory as it is. -/
theorem Keeps.update (h : Keeps r t) : Keeps r (State.mk t.pending a1 a2 a3 a4 a5 a6 a7 a8 a9 a10 a11 a12 a13 a14 a15 t.mem a17 a18 a19 a20 a21 a22 a23 a24 a25 a26 a27) :=
  Keeps.of_same h rfl rfl rfl

/-- A record update that leaves the bytes of memory as they are. -/
theorem Keeps.updateMem {b1 b3 b4 b5 b6 b7 b8} (h : Keeps r t) :
    Keeps r (State.mk t.pending a1 a2 a3 a4 a5 a6 a7 a8 a9 a10 a11 a12 a13 a14 a15 (Memory.mk t.mem.near b1 t.mem.far b3 b4 b5 b6 b7 b8) a17 a18 a19 a20 a21 a22 a23 a24 a25 a26 a27) :=
  Keeps.of_same h rfl rfl rfl

/-- A record update that writes bytes of memory. -/
theorem Keeps.writeMem {m} (h : Keeps r t) (hm : t.mem.wf = true → m.wf = true) :
    Keeps r (State.mk t.pending a1 a2 a3 a4 a5 a6 a7 a8 a9 a10 a11 a12 a13 a14 a15 m a17 a18 a19 a20 a21 a22 a23 a24 a25 a26 a27) :=
  Keeps.of_mem h rfl hm
end

theorem Keeps.ite {r a b : State} {c : Prop} [Decidable c] (ha : Keeps r a) (hb : Keeps r b) : Keeps r (if c then a else b) := by
  split <;> assumption

theorem Keeps.pair {α : Type} {r s : State} {v : α} (h : Keeps r s) : Keeps r (s, v).1 := h

theorem Keeps.pairSnd {α : Type} {r s : State} {v : α} (h : Keeps r s) : Keeps r (v, s).2 := h

theorem Keeps.optElim {α : Type} {r a : State} {o : Option α} {f : α → State} (ha : Keeps r a) (hf : ∀ x, Keeps r (f x)) :
    Keeps r (o.elim a f) := by
  cases o with
  | none => exact ha
  | some x => exact hf x

theorem Keeps.optElimFst {α β : Type} {r : State} {a : State × β} {o : Option α} {f : α → State × β} (ha : Keeps r a.1)
    (hf : ∀ x, Keeps r (f x).1) : Keeps r (o.elim a f).1 := by
  cases o with
  | none => exact ha
  | some x => exact hf x

theorem Keeps.iteFst {α : Type} {r : State} {a b : State × α} {c : Prop} [Decidable c] (ha : Keeps r a.1) (hb : Keeps r b.1) :
    Keeps r (if c then a else b).1 := by
  split <;> assumption

theorem Keeps.iteSnd {α : Type} {r : State} {a b : α × State} {c : Prop} [Decidable c] (ha : Keeps r a.2) (hb : Keeps r b.2) :
    Keeps r (if c then a else b).2 := by
  split <;> assumption

theorem Keeps.foldl {α : Type} {r s : State} {f : State → α → State} {l : List α} (h : Keeps r s)
    (hf : ∀ s x, Keeps r s → Keeps r (f s x)) : Keeps r (l.foldl f s) := by
  induction l generalizing s with
  | nil => exact h
  | cons x l ih => exact ih (hf s x h)

theorem Keeps.foldl_fst {α β : Type} {r : State} {a : State × β} {f : State × β → α → State × β} {l : List α} (h : Keeps r a.1)
    (hf : ∀ a x, Keeps r a.1 → Keeps r (f a x).1) : Keeps r (l.foldl f a).1 := by
  induction l generalizing a with
  | nil => exact h
  | cons x l ih => exact ih (hf a x h)

theorem Keeps.fst {α : Type} {r s : State} {p : State × α} {v : α} (h : p = (s, v)) (hp : Keeps r p.1) : Keeps r s := by
  subst h; exact hp

theorem Keeps.snd {α : Type} {r s : State} {p : α × State} {v : α} (h : p = (v, s)) (hp : Keeps r p.2) : Keeps r s := by
  subst h; exact hp

end Sys2Proof.Machine
end

