-- ==== Sys2Proof/Laws/KeepsA.lean ====
section
/-!
SUPPORT. What the operations of Objects, Ops, Counting, Shared, Characteristic, Submission, HostPort, BoundaryScan, FabricSend, Memory, Steps keep: the queue of commands and the canonical form
of memory.
-/

namespace Sys2Proof.Machine

/-! ### Objects -/

theorem State.setObj_keeps {z : State} {s : State} {index sub record v : Nat} (hk : Keeps z s) :
    Keeps z (State.setObj s index sub record v) := by
  unfold State.setObj
  exact (.update hk)

/-! ### Ops -/

theorem State.draw_keeps {z : State} {s : State} (hk : Keeps z s) :
    Keeps z (State.draw s).2 := by
  unfold State.draw
  exact (.pairSnd (.update hk))

theorem State.setEngine_keeps {z : State} {s : State} {e : EngineId} {x : Engine} (hk : Keeps z s) :
    Keeps z (State.setEngine s e x) := by
  unfold State.setEngine
  exact (.update hk)

theorem State.updEngine_keeps {z : State} {s : State} {e : EngineId} {f : Engine → Engine} (hk : Keeps z s) :
    Keeps z (State.updEngine s e f) := by
  unfold State.updEngine
  exact (State.setEngine_keeps hk)

theorem State.setEctx_keeps {z : State} {s : State} {e : EngineId} {c : ContextId} {v : EngineContext} (hk : Keeps z s) :
    Keeps z (State.setEctx s e c v) := by
  unfold State.setEctx
  exact (State.updEngine_keeps hk)

theorem State.setInst_keeps {z : State} {s : State} {n : InstanceId} {v : Inst} (hk : Keeps z s) :
    Keeps z (State.setInst s n v) := by
  unfold State.setInst
  exact (.update hk)

theorem State.setCell_keeps {z : State} {s : State} {c : CellId} {v : Cell} (hk : Keeps z s) :
    Keeps z (State.setCell s c v) := by
  unfold State.setCell
  exact (.update hk)

theorem State.setCore_keeps {z : State} {s : State} {c : Fin 48} {v : SignalCore} (hk : Keeps z s) :
    Keeps z (State.setCore s c v) := by
  unfold State.setCore
  exact (.update hk)

theorem State.setPort_keeps {z : State} {s : State} {p : Fin 84} {v : Port} (hk : Keeps z s) :
    Keeps z (State.setPort s p v) := by
  unfold State.setPort
  exact (.update hk)

theorem State.setChannel_keeps {z : State} {s : State} {c : Fin 48} {v : Channel} (hk : Keeps z s) :
    Keeps z (State.setChannel s c v) := by
  unfold State.setChannel
  exact (.updateMem hk)

theorem State.setPeer_keeps {z : State} {s : State} {p : BitVec 12} {v : Peer} (hk : Keeps z s) :
    Keeps z (State.setPeer s p v) := by
  unfold State.setPeer
  exact (.update hk)

theorem State.setIsland_keeps {z : State} {s : State} {u : UnitId} {i : Island} (hk : Keeps z s) :
    Keeps z (State.setIsland s u i) := by
  unfold State.setIsland
  exact (.update hk)

theorem State.count_keeps {z : State} {s : State} {key n : Nat} (hk : Keeps z s) :
    Keeps z (State.count s key n) := by
  unfold State.count
  exact (.update hk)

theorem State.countEngine_keeps {z : State} {s : State} {e : EngineId} {place n : Nat} (hk : Keeps z s) :
    Keeps z (State.countEngine s e place n) := by
  unfold State.countEngine
  exact (State.count_keeps hk)

theorem State.countPort_keeps {z : State} {s : State} {p : Fin 84} {place : Nat} (hk : Keeps z s) :
    Keeps z (State.countPort s p place) := by
  unfold State.countPort
  exact (State.count_keeps hk)

theorem State.portStat_keeps {z : State} {s : State} {p : Fin 84} {place n : Nat} (hk : Keeps z s) :
    Keeps z (State.portStat s p place n) := by
  unfold State.portStat
  exact (State.setPort_keeps hk)

theorem State.discardPost_keeps {z : State} {s : State} {w : PostedWrite} (hk : Keeps z s) :
    Keeps z (State.discardPost s w) := by
  unfold State.discardPost
  split
  · exact (.update hk)
  · exact (.update hk)
  · exact (.update hk)
  · exact hk

theorem State.post_keeps {z : State} {s : State} {w : PostedWrite} (hk : Keeps z s) :
    Keeps z (State.post s w) := by
  unfold State.post
  exact (.ite (.update hk) (State.discardPost_keeps hk))

theorem State.msix_keeps {z : State} {s : State} {f : Source} {vector : Nat} (hk : Keeps z s) :
    Keeps z (State.msix s f vector) := by
  unfold State.msix
  exact (.ite (State.post_keeps hk) (.update hk))

theorem State.sensed_keeps {z : State} {s : State} {u : UnitId} (hk : Keeps z s) :
    Keeps z (State.sensed s u).2 := by
  unfold State.sensed
  exact (.pairSnd (State.draw_keeps (State.draw_keeps (State.draw_keeps hk))))

theorem State.writeEvent_keeps {z : State} {s : State} {r : EventRecord} (hk : Keeps z s) :
    Keeps z (State.writeEvent s r) := by
  unfold State.writeEvent
  exact (.ite (.ite (.ite (State.post_keeps (.update hk)) (State.msix_keeps (State.post_keeps (.update hk)))) (.update hk)) (.update hk))

theorem State.holdEvent_keeps {z : State} {s : State} {e : EventSpec} (hk : Keeps z s) :
    Keeps z (State.holdEvent s e) := by
  unfold State.holdEvent
  exact (.ite (.update hk) (.ite (State.writeEvent_keeps (.update (State.sensed_keeps hk))) (.update (.update (State.sensed_keeps hk)))))

theorem State.scoreEvent_keeps {z : State} {s : State} {part kind : Nat} (hk : Keeps z s) :
    Keeps z (State.scoreEvent s part kind) := by
  unfold State.scoreEvent
  exact (.update hk)

theorem State.reflag_keeps {z : State} {s : State} {part : Nat} (hk : Keeps z s) :
    Keeps z (State.reflag s part).1 := by
  unfold State.reflag
  exact (.iteFst (.pair hk) (.pair (.update hk)))

theorem State.healthEvent_keeps {z : State} {s : State} {part : Nat} (hk : Keeps z s) :
    Keeps z (State.healthEvent s part) := by
  unfold State.healthEvent
  exact (State.scoreEvent_keeps (State.holdEvent_keeps hk))

theorem State.reflagAll_keeps {z : State} {s : State} {part : Nat} (hk : Keeps z s) :
    Keeps z (State.reflagAll s part) := by
  unfold State.reflagAll
  exact (.ite (State.healthEvent_keeps (State.reflag_keeps (.ite (State.healthEvent_keeps (State.reflag_keeps hk)) (State.reflag_keeps hk)))) (State.reflag_keeps (.ite (State.healthEvent_keeps (State.reflag_keeps hk)) (State.reflag_keeps hk))))

theorem State.raise_keeps {z : State} {s : State} {e : EventSpec} (hk : Keeps z s) :
    Keeps z (State.raise s e) := by
  unfold State.raise
  exact (State.reflagAll_keeps (State.scoreEvent_keeps (State.holdEvent_keeps hk)))

theorem State.raiseIf_keeps {z : State} {s : State} {c : Bool} {e : EventSpec} (hk : Keeps z s) :
    Keeps z (State.raiseIf s c e) := by
  unfold State.raiseIf
  exact (.ite (State.raise_keeps hk) hk)

theorem State.noteWrap_keeps {z : State} {s : State} {area : Nat} {unit : UnitId} {diff : Option Int} (hk : Keeps z s) :
    Keeps z (State.noteWrap s area unit diff) := by
  unfold State.noteWrap
  exact (State.raiseIf_keeps hk)

theorem State.raiseConditions_keeps {z : State} {s : State} {sts : List (BitVec 8)} {ctx : Option ContextId} {inst : Option InstanceId} (hk : Keeps z s) :
    Keeps z (State.raiseConditions s sts ctx inst) := by
  unfold State.raiseConditions
  exact (.foldl hk (fun _ _ hk => (State.raise_keeps hk)))

theorem State.raiseStatuses_keeps {z : State} {s : State} {sts : List (BitVec 8)} {ctx : Option ContextId} (hk : Keeps z s) :
    Keeps z (State.raiseStatuses s sts ctx) := by
  unfold State.raiseStatuses
  exact (.foldl hk (fun _ _ hk => (State.raise_keeps hk)))

/-! ### Counting -/

theorem State.progEvent_keeps {z : State} {s : State} {host : List Nat} {v : CountEvent} (hk : Keeps z s) :
    Keeps z (State.progEvent s host v) := by
  unfold State.progEvent
  exact (.update hk)

theorem State.progEngine_keeps {z : State} {s : State} {e : EngineId} {c : ContextId} {code amount : Nat} {address : Option Nat} (hk : Keeps z s) :
    Keeps z (State.progEngine s e c code amount address) := by
  unfold State.progEngine
  exact (State.progEvent_keeps hk)

theorem State.countRouted_keeps {z : State} {s : State} {e : EngineId} {c : ContextId} {lines : List (BitVec 2 × W64)} (hk : Keeps z s) :
    Keeps z (State.countRouted s e c lines) := by
  unfold State.countRouted
  exact (.foldl (State.count_keeps hk) (fun _ _ hk => (State.progEvent_keeps hk)))

theorem State.countLines_keeps {z : State} {s : State} {e : EngineId} {c : ContextId} {place code : Nat} {lines : List (BitVec 2 × W64)} (hk : Keeps z s) :
    Keeps z (State.countLines s e c place code lines) := by
  unfold State.countLines
  exact (.ite (.foldl (State.countEngine_keeps hk) (fun _ _ hk => (State.progEngine_keeps hk))) (State.countRouted_keeps (.foldl (State.countEngine_keeps hk) (fun _ _ hk => (State.progEngine_keeps hk)))))

theorem State.progPort_keeps {z : State} {s : State} {p : Fin 84} {code amount cls : Nat} (hk : Keeps z s) :
    Keeps z (State.progPort s p code amount cls) := by
  unfold State.progPort
  exact (State.progEvent_keeps hk)

theorem State.countArrayCtr_keeps {z : State} {s : State} {e : EngineId} {a : ArrayId} {place n : Nat} (hk : Keeps z s) :
    Keeps z (State.countArrayCtr s e a place n) := by
  unfold State.countArrayCtr
  exact (State.count_keeps hk)

theorem State.countSlots_keeps {z : State} {s : State} {e : EngineId} {a : ArrayId} {place n : Nat} {c : ContextId} (hk : Keeps z s) :
    Keeps z (State.countSlots s e a place n c) := by
  unfold State.countSlots
  exact (State.progEngine_keeps (State.countArrayCtr_keeps hk))

theorem State.countStarved_keeps {z : State} {s : State} {e : EngineId} {a : ArrayId} {k place : Nat} {owner : Option ContextId} (hk : Keeps z s) :
    Keeps z (State.countStarved s e a k place owner) := by
  unfold State.countStarved
  split
  · split
    · exact (State.progEngine_keeps (State.countArrayCtr_keeps (State.countArrayCtr_keeps hk)))
    · exact (State.progEvent_keeps (State.countArrayCtr_keeps (State.countArrayCtr_keeps hk)))
  · split
    · exact (State.progEngine_keeps (State.countArrayCtr_keeps (State.countArrayCtr_keeps hk)))
    · exact (State.progEvent_keeps (State.countArrayCtr_keeps (State.countArrayCtr_keeps hk)))

theorem State.countIdle_keeps {z : State} {s : State} {e : EngineId} {a : ArrayId} {n place : Nat} {owner : Option ContextId} (hk : Keeps z s) :
    Keeps z (State.countIdle s e a n place owner) := by
  unfold State.countIdle
  exact (State.countStarved_keeps (State.updEngine_keeps hk))

theorem State.countPass_keeps {z : State} {s : State} {e : EngineId} {n : Nat} {a : ArrayId} {q : Pass} (hk : Keeps z s) :
    Keeps z (State.countPass s e n a q) := by
  unfold State.countPass
  exact (.ite hk (State.countArrayCtr_keeps (State.countStarved_keeps (State.updEngine_keeps (State.countIdle_keeps hk)))))

/-! ### Shared -/

theorem State.updBatch_keeps {z : State} {s : State} {id : Nat} {f : Batch → Batch} (hk : Keeps z s) :
    Keeps z (State.updBatch s id f) := by
  unfold State.updBatch
  exact (.update hk)

theorem State.dropQueued_keeps {z : State} {s : State} {id : Nat} (hk : Keeps z s) :
    Keeps z (State.dropQueued s id) := by
  unfold State.dropQueued
  exact (.update hk)

theorem State.endBatch_keeps {z : State} {s : State} {id : Nat} {st : BitVec 8} (hk : Keeps z s) :
    Keeps z (State.endBatch s id st) := by
  unfold State.endBatch
  exact (State.dropQueued_keeps (State.updBatch_keeps hk))

theorem State.noteBatch_keeps {z : State} {s : State} {id : Nat} {st : BitVec 8} (hk : Keeps z s) :
    Keeps z (State.noteBatch s id st) := by
  unfold State.noteBatch
  exact (State.updBatch_keeps hk)

theorem State.keepStatuses_keeps {z : State} {s : State} {c : ContextId} {r : Run} (hk : Keeps z s) :
    Keeps z (State.keepStatuses s c r) := by
  unfold State.keepStatuses
  exact (.ite (.foldl hk (fun _ _ hk => (State.noteBatch_keeps hk))) (State.raiseStatuses_keeps hk))

theorem State.keepContext_keeps {z : State} {s : State} {e : EngineId} {c : ContextId} (hk : Keeps z s) :
    Keeps z (State.keepContext s e c) := by
  unfold State.keepContext
  exact (.foldl hk (fun _ _ hk => (State.keepStatuses_keeps hk)))

theorem State.keepEngine_keeps {z : State} {s : State} {e : EngineId} (hk : Keeps z s) :
    Keeps z (State.keepEngine s e) := by
  unfold State.keepEngine
  exact (.foldl hk (fun _ _ hk => (State.keepContext_keeps hk)))

theorem State.endBatches_keeps {z : State} {s : State} {ids : List Nat} {st : BitVec 8} (hk : Keeps z s) :
    Keeps z (State.endBatches s ids st) := by
  unfold State.endBatches
  exact (.foldl hk (fun _ _ hk => (State.endBatch_keeps hk)))

theorem State.stopEngine_keeps {z : State} {s : State} {e : EngineId} (hk : Keeps z s) :
    Keeps z (State.stopEngine s e) := by
  unfold State.stopEngine
  exact (State.updEngine_keeps (State.endBatches_keeps (State.keepEngine_keeps hk)))

theorem State.stopGroup_keeps {z : State} {s : State} {g : Nat} (hk : Keeps z s) :
    Keeps z (State.stopGroup s g) := by
  unfold State.stopGroup
  exact (.update (.foldl hk (fun _ _ hk => (State.stopEngine_keeps hk))))

theorem State.selfFence_keeps {z : State} {s : State} (hk : Keeps z s) :
    Keeps z (State.selfFence s) := by
  unfold State.selfFence
  exact (.ite hk (.update (State.endBatches_keeps (.foldl (State.raise_keeps hk) (fun _ _ hk => (State.keepEngine_keeps hk))))))

theorem State.killPartition_keeps {z : State} {s : State} {e : EngineId} {c : ContextId} {st : BitVec 8} {owner : Option InstanceId} (hk : Keeps z s) :
    Keeps z (State.killPartition s e c st owner) := by
  unfold State.killPartition
  split
  · exact hk
  · exact (State.updEngine_keeps (State.endBatches_keeps (State.keepContext_keeps hk)))

/-! ### Characteristic -/

theorem effEdgeEmit_keeps {z : State} {u : UnitId} {index : BitVec 14} {s : State} (hk : Keeps z s) :
    Keeps z (effEdgeEmit u index s) := by
  unfold effEdgeEmit
  exact (.ite hk (.ite (State.setIsland_keeps hk) (.ite (State.setIsland_keeps hk) hk)))

theorem State.checkBounds_keeps {z : State} {s : State} {e : EngineId} {c : ContextId} (hk : Keeps z s) :
    Keeps z (State.checkBounds s e c) := by
  unfold State.checkBounds
  dsimp only
  split
  · exact hk
  · split
    · exact (State.raise_keeps (State.updEngine_keeps hk))
    · exact (State.stopEngine_keeps (State.raise_keeps hk))

theorem State.overrun_keeps {z : State} {s : State} {u : UnitId} {before new : Nat} (hk : Keeps z s) :
    Keeps z (State.overrun s u before new) := by
  unfold State.overrun
  exact (.ite (State.setIsland_keeps hk) (State.raise_keeps (.update (.ite (State.updEngine_keeps (State.setIsland_keeps hk)) (State.setIsland_keeps hk)))))

theorem State.rebaseUnit_keeps {z : State} {s : State} {u : UnitId} {d : Nat} (hk : Keeps z s) :
    Keeps z (State.rebaseUnit s u d) := by
  unfold State.rebaseUnit
  split
  · exact hk
  · exact (.update hk)
  · exact (.update hk)

theorem State.closeSlots_keeps {z : State} {s : State} {e : EngineId} {d : Nat} (hk : Keeps z s) :
    Keeps z (State.closeSlots s e d) := by
  unfold State.closeSlots
  exact (.ite hk (State.countEngine_keeps (State.countIdle_keeps (State.countIdle_keeps hk))))

theorem effWindowStartEdge_keeps {z : State} {u : UnitId} {entry : BitVec 13} {s0 : State} (hk : Keeps z s0) :
    Keeps z (effWindowStartEdge u entry s0) := by
  unfold effWindowStartEdge
  split
  · dsimp only
    split
    · exact hk
    · split
      · exact (.ite (State.selfFence_keeps (State.raise_keeps (State.setIsland_keeps (State.setIsland_keeps hk)))) (State.raise_keeps (State.setIsland_keeps (State.setIsland_keeps hk))))
      · split
        · exact (.foldl (State.updEngine_keeps (State.closeSlots_keeps (State.setIsland_keeps (State.overrun_keeps (State.raiseIf_keeps (State.setIsland_keeps hk)))))) (fun _ _ hk => (State.checkBounds_keeps hk)))
        · exact (.foldl (State.setIsland_keeps (State.overrun_keeps (State.raiseIf_keeps (State.setIsland_keeps hk)))) (fun _ _ hk => (State.checkBounds_keeps hk)))
  · dsimp only
    split
    · exact hk
    · split
      · exact (.ite (State.selfFence_keeps (State.raise_keeps (State.setIsland_keeps (State.setIsland_keeps hk)))) (State.raise_keeps (State.setIsland_keeps (State.setIsland_keeps hk))))
      · split
        · exact (State.rebaseUnit_keeps (State.setIsland_keeps (State.overrun_keeps (State.raiseIf_keeps (State.setIsland_keeps hk)))))
        · exact (State.setIsland_keeps (State.overrun_keeps (State.raiseIf_keeps (State.setIsland_keeps hk))))

theorem effWindowEndEdge_keeps {z : State} {u : UnitId} {entry : BitVec 13} {s : State} (hk : Keeps z s) :
    Keeps z (effWindowEndEdge u entry s) := by
  unfold effWindowEndEdge
  exact (.ite hk (State.setIsland_keeps hk))

theorem State.ungateFor_keeps {z : State} {s : State} {t : Tab Nat} (hk : Keeps z s) :
    Keeps z (State.ungateFor s t) := by
  unfold State.ungateFor
  exact (.update hk)

theorem effGroupGate_keeps {z : State} {group : BitVec 3} {s : State} (hk : Keeps z s) :
    Keeps z (effGroupGate group s) := by
  unfold effGroupGate
  exact (.ite hk (.update hk))

/-! ### Submission -/

theorem State.setRing_keeps {z : State} {s : State} {f : Source} {r : Ring} (hk : Keeps z s) :
    Keeps z (State.setRing s f r) := by
  unfold State.setRing
  split
  · exact (.update hk)
  · exact (State.setInst_keeps hk)

theorem State.translate_keeps {z : State} {s : State} {f : Source} {address : Nat} (hk : Keeps z s) :
    Keeps z (State.translate s f address) := by
  unfold State.translate
  exact (.ite (.update hk) hk)

theorem State.issueRead_keeps {z : State} {s : State} {f : Source} {address length : Nat} {p : ReadPurpose} (hk : Keeps z s) :
    Keeps z (State.issueRead s f address length p) := by
  unfold State.issueRead
  split
  · exact hk
  · dsimp only
    split
    · exact hk
    · exact (State.translate_keeps (.update hk))

theorem State.endRead_keeps {z : State} {s : State} {tag : Nat} (hk : Keeps z s) :
    Keeps z (State.endRead s tag) := by
  unfold State.endRead
  exact (.update hk)

theorem State.countFailed_keeps {z : State} {s : State} {index sub record : Nat} {r : ReadResult} (hk : Keeps z s) :
    Keeps z (State.countFailed s index sub record r) := by
  unfold State.countFailed
  exact (State.raise_keeps hk)

theorem State.readCount_keeps {z : State} {s : State} {address length : Nat} {p : ReadPurpose} (hk : Keeps z s) :
    Keeps z (State.readCount s address length p) := by
  unfold State.readCount
  exact (.ite hk (State.issueRead_keeps hk))

theorem State.readHostCounts_keeps {z : State} {s : State} (hk : Keeps z s) :
    Keeps z (State.readHostCounts s) := by
  unfold State.readHostCounts
  exact (.ite (State.readCount_keeps (.ite (State.readCount_keeps (State.readCount_keeps (.ite hk (State.readCount_keeps hk)))) (.ite hk (State.readCount_keeps hk)))) (.ite (State.readCount_keeps (State.readCount_keeps (.ite hk (State.readCount_keeps hk)))) (.ite hk (State.readCount_keeps hk))))

theorem State.readSummaries_keeps {z : State} {s : State} (hk : Keeps z s) :
    Keeps z (State.readSummaries s) := by
  unfold State.readSummaries
  exact (.foldl hk (fun _ _ hk => (.ite (.ite hk (State.issueRead_keeps hk)) hk)))

theorem effPollSlotStart_keeps {z : State} {window : BitVec 13} {s : State} (hk : Keeps z s) :
    Keeps z (effPollSlotStart window s) := by
  unfold effPollSlotStart
  exact (.ite hk (.ite (.update hk) (State.readHostCounts_keeps (State.readSummaries_keeps (.ite (State.readCount_keeps (.update hk)) (.update hk))))))

theorem State.fetchRecords_keeps {z s : State} {f : Source} {n want : Nat} (hk : Keeps z s) : Keeps z (s.fetchRecords f n want) := by
  induction n generalizing s want with
  | zero => rw [State.fetchRecords]; exact (State.setRing_keeps hk)
  | succ n ih =>
    cases want with
    | zero => rw [State.fetchRecords]; exact (State.setRing_keeps hk); omega
    | succ want =>
      rw [State.fetchRecords]
      exact (.ite (State.setRing_keeps hk) (ih (State.setRing_keeps (State.issueRead_keeps hk))))

theorem State.pollDone_keeps {z : State} {s : State} {f : Source} (hk : Keeps z s) :
    Keeps z (State.pollDone s f) := by
  unfold State.pollDone
  split
  · exact hk
  · exact (.ite (State.setRing_keeps hk) hk)

theorem State.resumeRing_keeps {z : State} {s : State} {f : Source} (hk : Keeps z s) :
    Keeps z (State.resumeRing s f) := by
  unfold State.resumeRing
  exact (.ite hk (State.pollDone_keeps (State.fetchRecords_keeps hk)))

theorem State.resumeRings_keeps {z : State} {s : State} (hk : Keeps z s) :
    Keeps z (State.resumeRings s) := by
  unfold State.resumeRings
  exact (.foldl (State.resumeRing_keeps hk) (fun _ _ hk => (State.resumeRing_keeps hk)))

theorem State.pollRing_keeps {z : State} {s : State} {f : Source} {word : Nat} (hk : Keeps z s) :
    Keeps z (State.pollRing s f word) := by
  unfold State.pollRing
  exact (.ite hk (.ite (State.setRing_keeps hk) (.ite (State.setRing_keeps hk) (State.pollDone_keeps (State.fetchRecords_keeps (State.setRing_keeps hk))))))

theorem effSummaryLineRead_keeps {z : State} {line : BitVec 7} {result : ReadResult} {data : BitVec 512} {s : State} (hk : Keeps z s) :
    Keeps z (effSummaryLineRead line result data s) := by
  unfold effSummaryLineRead
  split
  · exact hk
  · exact (.ite (.foldl (State.endRead_keeps hk) (fun _ _ hk => (.ite (State.pollRing_keeps hk) hk))) (State.countFailed_keeps (State.endRead_keeps hk)))

theorem State.providerCounterRead_keeps {z : State} {s : State} {result : ReadResult} {word : Nat} (hk : Keeps z s) :
    Keeps z (State.providerCounterRead s result word) := by
  unfold State.providerCounterRead
  exact (.ite (.ite (State.pollRing_keeps hk) hk) (State.countFailed_keeps hk))

theorem State.batchArrived_keeps {z : State} {s : State} {f : Source} {tag : Nat} {rd : HostRead} {result : ReadResult} {data : BitVec 512} (hk : Keeps z s) :
    Keeps z (State.batchArrived s f tag rd result data) := by
  unfold State.batchArrived
  exact (State.resumeRings_keeps (.update (State.setRing_keeps (.ite (State.endRead_keeps hk) (.update hk)))))

theorem effBatchRecordFetch_keeps {z : State} {f : Source} {result : ReadResult} {data : BitVec 512} {s : State} (hk : Keeps z s) :
    Keeps z (effBatchRecordFetch f result data s) := by
  unfold effBatchRecordFetch
  split
  · exact hk
  · exact (State.batchArrived_keeps hk)

theorem State.noteDuration_keeps {z : State} {s : State} {n : InstanceId} {d : Nat} (hk : Keeps z s) :
    Keeps z (State.noteDuration s n d) := by
  unfold State.noteDuration
  exact (State.raiseIf_keeps (State.setInst_keeps hk))

theorem State.releaseBatch_keeps {z : State} {s : State} {f : Source} {b : Batch} (hk : Keeps z s) :
    Keeps z (State.releaseBatch s f b) := by
  unfold State.releaseBatch
  exact (State.setRing_keeps (.update hk))

theorem State.writeCompletion_keeps {z : State} {s : State} {f : Source} {b : Batch} (hk : Keeps z s) :
    Keeps z (State.writeCompletion s f b) := by
  unfold State.writeCompletion
  split
  · split
    · exact (State.raiseConditions_keeps (.ite (State.msix_keeps (State.releaseBatch_keeps (State.setRing_keeps (State.post_keeps hk)))) (State.releaseBatch_keeps (State.setRing_keeps (State.post_keeps hk)))))
    · split
      · exact (State.noteDuration_keeps (State.raiseConditions_keeps (.ite (State.msix_keeps (State.releaseBatch_keeps (State.setRing_keeps (State.post_keeps hk)))) (State.releaseBatch_keeps (State.setRing_keeps (State.post_keeps hk))))))
      · exact (State.raiseConditions_keeps (.ite (State.msix_keeps (State.releaseBatch_keeps (State.setRing_keeps (State.post_keeps hk)))) (State.releaseBatch_keeps (State.setRing_keeps (State.post_keeps hk)))))
  · split
    · exact (State.raiseConditions_keeps (.ite (State.msix_keeps (State.releaseBatch_keeps (State.setRing_keeps (State.post_keeps hk)))) (State.releaseBatch_keeps (State.setRing_keeps (State.post_keeps hk)))))
    · split
      · exact (State.noteDuration_keeps (State.raiseConditions_keeps (.ite (State.msix_keeps (State.releaseBatch_keeps (State.setRing_keeps (State.post_keeps hk)))) (State.releaseBatch_keeps (State.setRing_keeps (State.post_keeps hk))))))
      · exact (State.raiseConditions_keeps (.ite (State.msix_keeps (State.releaseBatch_keeps (State.setRing_keeps (State.post_keeps hk)))) (State.releaseBatch_keeps (State.setRing_keeps (State.post_keeps hk)))))

theorem State.discardCompletion_keeps {z : State} {s : State} {f : Source} {b : Batch} (hk : Keeps z s) :
    Keeps z (State.discardCompletion s f b) := by
  unfold State.discardCompletion
  exact (State.raiseStatuses_keeps (State.raiseIf_keeps (.update (State.setRing_keeps (State.releaseBatch_keeps hk)))))

theorem effCompletionRecordWrite_keeps {z : State} {c : ContextId} {s : State} (hk : Keeps z s) :
    Keeps z (effCompletionRecordWrite c s) := by
  unfold effCompletionRecordWrite
  split
  · exact hk
  · split
    · exact (State.raiseStatuses_keeps (.update hk))
    · exact (.ite (State.discardCompletion_keeps hk) (State.writeCompletion_keeps hk))

theorem State.enableChanged_keeps {z : State} {s : State} {n : InstanceId} {old new : Bool} (hk : Keeps z s) :
    Keeps z (State.enableChanged s n old new) := by
  unfold State.enableChanged
  exact (.ite (State.setInst_keeps hk) (.ite (.ite (State.setInst_keeps hk) hk) hk))

theorem State.writeInstanceRing_keeps {z : State} {s : State} {n : InstanceId} {new : Nat} (hk : Keeps z s) :
    Keeps z (State.writeInstanceRing s n new).1 := by
  unfold State.writeInstanceRing
  exact (.iteFst (.pair hk) (.iteFst (.pair hk) (.iteFst (.pair hk) (.pair (State.enableChanged_keeps (State.setObj_keeps hk))))))

theorem State.writeProviderRing_keeps {z : State} {s : State} {new : Nat} (hk : Keeps z s) :
    Keeps z (State.writeProviderRing s new).1 := by
  unfold State.writeProviderRing
  exact (.iteFst (.pair hk) (.iteFst (.pair hk) (.iteFst (.pair hk) (.iteFst (.pair (.update (State.setObj_keeps hk))) (.pair (State.setObj_keeps hk))))))

/-! ### HostPort -/

theorem State.cacheMark_keeps {z : State} {s : State} {i : Nat} {device : Bool} {index : Nat} (hk : Keeps z s) :
    Keeps z (State.cacheMark s i device index) := by
  unfold State.cacheMark
  exact (.update hk)

theorem State.markDevice_keeps {z : State} {s : State} {address : Nat} (hk : Keeps z s) :
    Keeps z (State.markDevice s address) := by
  unfold State.markDevice
  refine Keeps.foldl ?_ (fun _ _ hk => ?_)
  · exact hk
  · split
    · dsimp only
      split
      · exact hk
      · exact (.ite hk (State.post_keeps (State.cacheMark_keeps hk)))
    · exact hk

theorem State.flushInst_keeps {z : State} {s : State} {n : InstanceId} (hk : Keeps z s) :
    Keeps z (State.flushInst s n) := by
  unfold State.flushInst
  exact (.ite hk (.ite (State.setInst_keeps hk) (State.setInst_keeps (State.issueRead_keeps hk))))

theorem State.completeHarvests_keeps {z : State} {s : State} (hk : Keeps z s) :
    Keeps z (State.completeHarvests s) := by
  unfold State.completeHarvests
  exact (.update hk)

theorem State.flushLogs_keeps {z : State} {s : State} (hk : Keeps z s) :
    Keeps z (State.flushLogs s) := by
  unfold State.flushLogs
  exact (.ite hk (.ite (State.completeHarvests_keeps (.update hk)) (State.issueRead_keeps (.update (.update hk)))))

theorem State.tryFlush_keeps {z : State} {s : State} {f : Source} (hk : Keeps z s) :
    Keeps z (State.tryFlush s f) := by
  unfold State.tryFlush
  split
  · exact (State.flushLogs_keeps hk)
  · exact (State.flushInst_keeps hk)

theorem State.countStale_keeps {z : State} {s : State} {f : Source} (hk : Keeps z s) :
    Keeps z (State.countStale s f) := by
  unfold State.countStale
  split
  · exact hk
  · exact (State.setInst_keeps hk)

theorem State.noteWrite_keeps {z : State} {s : State} {f : Source} {address : W64} (hk : Keeps z s) :
    Keeps z (State.noteWrite s f address) := by
  unfold State.noteWrite
  split
  · exact (.update hk)
  · exact (State.setInst_keeps hk)

theorem State.sendWrite_keeps {z : State} {s : State} (hk : Keeps z s) :
    Keeps z (State.sendWrite s) := by
  unfold State.sendWrite
  split
  · exact hk
  · split
    · exact hk
    · split
      · exact (State.tryFlush_keeps (State.countStale_keeps (.update hk)))
      · split
        · exact (State.noteWrite_keeps (.update (State.cacheMark_keeps hk)))
        · exact (State.tryFlush_keeps (.ite (State.translate_keeps (.update hk)) (State.noteWrite_keeps (State.translate_keeps (.update hk)))))

/-! ### BoundaryScan -/

theorem State.loadTap_keeps {z : State} {s : State} {t : Tap} (hk : Keeps z s) :
    Keeps z (State.loadTap s t) := by
  unfold State.loadTap
  exact (.ite (.update hk) hk)

theorem State.bypassTap_keeps {z : State} {s : State} {opcode : BitVec 8} (hk : Keeps z s) :
    Keeps z (State.bypassTap s opcode) := by
  unfold State.bypassTap
  exact (State.loadTap_keeps hk)

theorem State.scan_keeps {z : State} {s : State} {opcode : BitVec 8} {t : Tap} (hk : Keeps z s) :
    Keeps z (State.scan s opcode t) := by
  unfold State.scan
  exact (.ite (State.loadTap_keeps hk) (State.bypassTap_keeps hk))

theorem State.throughBoundary_keeps {z : State} {s : State} {opcode : BitVec 8} {pads update : List Bool} {drive : PadDrive} (hk : Keeps z s) :
    Keeps z (State.throughBoundary s opcode pads update drive) := by
  unfold State.throughBoundary
  exact (State.scan_keeps hk)

/-! ### FabricSend -/

theorem State.fabricStat_keeps {z : State} {s : State} {place : Nat} (hk : Keeps z s) :
    Keeps z (State.fabricStat s place) := by
  unfold State.fabricStat
  exact (.update hk)

theorem State.enqueue_keeps {z : State} {s : State} {p : Fin 84} {q : Nat} {bytes : List Byte} {origin : FrameOrigin} (hk : Keeps z s) :
    Keeps z (State.enqueue s p q bytes origin) := by
  unfold State.enqueue
  exact (State.setPort_keeps hk)

theorem State.queuePacket_keeps {z : State} {s : State} {p : BitVec 12} {n : Nat} {queueCls : BitVec 2} {h : Header} {payload : List Byte} (hk : Keeps z s) :
    Keeps z (State.queuePacket s p n queueCls h payload) := by
  unfold State.queuePacket
  exact (.ite hk (State.fabricStat_keeps (State.setPeer_keeps (State.enqueue_keeps hk))))

theorem State.sendUnnumbered_keeps {z : State} {s : State} {p : BitVec 12} {queueCls : BitVec 2} {h : Header} {payload : List Byte} (hk : Keeps z s) :
    Keeps z (State.sendUnnumbered s p queueCls h payload) := by
  unfold State.sendUnnumbered
  split
  · exact hk
  · exact (State.queuePacket_keeps hk)

theorem State.sendRequest_keeps {z : State} {s : State} {p : BitVec 12} {h : Header} {payload : List Byte} (hk : Keeps z s) :
    Keeps z (State.sendRequest s p h payload).1 := by
  unfold State.sendRequest
  split
  · exact (.iteFst (.pair hk) (.pair hk))
  · exact (.iteFst (.pair hk) (.pair (State.setPeer_keeps (State.queuePacket_keeps hk))))

theorem State.dropStaleOps_keeps {z : State} {s : State} {p : BitVec 12} {cls : BitVec 2} (hk : Keeps z s) :
    Keeps z (State.dropStaleOps s p cls) := by
  unfold State.dropStaleOps
  exact (.ite hk (.foldl (State.setPeer_keeps hk) (fun _ _ hk => (State.countStale_keeps hk))))

theorem State.pump_keeps {z s : State} {p : BitVec 12} {cls : BitVec 2} {n : Nat} (hk : Keeps z s) : Keeps z (s.pump p cls n) := by
  induction n generalizing s with
  | zero => exact hk
  | succ n ih =>
    rw [State.pump]
    dsimp only
    split
    · exact (State.dropStaleOps_keeps hk)
    · split
      · exact (State.dropStaleOps_keeps hk)
      · exact (ih (State.setPeer_keeps (.fst (by assumption) (State.sendRequest_keeps (State.dropStaleOps_keeps hk)))))

theorem State.issueOp_keeps {z : State} {s : State} {p : BitVec 12} {o : FabricOp} (hk : Keeps z s) :
    Keeps z (State.issueOp s p o).1 := by
  unfold State.issueOp
  exact (.iteFst (.pair hk) (.pair (State.pump_keeps (.update (State.setPeer_keeps hk)))))

/-! ### Memory -/

theorem State.memError_keeps {z : State} {s : State} {c : Fin 48} {place : Nat} (hk : Keeps z s) :
    Keeps z (State.memError s c place) := by
  unfold State.memError
  exact (State.setChannel_keeps hk)

theorem State.memEvent_keeps {z : State} {s : State} {c : Fin 48} {t kind : Nat} {symbols : List Nat} {u : UnitId} {cls : BitVec 2} (hk : Keeps z s) :
    Keeps z (State.memEvent s c t kind symbols u cls) := by
  unfold State.memEvent
  exact (State.raise_keeps hk)

theorem State.decodeSegment_keeps {z : State} {s : State} {c : Fin 48} {t address : Nat} {u : UnitId} {cls : BitVec 2} (hk : Keeps z s) :
    Keeps z (State.decodeSegment s c t address u cls).1 := by
  unfold State.decodeSegment
  split
  · exact (.pair hk)
  · exact (.pair (State.memEvent_keeps (State.memError_keeps hk)))
  · exact (.pair (State.memEvent_keeps (State.memError_keeps hk)))
  · exact (.iteFst (.pair hk) (.iteFst (.pair (State.memEvent_keeps (State.memError_keeps hk))) (.iteFst (.pair (State.memEvent_keeps (State.memError_keeps (.updateMem hk)))) (.iteFst (.pair (State.memEvent_keeps (State.memError_keeps (.updateMem (State.draw_keeps hk))))) (.pair (State.draw_keeps (State.draw_keeps hk)))))))

theorem State.readNearLine_keeps {z : State} {s : State} {c : Fin 48} {t address : Nat} {u : UnitId} {cls : BitVec 2} (hk : Keeps z s) :
    Keeps z (State.readNearLine s c t address u cls).1 := by
  unfold State.readNearLine
  split
  · exact (.iteFst (.pair hk) (.pair hk))
  · dsimp only
    split
    · exact (.pair hk)
    · split
      · exact (.pair (State.setChannel_keeps (State.decodeSegment_keeps hk)))
      · exact (.pair (State.decodeSegment_keeps hk))
      · exact (.pair (State.decodeSegment_keeps hk))

theorem State.unmapped_keeps {z : State} {s : State} {address : Nat} {u : UnitId} (hk : Keeps z s) :
    Keeps z (State.unmapped s address u) := by
  unfold State.unmapped
  exact (State.raise_keeps hk)

theorem State.readLine_keeps {z s : State} {address : Nat} {u : UnitId} {cls : BitVec 2} (hk : Keeps z s) :
    Keeps z (s.readLine address u cls).1 := by
  unfold State.readLine
  cases s.nearDie address with
  | some die => exact (State.readNearLine_keeps hk)
  | none =>
    cases s.farPortOf address with
    | none => exact (.pair (State.unmapped_keeps hk))
    | some p => exact (.iteFst (.pair hk) (.iteFst (.pair (State.raise_keeps hk)) (.pair hk)))

theorem State.readLines_keeps {z s : State} {address : Nat} {u : UnitId} {cls : BitVec 2} {n : Nat} (hk : Keeps z s) : Keeps z (s.readLines address u cls n).1 := by
  induction n generalizing s address with
  | zero => exact hk
  | succ n ih =>
    rw [State.readLines]
    exact ih (State.readLine_keeps hk)

theorem State.readSpan_keeps {z : State} {s : State} {address length : Nat} {u : UnitId} {cls : BitVec 2} (hk : Keeps z s) :
    Keeps z (State.readSpan s address length u cls).1 := by
  unfold State.readSpan
  exact (.iteFst (.pair hk) (.pair (State.readLines_keeps hk)))

theorem State.releaseMirror_keeps {z s : State} {segment : Nat} (hk : Keeps z s) : Keeps z (s.releaseMirror segment) := by
  unfold State.releaseMirror
  cases s.mem.mirrorAcks.find? (fun a => a.1 == segment) with
  | none => exact hk
  | some a =>
    dsimp only
    generalize s.nearDie (256 * segment) = q
    cases q with
    | none => exact (.updateMem hk)
    | some die => exact (State.setChannel_keeps (.updateMem hk))

theorem State.breakMirror_keeps {z : State} {s : State} {record : Nat} (hk : Keeps z s) :
    Keeps z (State.breakMirror s record) := by
  unfold State.breakMirror
  exact (.ite hk (.foldl (State.raise_keeps (.update hk)) (fun _ _ hk => (State.releaseMirror_keeps hk))))

theorem State.pumpMirrors_keeps {z s : State}  {n : Nat} (hk : Keeps z s) : Keeps z (s.pumpMirrors n) := by
  induction n generalizing s with
  | zero => exact hk
  | succ n ih =>
    rw [State.pumpMirrors]
    dsimp only
    split
    · exact hk
    · split
      · exact hk
      · exact (.ite (ih (State.breakMirror_keeps (State.raise_keeps hk))) (ih (.update (State.issueOp_keeps hk))))

theorem State.mirrorWrite_keeps {z : State} {s : State} {address length : Nat} {poison : Bool} (hk : Keeps z s) :
    Keeps z (State.mirrorWrite s address length poison) := by
  unfold State.mirrorWrite
  split
  · exact hk
  · exact (State.pumpMirrors_keeps (.update hk))

theorem State.putNear_keeps {z s : State} {address : Nat} {bytes : List Byte} {mark : SegMark} (hk : Keeps z s) :
    Keeps z (s.putNear address bytes mark) :=
  .writeMem hk (fun hm => by simp only [Memory.wf, Bool.and_eq_true] at hm ⊢; exact ⟨Tab.wf_writeBytes hm.1 _ _, hm.2⟩)

theorem State.ackWrites_keeps {z : State} {s : State} {c : Fin 48} {t count : Nat} {status : BitVec 8} {mirrored : Option Nat} (hk : Keeps z s) :
    Keeps z (State.ackWrites s c t count status mirrored) := by
  unfold State.ackWrites
  split
  · exact (.updateMem hk)
  · exact (State.setChannel_keeps hk)

theorem State.commitSegment_keeps {z : State} {s : State} {c : Fin 48} {t address : Nat} {h : HeldWrite} (hk : Keeps z s) :
    Keeps z (State.commitSegment s c t address h) := by
  unfold State.commitSegment
  exact (State.ackWrites_keeps (State.mirrorWrite_keeps (State.putNear_keeps (State.setChannel_keeps hk))))

theorem State.refuseSegment_keeps {z : State} {s : State} {c : Fin 48} {t : Nat} {h : HeldWrite} (hk : Keeps z s) :
    Keeps z (State.refuseSegment s c t h) := by
  unfold State.refuseSegment
  exact (State.ackWrites_keeps (State.memError_keeps (State.setChannel_keeps hk)))

theorem State.mergeSegment_keeps {z : State} {s : State} {c : Fin 48} {t address : Nat} {h : HeldWrite} {u : UnitId} (hk : Keeps z s) :
    Keeps z (State.mergeSegment s c t address h u) := by
  unfold State.mergeSegment
  dsimp only
  split
  · exact (State.commitSegment_keeps (State.decodeSegment_keeps hk))
  · exact (State.commitSegment_keeps (State.putNear_keeps (State.decodeSegment_keeps hk)))
  · exact (State.refuseSegment_keeps (State.decodeSegment_keeps hk))

theorem State.acceptWrite_keeps {z : State} {s : State} {c : Fin 48} {t : Nat} {w : MemWrite} (hk : Keeps z s) :
    Keeps z (State.acceptWrite s c t w) := by
  unfold State.acceptWrite
  split
  · split
    · exact (State.ackWrites_keeps (State.unmapped_keeps hk))
    · exact (.ite (State.ackWrites_keeps (State.countStale_keeps hk)) (.ite (State.ackWrites_keeps (State.markDevice_keeps hk)) (.ite (State.commitSegment_keeps (State.markDevice_keeps hk)) (State.setChannel_keeps (State.markDevice_keeps hk)))))
  · split
    · exact (State.ackWrites_keeps (State.unmapped_keeps hk))
    · exact (.ite (State.ackWrites_keeps hk) (.ite (State.ackWrites_keeps (State.markDevice_keeps hk)) (.ite (State.commitSegment_keeps (State.markDevice_keeps hk)) (State.setChannel_keeps (State.markDevice_keeps hk)))))

theorem State.writeInSegment_keeps {z s : State} {address : Nat} {bytes : List Byte} {poison : Bool} {u : UnitId} {cls : BitVec 2}
    (hk : Keeps z s) : Keeps z (s.writeInSegment address bytes poison u cls).1 := by
  unfold State.writeInSegment
  cases s.nearDie address with
  | none => exact (.pair (State.unmapped_keeps hk))
  | some die =>
    exact (.iteFst (.pair (State.markDevice_keeps hk)) (.iteFst (.pair (State.commitSegment_keeps (State.markDevice_keeps hk)))
      (.pair (State.mergeSegment_keeps (State.markDevice_keeps hk)))))

theorem State.writeFar_keeps {z s : State} {address : Nat} {bytes : List Byte} {poison : Bool} {u : UnitId} (hk : Keeps z s) :
    Keeps z (s.writeFar address bytes poison u).1 := by
  unfold State.writeFar
  split
  · exact (State.unmapped_keeps hk)
  · split
    · exact hk
    · exact State.mirrorWrite_keeps (.writeMem (State.markDevice_keeps hk)
        (fun hm => by simp only [Memory.wf, Bool.and_eq_true] at hm ⊢; exact ⟨hm.1, Tab.wf_writeBytes hm.2 _ _⟩))

theorem State.writeSpan_keeps {z s : State} {address : Nat} {bytes : List Byte} {poison : Bool} {u : UnitId} {cls : BitVec 2} {n : Nat} (hk : Keeps z s) : Keeps z (s.writeSpan address bytes poison u cls n).1 := by
  induction n generalizing s address bytes with
  | zero => exact hk
  | succ n ih =>
    rw [State.writeSpan]
    exact (.iteFst hk (ih (.iteFst (State.writeInSegment_keeps hk) (State.writeFar_keeps hk))))

theorem State.writeBytes_keeps {z : State} {s : State} {address : Nat} {bytes : List Byte} {poison : Bool} {u : UnitId} {cls : BitVec 2} (hk : Keeps z s) :
    Keeps z (State.writeBytes s address bytes poison u cls).1 := by
  unfold State.writeBytes
  exact (State.writeSpan_keeps hk)

/-! ### Steps -/

theorem State.routeInputs_keeps {z : State} {s : State} {b : Batch} {descriptor : BitVec 512} {argument : BitVec 64} (hk : Keeps z s) :
    Keeps z (State.routeInputs s b descriptor argument).1 := by
  unfold State.routeInputs
  split
  · exact (.iteFst (.pair (State.readSpan_keeps (State.readSpan_keeps hk))) (.pair (State.readSpan_keeps hk)))
  · exact (.pair hk)

theorem effStepRoute_keeps {z : State} {c : ContextId} {descriptor0 : BitVec 512} {argument0 : BitVec 64} {s0 : State} (hk : Keeps z s0) :
    Keeps z (effStepRoute c descriptor0 argument0 s0) := by
  unfold effStepRoute
  split
  · exact hk
  · exact (.ite hk (.ite (.foldl (State.routeInputs_keeps hk) (fun _ _ hk => (State.endBatch_keeps hk))) (.ite hk (State.updBatch_keeps (State.setEctx_keeps (State.routeInputs_keeps hk))))))

theorem State.beginRun_keeps {z : State} {s : State} {e : EngineId} {c : ContextId} {st : Step} {f : Run → Run} (hk : Keeps z s) :
    Keeps z (State.beginRun s e c st f) := by
  unfold State.beginRun
  exact (State.updBatch_keeps (State.setEctx_keeps hk))

theorem State.mooringFault_keeps {z : State} {s : State} {e : EngineId} {c : ContextId} (hk : Keeps z s) :
    Keeps z (State.mooringFault s e c) := by
  unfold State.mooringFault
  exact (State.stopEngine_keeps (State.raise_keeps hk))

theorem State.failStep_keeps {z : State} {s : State} {e : EngineId} {c : ContextId} {sts : List (BitVec 8)} (hk : Keeps z s) :
    Keeps z (State.failStep s e c sts) := by
  unfold State.failStep
  split
  · exact hk
  · exact (State.raiseIf_keeps (.foldl hk (fun _ _ hk => (State.endBatch_keeps hk))))

theorem State.issueStep_keeps {z s : State} {e : EngineId} {c : ContextId} {op : Nat} {go : State → Step → State}
    (hgo : ∀ s st, Keeps z s → Keeps z (go s st)) (hk : Keeps z s) : Keeps z (s.issueStep e c op go) := by
  unfold State.issueStep
  split
  · exact hk
  · exact (State.failStep_keeps hk)
  · exact (State.mooringFault_keeps hk)
  · exact hgo _ _ hk

theorem State.readImage_keeps {z : State} {s : State} {e : EngineId} {c : ContextId} {chart : Bool} {address : Nat} {result : ReadResult} {image : BitVec 256} (hk : Keeps z s) :
    Keeps z (State.readImage s e c chart address result image).1 := by
  unfold State.readImage
  exact (.iteFst (.iteFst (.pair hk) (State.readSpan_keeps hk)) (.pair (State.translate_keeps hk)))

theorem effMoor_keeps {z : State} {e : EngineId} {c : ContextId} {result : ReadResult} {image : BitVec 256} {s : State} (hk : Keeps z s) :
    Keeps z (effMoor e c result image s) := by
  unfold effMoor
  exact (State.issueStep_keeps (fun _ _ hk => (.ite hk (.ite (State.failStep_keeps (State.readImage_keeps hk)) (State.updEngine_keeps (State.beginRun_keeps (State.readImage_keeps hk)))))) hk)

theorem effRelease_keeps {z : State} {e : EngineId} {c : ContextId} {s : State} (hk : Keeps z s) :
    Keeps z (effRelease e c s) := by
  unfold effRelease
  exact (State.issueStep_keeps (fun _ _ hk => (State.updEngine_keeps (State.beginRun_keeps hk))) hk)

theorem effLoad_keeps {z : State} {e : EngineId} {c : ContextId} {s : State} (hk : Keeps z s) :
    Keeps z (effLoad e c s) := by
  unfold effLoad
  exact (State.issueStep_keeps (fun _ _ hk => (State.beginRun_keeps hk)) hk)

theorem effStepCommit_keeps {z : State} {e : EngineId} {c : ContextId} {s : State} (hk : Keeps z s) :
    Keeps z (effStepCommit e c s) := by
  unfold effStepCommit
  dsimp only
  split
  · exact hk
  · exact (.ite (State.setEngine_keeps hk) (.ite (State.updBatch_keeps (State.setEngine_keeps hk)) (State.updBatch_keeps (State.countEngine_keeps (State.setEngine_keeps hk)))))

theorem effSemaphoreSignal_keeps {z : State} {e : EngineId} {c : ContextId} {s : State} (hk : Keeps z s) :
    Keeps z (effSemaphoreSignal e c s) := by
  unfold effSemaphoreSignal
  dsimp only
  split
  · exact hk
  · exact (.ite (State.setEctx_keeps (State.setEctx_keeps hk)) (State.setEctx_keeps hk))

end Sys2Proof.Machine
end

