-- ==== Sys2Proof/Laws/KeepsB.lean ====
section
/-!
SUPPORT. What the operations of Tender, Sounding, Passes, Chains, FabricOps, Fabric keep: the queue of commands and the canonical form
of memory.
-/

namespace Sys2Proof.Machine

/-! ### Tender -/

theorem State.killOn_keeps {z : State} {s : State} {e : EngineId} {c : ContextId} {st : BitVec 8} {owner : Option InstanceId} (hk : Keeps z s) :
    Keeps z (State.killOn s e c st owner) := by
  unfold State.killOn
  exact (State.killPartition_keeps (State.countLines_keeps hk))

theorem State.killContext_keeps {z : State} {s : State} {c : ContextId} {st : BitVec 8} {owner : Option InstanceId} (hk : Keeps z s) :
    Keeps z (State.killContext s c st owner) := by
  unfold State.killContext
  exact (.foldl hk (fun _ _ hk => (State.killOn_keeps hk)))

theorem State.cutRun_keeps {z : State} {s : State} {e : EngineId} {c : ContextId} {r : Run} {st : BitVec 8} (hk : Keeps z s) :
    Keeps z (State.cutRun s e c r st) := by
  unfold State.cutRun
  exact (State.endBatch_keeps (State.updEngine_keeps (State.countLines_keeps hk)))

theorem State.failRun_keeps {z : State} {s : State} {r : Run} {st : BitVec 8} (hk : Keeps z s) :
    Keeps z (State.failRun s r st) := by
  unfold State.failRun
  exact (State.endBatch_keeps hk)

theorem State.remoteEvent_keeps {z : State} {s : State} {module' : Nat} {st : BitVec 8} {applied : Bool} (hk : Keeps z s) :
    Keeps z (State.remoteEvent s module' st applied) := by
  unfold State.remoteEvent
  exact (State.raise_keeps hk)

theorem State.requestLines_keeps {z : State} {s : State} {e : EngineId} {c : ContextId} {f : Fetch} {n : Nat} (hk : Keeps z s) :
    Keeps z (State.requestLines s e c f n).1 := by
  unfold State.requestLines
  split
  · split
    · exact (.pair hk)
    · exact (State.issueOp_keeps hk)
  · exact (.iteFst (.iteFst (.pair hk) (.iteFst (.pair hk) (.pair (State.issueRead_keeps hk)))) (.pair hk))

theorem State.landTile_keeps {z : State} {s : State} {e : EngineId} {c : ContextId} {serial : W16} {tile : Nat} (hk : Keeps z s) :
    Keeps z (State.landTile s e c serial tile) := by
  unfold State.landTile
  exact (.ite hk (State.countEngine_keeps (State.setEctx_keeps hk)))

theorem State.landLine_keeps {z : State} {s : State} {e : EngineId} {c : ContextId} {r : Run} {f : Fetch} {st : BitVec 8} {bytes : List Byte} (hk : Keeps z s) :
    Keeps z (State.landLine s e c r f st bytes) := by
  unfold State.landLine
  exact (.ite (State.setEctx_keeps hk) (.ite (State.setEctx_keeps hk) (.ite (State.landTile_keeps (State.setEngine_keeps hk)) (.ite (State.raise_keeps (State.countEngine_keeps (State.setEctx_keeps hk))) (State.raiseIf_keeps (State.landTile_keeps (State.setEngine_keeps hk)))))))

theorem State.landSource_keeps {z : State} {s : State} {e : EngineId} {c : ContextId} {kind : BitVec 2} {source : W64} {st : BitVec 8} {bytes : List Byte} (hk : Keeps z s) :
    Keeps z (State.landSource s e c kind source st bytes) := by
  unfold State.landSource
  split
  · exact (State.raiseIf_keeps hk)
  · exact (State.landLine_keeps hk)

theorem effTenderFetchIssue_keeps {z : State} {e : EngineId} {c : ContextId} {s : State} (hk : Keeps z s) :
    Keeps z (effTenderFetchIssue e c s) := by
  unfold effTenderFetchIssue
  dsimp only
  split
  · exact hk
  · split
    · exact hk
    · split
      · exact hk
      · split
        · exact (State.cutRun_keeps hk)
        · split
          · exact hk
          · exact (.ite (.foldl (State.remoteEvent_keeps (State.countLines_keeps (State.setEctx_keeps (.fst (by assumption) (State.requestLines_keeps hk))))) (fun _ _ hk => (State.landSource_keeps hk))) (.ite (.foldl (State.countLines_keeps (State.setEctx_keeps (.fst (by assumption) (State.requestLines_keeps hk)))) (fun _ _ hk => (State.landSource_keeps hk))) (State.countLines_keeps (State.setEctx_keeps (.fst (by assumption) (State.requestLines_keeps hk))))))

theorem State.memoryLine_keeps {z : State} {s : State} {e : EngineId} {c : ContextId} {f : Fetch} (hk : Keeps z s) :
    Keeps z (State.memoryLine s e c f).1 := by
  unfold State.memoryLine
  split
  · exact (.pair (State.readSpan_keeps hk))
  · dsimp only
    split
    · exact (.pair hk)
    · exact (.pair (State.readSpan_keeps hk))

theorem State.dropLateFar_keeps {z : State} {s : State} (hk : Keeps z s) :
    Keeps z (State.dropLateFar s) := by
  unfold State.dropLateFar
  split
  · exact hk
  · exact (.updateMem hk)

theorem effLineArrive_keeps {z : State} {e : EngineId} {c : ContextId} {entry : BitVec 11} {result : LineResult} {data : BitVec 512} {s : State} (hk : Keeps z s) :
    Keeps z (effLineArrive e c entry result data s) := by
  unfold effLineArrive
  split
  · exact (State.raiseIf_keeps (State.dropLateFar_keeps hk))
  · split
    · exact hk
    · split
      · split
        · dsimp only
          split
          · split
            · exact (State.landLine_keeps (.ite (State.memoryLine_keeps hk) (State.setEctx_keeps (State.memoryLine_keeps hk))))
            · exact (State.memoryLine_keeps hk)
          · exact (State.landLine_keeps (State.endRead_keeps hk))
        · dsimp only
          split
          · split
            · exact (State.landLine_keeps (.ite (State.memoryLine_keeps hk) (State.setEctx_keeps (State.memoryLine_keeps hk))))
            · exact (State.memoryLine_keeps hk)
          · exact (State.landLine_keeps hk)
      · dsimp only
        split
        · split
          · exact (State.landLine_keeps (.ite (State.memoryLine_keeps hk) (State.setEctx_keeps (State.memoryLine_keeps hk))))
          · exact (State.memoryLine_keeps hk)
        · exact (State.landLine_keeps hk)

theorem State.writeTierPart_keeps {z s : State} {e : EngineId} {cls : Nat} {inst : Option (InstanceId × W16)} {poison : Bool} {address : Nat}
    {part : List Byte} (hk : Keeps z s) : Keeps z (s.writeTierPart e cls inst poison address part) := by
  unfold State.writeTierPart
  generalize s.nearDie address = q
  cases q with
  | some die => exact (State.acceptWrite_keeps hk)
  | none =>
    cases inst with
    | none => exact (State.writeFar_keeps hk)
    | some i => exact (.ite (State.countStale_keeps hk) (State.writeFar_keeps hk))

theorem State.writeTier_keeps {z s : State} {e : EngineId} {cls : Nat} {inst : Option (InstanceId × W16)} {poison : Bool} {address : Nat} {bytes : List Byte} {n : Nat} (hk : Keeps z s) : Keeps z (s.writeTier e cls inst poison address bytes n) := by
  induction n generalizing s address bytes with
  | zero => exact hk
  | succ n ih =>
    rw [State.writeTier]
    exact (.ite hk (ih (State.writeTierPart_keeps hk)))

theorem State.sendWrites_keeps {z : State} {s : State} {e : EngineId} {c : ContextId} {ws : List TenderWrite} (hk : Keeps z s) :
    Keeps z (State.sendWrites s e c ws).1 := by
  unfold State.sendWrites
  split
  · exact (.pair hk)
  · split
    · exact (.pair (State.writeTier_keeps hk))
    · split
      · exact (.pair (State.post_keeps hk))
      · split
        · dsimp only
          split
          · exact (State.writeTier_keeps hk)
          · exact hk
        · split
          · exact (.pair hk)
          · exact (State.issueOp_keeps hk)

theorem State.ackTender_keeps {z s : State} {e : EngineId} {c : ContextId} {st : BitVec 8} {n : Nat} (hk : Keeps z s) : Keeps z (s.ackTender e c st n) := by
  induction n generalizing s with
  | zero => exact hk
  | succ n ih =>
    rw [State.ackTender]
    dsimp only
    split
    · exact hk
    · exact (ih (State.setEctx_keeps hk))

theorem State.ackTarget_keeps {z : State} {s : State} {e : EngineId} {c : ContextId} {kind : BitVec 2} {target : W64} {st : BitVec 8} (hk : Keeps z s) :
    Keeps z (State.ackTarget s e c kind target st) := by
  unfold State.ackTarget
  split
  · dsimp only
    split
    · exact hk
    · exact (State.setEctx_keeps hk)
  · dsimp only
    split
    · exact hk
    · exact (State.setEctx_keeps hk)

theorem State.abandonPasses_keeps {z : State} {s : State} {e : EngineId} {a : ArrayId} {gone : List Pass} (hk : Keeps z s) :
    Keeps z (State.abandonPasses s e a gone) := by
  unfold State.abandonPasses
  dsimp only
  split
  · refine Keeps.foldl ?_ (fun _ _ hk => ?_)
    · exact (State.setEngine_keeps hk)
    · split
      · exact hk
      · exact (State.updEngine_keeps (State.countArrayCtr_keeps (State.countSlots_keeps hk)))
  · refine Keeps.foldl ?_ (fun _ _ hk => ?_)
    · exact (State.setEngine_keeps hk)
    · split
      · exact hk
      · exact (State.updEngine_keeps (State.countArrayCtr_keeps (State.countSlots_keeps hk)))

theorem State.abandonReaders_keeps {z : State} {s : State} {e : EngineId} {line : Nat} (hk : Keeps z s) :
    Keeps z (State.abandonReaders s e line) := by
  unfold State.abandonReaders
  dsimp only
  split
  · refine Keeps.foldl ?_ (fun _ _ hk => ?_)
    · exact hk
    · split
      · exact hk
      · split
        · exact (.ite (State.abandonPasses_keeps hk) hk)
        · exact hk
  · split
    · refine Keeps.foldl ?_ (fun _ _ hk => ?_)
      · exact hk
      · split
        · exact hk
        · split
          · exact (.ite (State.abandonPasses_keeps hk) hk)
          · exact hk
    · split
      · refine State.setEngine_keeps ?_
        refine Keeps.foldl ?_ (fun _ _ hk => ?_)
        · exact hk
        · split
          · exact hk
          · split
            · exact (.ite (State.abandonPasses_keeps hk) hk)
            · exact hk
      · refine State.setEngine_keeps ?_
        refine Keeps.foldl ?_ (fun _ _ hk => ?_)
        · exact hk
        · split
          · exact hk
          · split
            · exact (.ite (State.abandonPasses_keeps hk) hk)
            · exact hk

theorem effParityDetect_keeps {z : State} {e : EngineId} {line : BitVec 13} {poisoned : Bool} {s : State} (hk : Keeps z s) :
    Keeps z (effParityDetect e line poisoned s) := by
  unfold effParityDetect
  split
  · dsimp only
    split
    · exact (State.setEngine_keeps hk)
    · split
      · exact (State.setEngine_keeps hk)
      · split
        · exact (State.raise_keeps (State.countEngine_keeps (State.setEngine_keeps hk)))
        · exact (.ite (State.raise_keeps (State.countEngine_keeps (State.setEngine_keeps hk))) (State.raise_keeps (State.setEngine_keeps hk)))
        · exact (.ite (State.raise_keeps (State.countEngine_keeps (State.setEctx_keeps (State.abandonReaders_keeps (State.setEngine_keeps hk))))) (.ite (State.raise_keeps (State.countEngine_keeps (State.setEctx_keeps (State.abandonReaders_keeps (State.setEngine_keeps hk))))) (State.raise_keeps (State.setEngine_keeps hk))))
  · dsimp only
    split
    · exact (State.setEngine_keeps hk)
    · split
      · exact (State.setEngine_keeps hk)
      · split
        · exact (State.raise_keeps (State.countEngine_keeps (State.setEngine_keeps hk)))
        · exact (.ite (State.raise_keeps (State.countEngine_keeps (State.setEngine_keeps hk))) (State.raise_keeps (State.setEngine_keeps hk)))
        · exact (.ite (State.raise_keeps (State.countEngine_keeps (State.setEctx_keeps (State.abandonReaders_keeps (State.setEngine_keeps hk))))) (.ite (State.raise_keeps (State.countEngine_keeps (State.setEctx_keeps (State.abandonReaders_keeps (State.setEngine_keeps hk))))) (State.raise_keeps (State.setEngine_keeps hk))))

theorem State.readChecked_keeps {z : State} {s : State} {e : EngineId} {c : ContextId} {ranges : List (Nat × Nat)} (hk : Keeps z s) :
    Keeps z (State.readChecked s e c ranges) := by
  unfold State.readChecked
  split
  · exact hk
  · exact (.ite hk (effParityDetect_keeps hk))

theorem effWriteIssue_keeps {z : State} {e : EngineId} {c : ContextId} {s : State} (hk : Keeps z s) :
    Keeps z (effWriteIssue e c s) := by
  unfold effWriteIssue
  dsimp only
  split
  · exact hk
  · split
    · exact hk
    · split
      · exact (State.readChecked_keeps hk)
      · split
        · exact (State.failRun_keeps (State.setEctx_keeps hk))
        · split
          · exact hk
          · split
            · exact (State.countLines_keeps (State.setEctx_keeps (.fst (by assumption) (State.sendWrites_keeps hk))))
            · exact (.ite (.ite (.foldl (State.remoteEvent_keeps (State.countLines_keeps (State.setEctx_keeps (.fst (by assumption) (State.sendWrites_keeps hk))))) (fun _ _ hk => (State.ackTarget_keeps hk))) (State.countLines_keeps (State.setEctx_keeps (.fst (by assumption) (State.sendWrites_keeps hk))))) (.ite (.foldl (State.countLines_keeps (State.setEctx_keeps (.fst (by assumption) (State.sendWrites_keeps hk)))) (fun _ _ hk => (State.ackTarget_keeps hk))) (.ite (.foldl (State.countLines_keeps (State.setEctx_keeps (.fst (by assumption) (State.sendWrites_keeps hk)))) (fun _ _ hk => (State.ackTarget_keeps hk))) (State.countLines_keeps (State.setEctx_keeps (.fst (by assumption) (State.sendWrites_keeps hk)))))))

theorem effScrubStart_keeps {z : State} {e : EngineId} {s : State} (hk : Keeps z s) :
    Keeps z (effScrubStart e s) := by
  unfold effScrubStart
  dsimp only
  split
  · exact hk
  · exact (.ite hk (State.setEngine_keeps hk))

theorem State.scrubCycles_keeps {z : State} {s : State} {e : EngineId} {bytes : Nat} (hk : Keeps z s) :
    Keeps z (State.scrubCycles s e bytes).1 := by
  unfold State.scrubCycles
  exact (.iteFst (.pair (State.draw_keeps hk)) (.pair hk))

theorem effScrubComplete_keeps {z : State} {e : EngineId} {s : State} (hk : Keeps z s) :
    Keeps z (effScrubComplete e s) := by
  unfold effScrubComplete
  dsimp only
  split
  · exact hk
  · split
    · exact hk
    · split
      · exact (State.countEngine_keeps (.update (State.setEngine_keeps (State.scrubCycles_keeps hk))))
      · exact (State.setInst_keeps (State.countEngine_keeps (.update (State.setEngine_keeps (State.scrubCycles_keeps hk)))))

/-! ### Sounding -/

theorem State.soundingStat_keeps {z : State} {s : State} {e : EngineId} {a : ArrayId} {place : Nat} (hk : Keeps z s) :
    Keeps z (State.soundingStat s e a place) := by
  unfold State.soundingStat
  exact (.update hk)

theorem State.countArray_keeps {z : State} {s : State} {e : EngineId} {a : ArrayId} (hk : Keeps z s) :
    Keeps z (State.countArray s e a) := by
  unfold State.countArray
  exact (State.raiseIf_keeps (State.soundingStat_keeps (State.updEngine_keeps hk)))

theorem State.compareSounding_keeps {z : State} {s : State} {e : EngineId} {mine shadow : DrainTile} {op stream : Nat} {truth : List (List W32)} (hk : Keeps z s) :
    Keeps z (State.compareSounding s e mine shadow op stream truth) := by
  unfold State.compareSounding
  split
  · exact (State.updEngine_keeps hk)
  · dsimp only
    split
    · exact (State.countArray_keeps (State.countArray_keeps (State.raise_keeps (State.soundingStat_keeps (State.updEngine_keeps hk)))))
    · exact (.update (State.raise_keeps (State.soundingStat_keeps (State.updEngine_keeps hk))))

theorem State.arbitrate_keeps {z : State} {s : State} {i : Nat} {k : SoundingSlot} {arbiter : List (List W32)} (hk : Keeps z s) :
    Keeps z (State.arbitrate s i k arbiter) := by
  unfold State.arbitrate
  exact (.update (State.raise_keeps (.ite (State.countArray_keeps (State.soundingStat_keeps (.ite (State.countArray_keeps hk) hk))) (State.soundingStat_keeps (.ite (State.countArray_keeps hk) hk)))))

theorem effArbiterPass_keeps {z : State} {e : EngineId} {slot : BitVec 10} {error : Option (BitVec 12 × BitVec 9 × W32)} {s : State} (hk : Keeps z s) :
    Keeps z (effArbiterPass e slot error s) := by
  unfold effArbiterPass
  split
  · exact hk
  · exact (.ite hk (State.arbitrate_keeps (State.countArrayCtr_keeps (State.countArrayCtr_keeps hk))))

theorem effArbitrationTimeout_keeps {z : State} {slot : BitVec 10} {s : State} (hk : Keeps z s) :
    Keeps z (effArbitrationTimeout slot s) := by
  unfold effArbitrationTimeout
  split
  · exact hk
  · exact (.ite hk (.update (State.countArray_keeps (State.countArray_keeps hk))))

/-! ### Passes -/

theorem State.issuePasses_keeps {z : State} {s : State} {e : EngineId} {c : ContextId} {st : Step} (hk : Keeps z s) :
    Keeps z (State.issuePasses s e c st) := by
  unfold State.issuePasses
  exact (.ite (State.raise_keeps (State.setEctx_keeps (State.beginRun_keeps hk))) (State.beginRun_keeps hk))

theorem State.beginPass_keeps {z : State} {s : State} {e : EngineId} {c : ContextId} {r : Run} {l : ListEntry} {n : Nat} {pair carries : Bool} {a : ArrayId} {q : Pass} (hk : Keeps z s) :
    Keeps z (State.beginPass s e c r l n pair carries a q) := by
  unfold State.beginPass
  exact (.ite (State.soundingStat_keeps (State.updEngine_keeps (State.setEngine_keeps hk))) (State.setEngine_keeps hk))

theorem State.startPasses_keeps {z : State} {s : State} {e : EngineId} {c : ContextId} {r : Run} {l : ListEntry} {n : Nat} {set : List (ArrayId × Pass)} (hk : Keeps z s) :
    Keeps z (State.startPasses s e c r l n set) := by
  unfold State.startPasses
  split
  · exact (.ite (State.updEngine_keeps (State.updEngine_keeps hk)) (State.beginPass_keeps (State.updEngine_keeps hk)))
  · exact (State.beginPass_keeps (State.beginPass_keeps (State.updEngine_keeps hk)))
  · exact (State.updEngine_keeps hk)

theorem State.badIndex_keeps {z : State} {s : State} {e : EngineId} {c : ContextId} {r : Run} (hk : Keeps z s) :
    Keeps z (State.badIndex s e c r) := by
  unfold State.badIndex
  exact (State.cutRun_keeps hk)

theorem State.roundRobin_keeps {z s : State} {e : EngineId} {l : ListEntry} {k : Nat} {a : ArrayId} {ring : List InstanceId} {n : Nat} (hk : Keeps z s) : Keeps z (s.roundRobin e l k a ring n).1 := by
  induction n generalizing s with
  | zero => exact hk
  | succ n ih =>
    rw [State.roundRobin]
    dsimp only
    split
    · exact hk
    · split
      · exact (ih (State.setEngine_keeps hk))
      · exact (.iteFst (State.setEngine_keeps hk) (.iteFst (State.setEngine_keeps hk) (ih (State.setEngine_keeps hk))))

theorem State.choose_keeps {z : State} {s : State} {e : EngineId} {l : ListEntry} {n : Nat} {a : ArrayId} (hk : Keeps z s) :
    Keeps z (State.choose s e l n a).1 := by
  unfold State.choose
  split
  · exact (.iteFst (.pair hk) (State.roundRobin_keeps (State.setEngine_keeps hk)))
  · split
    · exact (.pair hk)
    · dsimp only
      split
      · exact (.pair hk)
      · exact (.iteFst (.pair hk) (.iteFst (.pair hk) (.pair hk)))

theorem State.checkHeads_keeps {z : State} {s : State} {e : EngineId} {l : ListEntry} {a : ArrayId} (hk : Keeps z s) :
    Keeps z (State.checkHeads s e l a) := by
  unfold State.checkHeads
  refine Keeps.foldl ?_ (fun _ _ hk => ?_)
  · exact hk
  · split
    · exact hk
    · exact (State.readChecked_keeps hk)

theorem effPassStart_keeps {z : State} {e : EngineId} {a : ArrayId} {n : Nat} {s : State} (hk : Keeps z s) :
    Keeps z (effPassStart e a n s) := by
  unfold effPassStart
  split
  · exact hk
  · split
    · exact hk
    · split
      · exact (State.countIdle_keeps (State.checkHeads_keeps (.fst (by assumption) (State.choose_keeps hk))))
      · exact (State.badIndex_keeps (.fst (by assumption) (State.choose_keeps hk)))
      · exact (.ite (.foldl (State.startPasses_keeps (.fst (by assumption) (State.choose_keeps hk))) (fun _ _ hk => (State.countPass_keeps hk))) (State.mooringFault_keeps (.fst (by assumption) (State.choose_keeps hk))))

theorem State.retire_keeps {z : State} {s : State} {e : EngineId} {a : ArrayId} {p d : Nat} {q : Pass} {stream sats : Nat} (hk : Keeps z s) :
    Keeps z (State.retire s e a p d q stream sats) := by
  unfold State.retire
  exact (State.countArrayCtr_keeps (State.countArrayCtr_keeps (State.countArrayCtr_keeps (State.countArrayCtr_keeps (State.progEngine_keeps (State.countSlots_keeps hk))))))

theorem State.drainTile_keeps {z : State} {s : State} {e : EngineId} {a : ArrayId} {t : DrainTile} (hk : Keeps z s) :
    Keeps z (State.drainTile s e a t) := by
  unfold State.drainTile
  exact (State.updEngine_keeps hk)

theorem State.comparePaired_keeps {z : State} {s : State} {e : EngineId} {c : ContextId} {p d : Nat} {mineA mineB : DrainTile} {op stream sats : Nat} (hk : Keeps z s) :
    Keeps z (State.comparePaired s e c p d mineA mineB op stream sats) := by
  unfold State.comparePaired
  split
  · refine State.drainTile_keeps ?_
    refine Keeps.foldl ?_ (fun _ _ hk => ?_)
    · exact (State.countSlots_keeps (State.retire_keeps hk))
    · split
      · exact (State.updEngine_keeps (.ite (State.countArray_keeps hk) hk))
      · exact hk
  · exact (.ite (State.updEngine_keeps (State.raise_keeps (State.countSlots_keeps (State.countSlots_keeps (State.raise_keeps (State.updEngine_keeps (State.updEngine_keeps hk))))))) (State.updEngine_keeps (State.updEngine_keeps (State.countSlots_keeps (State.countSlots_keeps (State.updEngine_keeps (State.countArray_keeps (State.countArray_keeps (State.raise_keeps hk)))))))))

theorem State.settlePass_keeps {z : State} {s : State} {e : EngineId} {a : ArrayId} {p d : Nat} {t : DrainTile} {sats stream : Nat} {truth : List (List W32)} (hk : Keeps z s) :
    Keeps z (State.settlePass s e a p d t sats stream truth) := by
  unfold State.settlePass
  split
  · dsimp only
    split
    · exact (State.compareSounding_keeps (State.countSlots_keeps hk))
    · exact (State.updEngine_keeps (State.countSlots_keeps hk))
  · split
    · split
      · dsimp only
        split
        · exact (State.comparePaired_keeps (State.updEngine_keeps hk))
        · exact (State.updEngine_keeps hk)
      · dsimp only
        split
        · exact (State.comparePaired_keeps (State.updEngine_keeps hk))
        · exact (State.updEngine_keeps hk)
    · split
      · exact (State.drainTile_keeps (State.retire_keeps hk))
      · dsimp only
        split
        · exact (State.compareSounding_keeps (State.drainTile_keeps (State.retire_keeps hk)))
        · exact (State.updEngine_keeps (State.drainTile_keeps (State.retire_keeps hk)))

theorem State.noteLate_keeps {z : State} {s : State} {e : EngineId} {q : Pass} (hk : Keeps z s) :
    Keeps z (State.noteLate s e q) := by
  unfold State.noteLate
  exact (.ite hk (State.setIsland_keeps (State.updEngine_keeps hk)))

theorem effPassCommit_keeps {z : State} {e : EngineId} {a : ArrayId} {error : Option (BitVec 12 × BitVec 9 × W32)} {s : State} (hk : Keeps z s) :
    Keeps z (effPassCommit e a error s) := by
  unfold effPassCommit
  dsimp only
  split
  · exact hk
  · split
    · exact (State.countSlots_keeps (State.noteLate_keeps (State.setEngine_keeps hk)))
    · exact (.ite (State.countSlots_keeps (State.noteLate_keeps (State.setEngine_keeps hk))) (State.updEngine_keeps (State.noteLate_keeps (State.settlePass_keeps (State.setEngine_keeps hk)))))

theorem effPassAbandon_keeps {z : State} {e : EngineId} {a : ArrayId} {cause : AbandonCause} {s : State} (hk : Keeps z s) :
    Keeps z (effPassAbandon e a cause s) := by
  unfold effPassAbandon
  exact (.ite hk (State.abandonPasses_keeps hk))

theorem effPassRerun_keeps {z : State} {e : EngineId} {a : ArrayId} {n : Nat} {s : State} (hk : Keeps z s) :
    Keeps z (effPassRerun e a n s) := by
  unfold effPassRerun
  dsimp only
  split
  · exact hk
  · exact (.ite hk (.ite (State.readChecked_keeps hk) (State.raise_keeps (State.countEngine_keeps (State.countPass_keeps (State.setEngine_keeps hk))))))

theorem effSoundingShadow_keeps {z : State} {e : EngineId} {a : ArrayId} {n : Nat} {s : State} (hk : Keeps z s) :
    Keeps z (effSoundingShadow e a n s) := by
  unfold effSoundingShadow
  dsimp only
  split
  · split
    · exact (State.setEngine_keeps hk)
    · split
      · exact (State.setEngine_keeps hk)
      · exact (.ite hk (State.countPass_keeps (State.setEngine_keeps hk)))
  · exact hk

/-! ### Chains -/

theorem State.settleWork_keeps {z : State} {s : State} {e : EngineId} {c : ContextId} {q : Pass} {k : Work} (hk : Keeps z s) :
    Keeps z (State.settleWork s e c q k) := by
  unfold State.settleWork
  exact (.ite (State.noteLate_keeps (State.countEngine_keeps (State.countEngine_keeps (State.setEngine_keeps hk)))) (State.countEngine_keeps (State.countEngine_keeps (State.setEngine_keeps hk))))

theorem effTileChainWork_keeps {z : State} {e : EngineId} {a : ArrayId} {s : State} (hk : Keeps z s) :
    Keeps z (effTileChainWork e a s) := by
  unfold effTileChainWork
  split
  · exact hk
  · dsimp only
    split
    · exact hk
    · split
      · exact (State.setEngine_keeps hk)
      · exact (.ite (State.setEngine_keeps hk) (.ite (State.mooringFault_keeps hk) (.ite hk (.ite (State.readChecked_keeps hk) (State.settleWork_keeps hk)))))

theorem effHeldBandFinish_keeps {z : State} {e : EngineId} {s : State} (hk : Keeps z s) :
    Keeps z (effHeldBandFinish e s) := by
  unfold effHeldBandFinish
  split
  · dsimp only
    split
    · exact hk
    · split
      · exact hk
      · exact hk
  · dsimp only
    split
    · exact hk
    · split
      · exact (State.settleWork_keeps hk)
      · exact hk

theorem State.stageRow_keeps {z : State} {s : State} {e : EngineId} {op : Nat} {word : BitVec 32} (hk : Keeps z s) :
    Keeps z (State.stageRow s e op word) := by
  unfold State.stageRow
  dsimp only
  split
  · exact hk
  · split
    · exact hk
    · exact (.ite hk (State.settleWork_keeps hk))

/-! ### FabricOps -/

theorem State.sendAck_keeps {z : State} {s : State} {p : BitVec 12} {cls : BitVec 2} (hk : Keeps z s) :
    Keeps z (State.sendAck s p cls) := by
  unfold State.sendAck
  exact (State.sendUnnumbered_keeps hk)

theorem State.settleStream_keeps {z : State} {s : State} {p : BitVec 12} {cls : BitVec 2} (hk : Keeps z s) :
    Keeps z (State.settleStream s p cls) := by
  unfold State.settleStream
  exact (.ite hk (State.sendAck_keeps (State.setPeer_keeps hk)))

theorem State.settleStreams_keeps {z : State} {s : State} (hk : Keeps z s) :
    Keeps z (State.settleStreams s) := by
  unfold State.settleStreams
  exact (.foldl hk (fun _ _ hk => (.foldl hk (fun _ _ hk => (State.settleStream_keeps hk)))))

theorem State.applyAtomic_keeps {z : State} {s : State} {op address : Nat} {operand1 operand2 : W64} {u : UnitId} {cls : BitVec 2} (hk : Keeps z s) :
    Keeps z (State.applyAtomic s op address operand1 operand2 u cls).1 := by
  unfold State.applyAtomic
  exact (.pair (.ite (State.writeBytes_keeps (State.readSpan_keeps hk)) (.ite (State.writeBytes_keeps (State.readSpan_keeps hk)) (.ite (State.writeBytes_keeps (State.readSpan_keeps hk)) (State.readSpan_keeps hk)))))

theorem State.applyNotify_keeps {z : State} {s : State} {address : Nat} {value : W64} {u : UnitId} {cls : BitVec 2} (hk : Keeps z s) :
    Keeps z (State.applyNotify s address value u cls) := by
  unfold State.applyNotify
  exact (State.writeBytes_keeps hk)

theorem State.portResult_keeps {z : State} {s : State} {e : EngineId} {c : ContextId} {serial : W16} {result : W64} {st : BitVec 8} {bytes : List Byte} (hk : Keeps z s) :
    Keeps z (State.portResult s e c serial result st bytes) := by
  unfold State.portResult
  exact (.ite (State.setEctx_keeps (.iteFst (.pair hk) (State.writeBytes_keeps hk))) hk)

theorem State.returnLines_keeps {z : State} {s : State} {e : EngineId} {c : ContextId} {n : Nat} (hk : Keeps z s) :
    Keeps z (State.returnLines s e c n) := by
  unfold State.returnLines
  exact (State.setEctx_keeps hk)

theorem State.issueDrawn_keeps {z : State} {s : State} {e : EngineId} {c : ContextId} {p : BitVec 12} {o : FabricOp} (hk : Keeps z s) :
    Keeps z (State.issueDrawn s e c p o).1 := by
  unfold State.issueDrawn
  split
  · exact (.pair hk)
  · exact (.pair (State.setEctx_keeps (.fst (by assumption) (State.issueOp_keeps hk))))

theorem State.issueRecord_keeps {z : State} {s : State} {e : EngineId} {c : ContextId} {serial : W16} {r : BitVec 512} (hk : Keeps z s) :
    Keeps z (State.issueRecord s e c serial r).1 := by
  unfold State.issueRecord
  split
  · dsimp only
    split
    · split
      · exact (.pair (State.portResult_keeps hk))
      · exact (.pair (State.portResult_keeps (State.applyNotify_keeps hk)))
    · split
      · exact (.pair (State.portResult_keeps (State.remoteEvent_keeps hk)))
      · exact (State.issueDrawn_keeps hk)
  · dsimp only
    split
    · split
      · exact (.pair (State.portResult_keeps hk))
      · exact (.iteFst (.pair (State.portResult_keeps hk)) (.pair (State.portResult_keeps (State.applyAtomic_keeps hk))))
    · split
      · exact (.pair (State.portResult_keeps (State.remoteEvent_keeps hk)))
      · exact (State.issueDrawn_keeps hk)

theorem State.pumpPort_keeps {z s : State} {e : EngineId} {c : ContextId} {n : Nat} (hk : Keeps z s) : Keeps z (s.pumpPort e c n) := by
  induction n generalizing s with
  | zero => exact hk
  | succ n ih =>
    rw [State.pumpPort]
    split
    · exact hk
    · split
      · exact hk
      · split
        · exact hk
        · split
          · exact hk
          · exact (ih (State.setEctx_keeps (.fst (by assumption) (State.issueRecord_keeps hk))))

theorem State.pumpPorts_keeps {z : State} {s : State} (hk : Keeps z s) :
    Keeps z (State.pumpPorts s) := by
  unfold State.pumpPorts
  refine Keeps.foldl ?_ (fun _ _ hk => ?_)
  · exact hk
  · refine Keeps.foldl ?_ (fun _ _ hk => ?_)
    · exact hk
    · split
      · exact hk
      · exact (State.pumpPort_keeps hk)

theorem State.finishFence_keeps {z : State} {s : State} {f : Fence} {missing : List Nat} (hk : Keeps z s) :
    Keeps z (State.finishFence s f missing) := by
  unfold State.finishFence
  exact (State.portResult_keeps (.update hk))

theorem State.settleFences_keeps {z : State} {s : State} (hk : Keeps z s) :
    Keeps z (State.settleFences s) := by
  unfold State.settleFences
  exact (.foldl hk (fun _ _ hk => (State.finishFence_keeps hk)))

theorem State.stopSend_keeps {z : State} {s : State} {e : EngineId} {c : ContextId} {serial : W16} {destination : Nat} {sts : List (BitVec 8)} (hk : Keeps z s) :
    Keeps z (State.stopSend s e c serial destination sts) := by
  unfold State.stopSend
  exact (State.setEctx_keeps hk)

theorem State.sendEnded_keeps {z : State} {s : State} {e : EngineId} {c : ContextId} {serial : W16} {destination : Nat} {notify : Bool} {st : BitVec 8} (hk : Keeps z s) :
    Keeps z (State.sendEnded s e c serial destination notify st) := by
  unfold State.sendEnded
  exact (.ite (State.stopSend_keeps hk) (State.setEctx_keeps hk))

theorem State.mirrorEnded_keeps {z : State} {s : State} {record : Nat} {o : FabricOp} {st : BitVec 8} (hk : Keeps z s) :
    Keeps z (State.mirrorEnded s record o st) := by
  unfold State.mirrorEnded
  split
  · dsimp only
    split
    · exact (State.settleStreams_keeps (State.pumpMirrors_keeps hk))
    · exact (State.settleStreams_keeps (State.pumpMirrors_keeps (State.breakMirror_keeps hk)))
  · dsimp only
    split
    · exact (State.settleStreams_keeps (State.pumpMirrors_keeps hk))
    · exact (State.settleStreams_keeps (State.pumpMirrors_keeps (State.releaseMirror_keeps (.update hk))))

theorem State.completeOp_keeps {z : State} {s : State} {p : BitVec 12} {o : FabricOp} {reported : BitVec 8} {value mask : W64} {data : List Byte} (hk : Keeps z s) :
    Keeps z (State.completeOp s p o reported value mask data) := by
  unfold State.completeOp
  split
  · exact (State.pumpPorts_keeps (State.settleFences_keeps (.ite (.foldl (.update (State.setPeer_keeps hk)) (fun _ _ hk => (State.landSource_keeps hk))) (.foldl (.update (State.setPeer_keeps hk)) (fun _ _ hk => (State.ackTarget_keeps hk))))))
  · exact (State.pumpPorts_keeps (State.settleFences_keeps (State.portResult_keeps (State.returnLines_keeps (.update (State.setPeer_keeps hk))))))
  · exact (State.pumpPorts_keeps (State.settleFences_keeps (State.sendEnded_keeps (State.returnLines_keeps (.update (State.setPeer_keeps hk))))))
  · exact (State.pumpPorts_keeps (State.settleFences_keeps (State.mirrorEnded_keeps (.update (State.setPeer_keeps hk)))))

theorem State.loseOpAs_keeps {z : State} {s : State} {p : BitVec 12} {o : FabricOp} {st : BitVec 8} {applied : Bool} (hk : Keeps z s) :
    Keeps z (State.loseOpAs s p o st applied) := by
  unfold State.loseOpAs
  exact (State.completeOp_keeps (.ite (State.fabricStat_keeps (State.remoteEvent_keeps (State.setPeer_keeps hk))) (State.remoteEvent_keeps (State.setPeer_keeps hk))))

theorem State.loseOp_keeps {z : State} {s : State} {p : BitVec 12} {o : FabricOp} (hk : Keeps z s) :
    Keeps z (State.loseOp s p o) := by
  unfold State.loseOp
  exact (State.loseOpAs_keeps hk)

theorem State.loseOps_keeps {z : State} {s : State} {p : BitVec 12} (hk : Keeps z s) :
    Keeps z (State.loseOps s p) := by
  unfold State.loseOps
  exact (.foldl hk (fun _ _ hk => (State.loseOp_keeps hk)))

/-! ### Fabric -/

theorem State.sendReset_keeps {z : State} {s : State} {p : BitVec 12} (hk : Keeps z s) :
    Keeps z (State.sendReset s p) := by
  unfold State.sendReset
  exact (State.sendUnnumbered_keeps hk)

theorem State.receipt_keeps {z : State} {s : State} {p : BitVec 12} {h : Header} (hk : Keeps z s) :
    Keeps z (State.receipt s p h) := by
  unfold State.receipt
  exact (.ite (State.setPeer_keeps (State.sendReset_keeps (State.setPeer_keeps (State.loseOps_keeps hk)))) (State.setPeer_keeps hk))

theorem State.retransmit_keeps {z : State} {s : State} {p : BitVec 12} {cls : BitVec 2} {psn : W32} (hk : Keeps z s) :
    Keeps z (State.retransmit s p cls psn) := by
  unfold State.retransmit
  split
  · exact hk
  · split
    · exact hk
    · exact (.ite hk (State.setPeer_keeps (State.fabricStat_keeps (State.queuePacket_keeps hk))))

theorem State.retransmitPort_keeps {z : State} {s : State} {n : Nat} (hk : Keeps z s) :
    Keeps z (State.retransmitPort s n) := by
  unfold State.retransmitPort
  exact (.foldl hk (fun _ _ hk => (.foldl hk (fun _ _ hk => (.foldl hk (fun _ _ hk => (State.retransmit_keeps hk)))))))

theorem State.pumpPeers_keeps {z : State} {s : State} (hk : Keeps z s) :
    Keeps z (State.pumpPeers s) := by
  unfold State.pumpPeers
  exact (.foldl hk (fun _ _ hk => (.foldl hk (fun _ _ hk => (State.pump_keeps hk)))))

theorem State.ackOp_keeps {z : State} {s : State} {p : BitVec 12} {cls : BitVec 2} {psn : W32} (hk : Keeps z s) :
    Keeps z (State.ackOp s p cls psn) := by
  unfold State.ackOp
  split
  · exact hk
  · exact (.ite (State.setPeer_keeps hk) (State.completeOp_keeps hk))

theorem State.ackStream_keeps {z : State} {s : State} {p : BitVec 12} {h : Header} {withSack : Bool} (hk : Keeps z s) :
    Keeps z (State.ackStream s p h withSack) := by
  unfold State.ackStream
  exact (.ite hk (.ite (State.pump_keeps (.foldl (State.setPeer_keeps (State.raiseIf_keeps hk)) (fun _ _ hk => (State.ackOp_keeps hk)))) (.foldl (State.pump_keeps (.foldl (State.setPeer_keeps (State.raiseIf_keeps hk)) (fun _ _ hk => (State.ackOp_keeps hk)))) (fun _ _ hk => (State.retransmit_keeps hk)))))

theorem State.takeIngress_keeps {z : State} {s : State} {x : BitVec 384} (hk : Keeps z s) :
    Keeps z (State.takeIngress s x) := by
  unfold State.takeIngress
  split
  · exact hk
  · exact (.update hk)

theorem State.packetFrom_keeps {z : State} {s : State} {x : BitVec 384} {kind : Nat} (hk : Keeps z s) :
    Keeps z (State.packetFrom s x kind).1 := by
  unfold State.packetFrom
  dsimp only
  split
  · exact (.pair (State.fabricStat_keeps (State.takeIngress_keeps hk)))
  · split
    · exact (.pair (State.fabricStat_keeps (State.fabricStat_keeps (State.takeIngress_keeps hk))))
    · exact (.pair (State.fabricStat_keeps (State.takeIngress_keeps hk)))

theorem State.sendReply_keeps {z : State} {s : State} {p : BitVec 12} {h : Header} {st : BitVec 8} {value : W64} {poison : Bool} {data : List Byte} (hk : Keeps z s) :
    Keeps z (State.sendReply s p h st value poison data) := by
  unfold State.sendReply
  exact (State.sendUnnumbered_keeps hk)

theorem State.writeMasked_keeps {z s : State} {address i : Nat} {mask : W64} {data : List Byte} {u : UnitId} {cls : BitVec 2} {n : Nat} (hk : Keeps z s) : Keeps z (s.writeMasked address i mask data u cls n) := by
  induction n generalizing s address i data with
  | zero => exact hk
  | succ n ih =>
    rw [State.writeMasked]
    exact (.ite hk (ih (State.writeBytes_keeps hk)))

theorem State.markApplied_keeps {z : State} {s : State} {p : BitVec 12} {h : Header} {wait : List Nat} (hk : Keeps z s) :
    Keeps z (State.markApplied s p h wait) := by
  unfold State.markApplied
  exact (.ite (State.setPeer_keeps hk) (State.setPeer_keeps hk))

theorem State.applyRequest_keeps {z : State} {s : State} {p : BitVec 12} {h : Header} {a : Nat} {payload : List Byte} (hk : Keeps z s) :
    Keeps z (State.applyRequest s p h a payload) := by
  unfold State.applyRequest
  split
  · exact (State.sendReply_keeps (State.markApplied_keeps (State.readLines_keeps hk)))
  · split
    · exact (State.sendAck_keeps (State.markApplied_keeps (State.writeMasked_keeps hk)))
    · split
      · exact (State.sendAck_keeps (State.markApplied_keeps (State.applyNotify_keeps hk)))
      · split
        · dsimp only
          split
          · exact (State.sendReply_keeps (State.fabricStat_keeps (State.markApplied_keeps hk)))
          · exact (State.sendReply_keeps (State.fabricStat_keeps (State.markApplied_keeps hk)))
        · exact (State.sendReply_keeps (State.markApplied_keeps (State.setPeer_keeps (State.applyAtomic_keeps hk))))

theorem State.refuseRequest_keeps {z : State} {s : State} {p : BitVec 12} {h : Header} (hk : Keeps z s) :
    Keeps z (State.refuseRequest s p h) := by
  unfold State.refuseRequest
  exact (State.sendReply_keeps (State.fabricStat_keeps (State.markApplied_keeps hk)))

theorem State.releaseNotifies_keeps {z s : State} {p : BitVec 12} {cls : BitVec 2} {n : Nat} (hk : Keeps z s) : Keeps z (s.releaseNotifies p cls n) := by
  induction n generalizing s with
  | zero => exact hk
  | succ n ih =>
    rw [State.releaseNotifies]
    dsimp only
    split
    · exact hk
    · split
      · exact (ih (State.refuseRequest_keeps (State.setPeer_keeps hk)))
      · exact (ih (State.applyRequest_keeps (State.setPeer_keeps hk)))

theorem State.request_keeps {z : State} {s : State} {op : Nat} {x : BitVec 384} {payload : List Byte} (hk : Keeps z s) :
    Keeps z (State.request s op x payload) := by
  unfold State.request
  split
  · exact (.fst (by assumption) (State.packetFrom_keeps hk))
  · split
    · exact (.ite (State.receipt_keeps (.fst (by assumption) (State.packetFrom_keeps hk))) (.ite (State.sendReset_keeps (State.receipt_keeps (.fst (by assumption) (State.packetFrom_keeps hk)))) (.ite (State.sendAck_keeps (State.fabricStat_keeps (State.ackStream_keeps (State.receipt_keeps (.fst (by assumption) (State.packetFrom_keeps hk)))))) (.ite (State.raise_keeps (State.ackStream_keeps (State.receipt_keeps (.fst (by assumption) (State.packetFrom_keeps hk))))) (.ite (State.fabricStat_keeps (State.ackStream_keeps (State.receipt_keeps (.fst (by assumption) (State.packetFrom_keeps hk))))) (State.releaseNotifies_keeps (.ite (State.ackStream_keeps (State.receipt_keeps (.fst (by assumption) (State.packetFrom_keeps hk)))) (State.setPeer_keeps (State.ackStream_keeps (State.receipt_keeps (.fst (by assumption) (State.packetFrom_keeps hk))))))))))))
    · dsimp only
      split
      · exact (State.receipt_keeps (.fst (by assumption) (State.packetFrom_keeps hk)))
      · split
        · exact (State.sendReset_keeps (State.receipt_keeps (.fst (by assumption) (State.packetFrom_keeps hk))))
        · split
          · exact (State.sendAck_keeps (State.fabricStat_keeps (State.ackStream_keeps (State.receipt_keeps (.fst (by assumption) (State.packetFrom_keeps hk))))))
          · split
            · exact (State.raise_keeps (State.ackStream_keeps (State.receipt_keeps (.fst (by assumption) (State.packetFrom_keeps hk)))))
            · split
              · exact (State.fabricStat_keeps (State.ackStream_keeps (State.receipt_keeps (.fst (by assumption) (State.packetFrom_keeps hk)))))
              · split
                · exact (State.releaseNotifies_keeps (.ite (State.refuseRequest_keeps (State.ackStream_keeps (State.receipt_keeps (.fst (by assumption) (State.packetFrom_keeps hk))))) (State.sendAck_keeps (State.refuseRequest_keeps (State.ackStream_keeps (State.receipt_keeps (.fst (by assumption) (State.packetFrom_keeps hk))))))))
                · exact (State.releaseNotifies_keeps (.ite (State.applyRequest_keeps (State.ackStream_keeps (State.receipt_keeps (.fst (by assumption) (State.packetFrom_keeps hk))))) (State.sendAck_keeps (State.applyRequest_keeps (State.ackStream_keeps (State.receipt_keeps (.fst (by assumption) (State.packetFrom_keeps hk))))))))

theorem effReplyRx_keeps {z : State} {x : BitVec 384} {payload : List Byte} {s : State} (hk : Keeps z s) :
    Keeps z (effReplyRx x payload s) := by
  unfold effReplyRx
  split
  · exact (.fst (by assumption) (State.packetFrom_keeps hk))
  · dsimp only
    split
    · exact (State.ackStream_keeps (State.receipt_keeps (.fst (by assumption) (State.packetFrom_keeps hk))))
    · exact (State.ackStream_keeps (State.completeOp_keeps (.ite (State.remoteEvent_keeps (State.receipt_keeps (.fst (by assumption) (State.packetFrom_keeps hk)))) (State.receipt_keeps (.fst (by assumption) (State.packetFrom_keeps hk))))))

theorem effAckRx_keeps {z : State} {x : BitVec 384} {s : State} (hk : Keeps z s) :
    Keeps z (effAckRx x s) := by
  unfold effAckRx
  split
  · exact (.fst (by assumption) (State.packetFrom_keeps hk))
  · exact (State.ackStream_keeps (State.receipt_keeps (.fst (by assumption) (State.packetFrom_keeps hk))))

theorem effKeepaliveRx_keeps {z : State} {x : BitVec 384} {s : State} (hk : Keeps z s) :
    Keeps z (effKeepaliveRx x s) := by
  unfold effKeepaliveRx
  split
  · exact (.fst (by assumption) (State.packetFrom_keeps hk))
  · exact (State.ackStream_keeps (State.receipt_keeps (.fst (by assumption) (State.packetFrom_keeps hk))))

theorem effResetRx_keeps {z : State} {x : BitVec 384} {s : State} (hk : Keeps z s) :
    Keeps z (effResetRx x s) := by
  unfold effResetRx
  split
  · exact (.fst (by assumption) (State.packetFrom_keeps hk))
  · exact (State.setPeer_keeps (State.loseOps_keeps (State.receipt_keeps (.fst (by assumption) (State.packetFrom_keeps hk)))))

theorem effRetransmitTimeout_keeps {z : State} {p : BitVec 12} {cls : BitVec 2} {psn : BitVec 32} {s : State} (hk : Keeps z s) :
    Keeps z (effRetransmitTimeout p cls psn s) := by
  unfold effRetransmitTimeout
  split
  · exact hk
  · exact (.ite (State.retransmit_keeps hk) hk)

theorem effReplyRetry_keeps {z : State} {p : BitVec 12} {request : BitVec 16} {s : State} (hk : Keeps z s) :
    Keeps z (effReplyRetry p request s) := by
  unfold effReplyRetry
  split
  · exact hk
  · split
    · exact hk
    · exact (State.setPeer_keeps (.fst (by assumption) (State.sendRequest_keeps hk)))

theorem effKeepaliveTimer_keeps {z : State} {p : BitVec 12} {s : State} (hk : Keeps z s) :
    Keeps z (effKeepaliveTimer p s) := by
  unfold effKeepaliveTimer
  split
  · exact hk
  · dsimp only
    split
    · exact hk
    · exact (State.queuePacket_keeps (State.setPeer_keeps hk))

theorem State.peerEvent_keeps {z : State} {s : State} {p : BitVec 12} (hk : Keeps z s) :
    Keeps z (State.peerEvent s p) := by
  unfold State.peerEvent
  exact (State.raise_keeps hk)

theorem effPeerSilent_keeps {z : State} {p : BitVec 12} {s : State} (hk : Keeps z s) :
    Keeps z (effPeerSilent p s) := by
  unfold effPeerSilent
  exact (.ite hk (State.peerEvent_keeps (State.setPeer_keeps hk)))

theorem effPeerDead_keeps {z : State} {p : BitVec 12} {s : State} (hk : Keeps z s) :
    Keeps z (effPeerDead p s) := by
  unfold effPeerDead
  exact (.ite hk (State.settleStreams_keeps (.foldl (State.loseOps_keeps (State.peerEvent_keeps (State.setPeer_keeps hk))) (fun _ _ hk => (State.breakMirror_keeps hk)))))

theorem effOperationDeadTimeout_keeps {z : State} {p : BitVec 12} {request : BitVec 16} {s : State} (hk : Keeps z s) :
    Keeps z (effOperationDeadTimeout p request s) := by
  unfold effOperationDeadTimeout
  split
  · exact hk
  · exact (.ite (State.loseOpAs_keeps hk) (State.loseOpAs_keeps hk))

theorem effMirrorRestart_keeps {z : State} {record : BitVec 16} {s : State} (hk : Keeps z s) :
    Keeps z (effMirrorRestart record s) := by
  unfold effMirrorRestart
  exact (.ite hk (.update hk))

end Sys2Proof.Machine
end

