-- ==== Sys2Proof/Laws/KeepsC.lean ====
section
/-!
SUPPORT. What the operations of RadioTime, Fronthaul, Radio, Coding, TimeBase, Ledgers, HostLink, NearMemory, BootFlash, Versions, Integrity, Traffic keep: the queue of commands and the canonical form
of memory.
-/

namespace Sys2Proof.Machine

/-! ### RadioTime -/

theorem State.writeRan_keeps {z : State} {s : State} {offset : Nat} {bytes : List Byte} {u : UnitId} (hk : Keeps z s) :
    Keeps z (State.writeRan s offset bytes u) := by
  unfold State.writeRan
  exact (.ite (State.writeBytes_keeps (State.writeBytes_keeps hk)) (State.writeBytes_keeps hk))

theorem State.readRan_keeps {z : State} {s : State} {offset length : Nat} {u : UnitId} (hk : Keeps z s) :
    Keeps z (State.readRan s offset length u).1 := by
  unfold State.readRan
  exact (State.readSpan_keeps hk)

/-! ### Fronthaul -/

theorem State.updPlan_keeps {z : State} {s : State} {c : CellId} {slot : Nat} {f : SlotPlan → SlotPlan} (hk : Keeps z s) :
    Keeps z (State.updPlan s c slot f) := by
  unfold State.updPlan
  exact (State.setCell_keeps hk)

theorem State.queueRadio_keeps {z : State} {s : State} {p : Fin 84} {q : Nat} {bytes : List Byte} {origin : FrameOrigin} {order : Nat} (hk : Keeps z s) :
    Keeps z (State.queueRadio s p q bytes origin order) := by
  unfold State.queueRadio
  exact (State.setPort_keeps hk)

theorem State.queueUplane_keeps {z : State} {s : State} {c : CellId} {p : SlotPlan} {k stream : Nat} {samples : List Byte} (hk : Keeps z s) :
    Keeps z (State.queueUplane s c p k stream samples) := by
  unfold State.queueUplane
  exact (.foldl (State.draw_keeps hk) (fun _ _ hk => (State.queueRadio_keeps hk)))

theorem State.countFill_keeps {z : State} {s : State} {c : CellId} {slot n : Nat} (hk : Keeps z s) :
    Keeps z (State.countFill s c slot n) := by
  unfold State.countFill
  exact (.ite hk (.update (State.updPlan_keeps hk)))

theorem State.fhStat_keeps {z : State} {s : State} {link place : Nat} (hk : Keeps z s) :
    Keeps z (State.fhStat s link place) := by
  unfold State.fhStat
  exact (.update hk)

theorem State.storeSection_keeps {z : State} {s : State} {c : CellId} {slot k stream : Nat} {x : UplaneSection} (hk : Keeps z s) :
    Keeps z (State.storeSection s c slot k stream x) := by
  unfold State.storeSection
  exact (.foldl hk (fun _ _ hk => (State.updPlan_keeps (.update (State.writeRan_keeps hk)))))

theorem State.uplaneArrives_keeps {z : State} {s : State} {link : Nat} {c : CellId} {stream down k n inFrame : Nat} {message : List Byte} {t : Nat} (hk : Keeps z s) :
    Keeps z (State.uplaneArrives s link c stream down k n inFrame message t) := by
  unfold State.uplaneArrives
  dsimp only
  split
  · exact (.ite (State.fhStat_keeps hk) (.ite (State.fhStat_keeps hk) (.ite (State.fhStat_keeps hk) (.foldl hk (fun _ _ hk => (State.storeSection_keeps hk))))))
  · exact (State.fhStat_keeps hk)

theorem State.ecpriRx_keeps {z : State} {s : State} {link : Nat} {body : List Byte} {t : Nat} (hk : Keeps z s) :
    Keeps z (State.ecpriRx s link body t) := by
  unfold State.ecpriRx
  dsimp only
  split
  · exact (State.fhStat_keeps hk)
  · split
    · exact (State.fhStat_keeps hk)
    · split
      · exact hk
      · split
        · exact (State.fhStat_keeps hk)
        · exact (State.raise_keeps (State.fhStat_keeps hk))
        · exact (State.uplaneArrives_keeps hk)

/-! ### Radio -/

theorem State.askPayloads_keeps {z : State} {s : State} {c : CellId} {slot : Nat} (hk : Keeps z s) :
    Keeps z (State.askPayloads s c slot) := by
  unfold State.askPayloads
  split
  · exact hk
  · exact (.foldl hk (fun _ _ hk => (.ite (State.updPlan_keeps (State.issueRead_keeps hk)) hk)))

theorem State.keepPlan_keeps {z : State} {s : State} {c : CellId} {n : Nat} {good : Bool} {header : BitVec 512} {pdus : List (BitVec 512)} (hk : Keeps z s) :
    Keeps z (State.keepPlan s c n good header pdus) := by
  unfold State.keepPlan
  exact (.ite (State.askPayloads_keeps (State.writeRan_keeps (State.raiseIf_keeps (State.setCell_keeps (State.draw_keeps hk))))) (State.raiseIf_keeps (State.setCell_keeps (State.draw_keeps hk))))

theorem State.planArrived_keeps {z : State} {s : State} {c : CellId} {n : Nat} {good : Bool} {header : BitVec 512} {pdus : List (BitVec 512)} (hk : Keeps z s) :
    Keeps z (State.planArrived s c n good header pdus) := by
  unfold State.planArrived
  exact (.ite (State.keepPlan_keeps hk) hk)

theorem State.fetchPlan_keeps {z : State} {s : State} {c : CellId} {n : Nat} (hk : Keeps z s) :
    Keeps z (State.fetchPlan s c n) := by
  unfold State.fetchPlan
  exact (.ite hk (.ite (State.keepPlan_keeps (State.setCell_keeps hk)) (State.issueRead_keeps (State.setCell_keeps hk))))

theorem effPlanFetch_keeps {z s : State} {c : CellId} (hk : Keeps z s) : Keeps z (effPlanFetch c s) :=
  .ite hk (.optElim hk (fun _ => State.fetchPlan_keeps hk))

theorem effPlanReadComplete_keeps {z : State} {c : CellId} {result : ReadResult} {header : BitVec 512} {pdus : List (BitVec 512)} {s : State} (hk : Keeps z s) :
    Keeps z (effPlanReadComplete c result header pdus s) := by
  unfold effPlanReadComplete
  split
  · exact hk
  · split
    · exact hk
    · exact (State.planArrived_keeps (State.endRead_keeps hk))

theorem State.payloadArrived_keeps {z : State} {s : State} {c : CellId} {slot i : Nat} {good : Bool} {data : List Byte} (hk : Keeps z s) :
    Keeps z (State.payloadArrived s c slot i good data) := by
  unfold State.payloadArrived
  exact (State.askPayloads_keeps (State.updPlan_keeps (.ite (State.writeRan_keeps (State.draw_keeps hk)) (State.draw_keeps hk))))

theorem effCplaneWindowOpen_keeps {z : State} {c : CellId} {i : BitVec 7} {weights : Option (List Byte)} {s : State} (hk : Keeps z s) :
    Keeps z (effCplaneWindowOpen c i weights s) := by
  unfold effCplaneWindowOpen
  split
  · dsimp only
    split
    · exact hk
    · split
      · exact hk
      · exact (.ite hk (.ite (State.updPlan_keeps (State.updPlan_keeps hk)) (.foldl (.ite (State.setCell_keeps (.ite (State.countFill_keeps (State.updPlan_keeps hk)) (State.updPlan_keeps hk))) (.ite (State.countFill_keeps (State.updPlan_keeps hk)) (State.updPlan_keeps hk))) (fun _ _ hk => (State.queueRadio_keeps (State.draw_keeps hk))))))
  · dsimp only
    split
    · exact hk
    · split
      · exact hk
      · exact (.ite hk (.ite (State.updPlan_keeps (State.updPlan_keeps hk)) (.foldl (.ite (State.setCell_keeps (.ite (State.countFill_keeps (State.updPlan_keeps hk)) (State.updPlan_keeps hk))) (.ite (State.countFill_keeps (State.updPlan_keeps hk)) (State.updPlan_keeps hk))) (fun _ _ hk => (State.queueRadio_keeps (State.draw_keeps hk))))))

theorem effDlPayloadComplete_keeps {z : State} {c : CellId} {k : BitVec 4} {stream : BitVec 5} {samples : List Byte} {s : State} (hk : Keeps z s) :
    Keeps z (effDlPayloadComplete c k stream samples s) := by
  unfold effDlPayloadComplete
  dsimp only
  split
  · exact hk
  · exact (.ite (State.fhStat_keeps (State.updPlan_keeps hk)) (.ite (State.queueUplane_keeps (State.updPlan_keeps hk)) (State.updPlan_keeps hk)))

theorem State.queueComplete_keeps {z : State} {s : State} {c : CellId} {slot k : Nat} (hk : Keeps z s) :
    Keeps z (State.queueComplete s c slot k) := by
  unfold State.queueComplete
  split
  · exact hk
  · exact (.foldl hk (fun _ _ hk => (.ite (State.queueUplane_keeps (State.updPlan_keeps hk)) hk)))

theorem effUplaneWindowOpen_keeps {z : State} {c : CellId} {k : BitVec 4} {s : State} (hk : Keeps z s) :
    Keeps z (effUplaneWindowOpen c k s) := by
  unfold effUplaneWindowOpen
  dsimp only
  split
  · exact hk
  · exact (.ite hk (.ite (State.queueComplete_keeps (State.updPlan_keeps hk)) (State.updPlan_keeps hk)))

theorem State.judge_keeps {z : State} {s : State} {c : CellId} {p : SlotPlan} {k i : Nat} (hk : Keeps z s) :
    Keeps z (State.judge s c p k i) := by
  unfold State.judge
  exact (.ite (.ite (State.updPlan_keeps hk) (State.countFill_keeps (State.updPlan_keeps hk))) (.ite (State.updPlan_keeps hk) (.ite (State.queueUplane_keeps (State.updPlan_keeps hk)) (State.countFill_keeps (State.queueUplane_keeps (State.updPlan_keeps hk))))))

theorem effDeadlineWatchdog_keeps {z : State} {c : CellId} {k : BitVec 4} {s : State} (hk : Keeps z s) :
    Keeps z (effDeadlineWatchdog c k s) := by
  unfold effDeadlineWatchdog
  dsimp only
  split
  · exact hk
  · exact (.ite hk (.foldl (State.updPlan_keeps hk) (fun _ _ hk => (State.judge_keeps hk))))

theorem State.issueReceiver_keeps {z : State} {s : State} {c : CellId} {p : SlotPlan} (hk : Keeps z s) :
    Keeps z (State.issueReceiver s c p) := by
  unfold State.issueReceiver
  exact (State.updPlan_keeps (.update (State.writeRan_keeps (State.writeRan_keeps (State.writeRan_keeps (State.draw_keeps (State.draw_keeps hk)))))))

theorem effUlWindowClose_keeps {z : State} {c : CellId} {k : BitVec 4} {s : State} (hk : Keeps z s) :
    Keeps z (effUlWindowClose c k s) := by
  unfold effUlWindowClose
  dsimp only
  split
  · exact hk
  · split
    · exact hk
    · split
      · split
        · exact (State.issueReceiver_keeps (.foldl (State.updPlan_keeps hk) (fun _ _ hk => (.ite hk (State.updPlan_keeps (.foldl hk (fun _ _ hk => (State.writeRan_keeps hk))))))))
        · exact (.foldl (State.updPlan_keeps hk) (fun _ _ hk => (.ite hk (State.updPlan_keeps (.foldl hk (fun _ _ hk => (State.writeRan_keeps hk)))))))
      · exact (.foldl (State.updPlan_keeps hk) (fun _ _ hk => (.ite hk (State.updPlan_keeps (.foldl hk (fun _ _ hk => (State.writeRan_keeps hk)))))))

theorem effUlResultDeadline_keeps {z : State} {c : CellId} {s : State} (hk : Keeps z s) :
    Keeps z (effUlResultDeadline c s) := by
  unfold effUlResultDeadline
  dsimp only
  split
  · exact hk
  · exact (.ite hk (State.updPlan_keeps hk))

theorem effUlResultRecordWrite_keeps {z : State} {c : CellId} {i : BitVec 7} {s : State} (hk : Keeps z s) :
    Keeps z (effUlResultRecordWrite c i s) := by
  unfold effUlResultRecordWrite
  split
  · exact hk
  · split
    · exact hk
    · exact (.ite hk (State.updPlan_keeps (State.post_keeps (.ite (State.post_keeps (State.draw_keeps (State.draw_keeps hk))) (State.draw_keeps (State.draw_keeps hk))))))

theorem effRadioCompletionWrite_keeps {z : State} {c : CellId} {s : State} (hk : Keeps z s) :
    Keeps z (effRadioCompletionWrite c s) := by
  unfold effRadioCompletionWrite
  split
  · dsimp only
    split
    · exact hk
    · exact hk
  · split
    · dsimp only
      split
      · exact hk
      · exact (.ite (.update (State.raiseConditions_keeps (State.setCell_keeps hk))) (.update (State.post_keeps (State.raiseConditions_keeps (State.setCell_keeps hk)))))
    · dsimp only
      split
      · exact hk
      · exact (.ite (.update (State.raiseConditions_keeps (State.setCell_keeps hk))) (State.msix_keeps (.update (State.post_keeps (State.raiseConditions_keeps (State.setCell_keeps hk))))))

/-! ### Coding -/

theorem State.setUnit_keeps {z : State} {s : State} {u : UnitId} {x : CodingUnit} (hk : Keeps z s) :
    Keeps z (State.setUnit s u x) := by
  unfold State.setUnit
  exact (.update hk)

theorem State.startUnit_keeps {z : State} {s : State} {u : UnitId} {n c interval : Nat} {o : CodingOp} (hk : Keeps z s) :
    Keeps z (State.startUnit s u n c interval o) := by
  unfold State.startUnit
  exact (State.setUnit_keeps hk)

theorem effLdpcDecode_keeps {z : State} {u : UnitId} {b : CodeBlock} {read : List Byte} {n : Nat} {s : State} (hk : Keeps z s) :
    Keeps z (effLdpcDecode u b read n s) := by
  unfold effLdpcDecode
  split
  · exact hk
  · dsimp only
    split
    · exact hk
    · exact (.ite hk (State.startUnit_keeps (State.updPlan_keeps (State.writeRan_keeps (.iteFst (.pair hk) (State.readRan_keeps hk))))))

theorem State.startPlain_keeps {z : State} {s : State} {u : UnitId} {b : CodeBlock} {want : Nat → Bool} {kind : CodingKind} {c interval n : Nat} {result : Pdu → List Byte × Bool} (hk : Keeps z s) :
    Keeps z (State.startPlain s u b want kind c interval n result) := by
  unfold State.startPlain
  split
  · exact hk
  · exact (.ite hk (State.startUnit_keeps hk))

theorem effCodingOpComplete_keeps {z : State} {u : UnitId} {s : State} (hk : Keeps z s) :
    Keeps z (effCodingOpComplete u s) := by
  unfold effCodingOpComplete
  dsimp only
  split
  · exact hk
  · split
    · exact hk
    · split
      · split
        · exact (.ite (State.updPlan_keeps (.ite (State.setIsland_keeps (State.setUnit_keeps hk)) (State.setUnit_keeps hk))) (State.post_keeps (State.updPlan_keeps (.ite (State.setIsland_keeps (State.setUnit_keeps hk)) (State.setUnit_keeps hk)))))
        · exact (State.updPlan_keeps (.ite (State.setIsland_keeps (State.setUnit_keeps hk)) (State.setUnit_keeps hk)))
      · exact (State.updPlan_keeps (.ite (State.setIsland_keeps (State.setUnit_keeps hk)) (State.setUnit_keeps hk)))

/-! ### TimeBase -/

theorem State.setQuality_keeps {z : State} {s : State} {q : TimeQuality} (hk : Keeps z s) :
    Keeps z (State.setQuality s q) := by
  unfold State.setQuality
  exact (.ite hk (State.raise_keeps (.update hk)))

theorem effTimeBaseTick_keeps {z : State} {s : State} (hk : Keeps z s) :
    Keeps z (effTimeBaseTick s) := by
  unfold effTimeBaseTick
  exact (.ite (.update hk) (.ite (State.raise_keeps (.update hk)) (State.setQuality_keeps (State.raise_keeps (.update hk)))))

theorem State.writeIncrement_keeps {z : State} {s : State} {value comp : W64} (hk : Keeps z s) :
    Keeps z (State.writeIncrement s value comp).1 := by
  unfold State.writeIncrement
  exact (.iteFst (.pair hk) (.iteFst (.pair hk) (.pair (State.setQuality_keeps (.update hk)))))

theorem State.beginLoad_keeps {z : State} {s : State} {l : TimeLoad} (hk : Keeps z s) :
    Keeps z (State.beginLoad s l) := by
  unfold State.beginLoad
  exact (.update hk)

theorem State.writePhaseStep_keeps {z : State} {s : State} {step : W64} (hk : Keeps z s) :
    Keeps z (State.writePhaseStep s step).1 := by
  unfold State.writePhaseStep
  exact (.iteFst (.pair hk) (.iteFst (.iteFst (.pair hk) (.pair (State.beginLoad_keeps hk))) (.pair (.update hk))))

theorem effPhaseStepApply_keeps {z : State} {s : State} (hk : Keeps z s) :
    Keeps z (effPhaseStepApply s) := by
  unfold effPhaseStepApply
  split
  · exact hk
  · exact (.ite (.update hk) hk)

theorem State.writeTimeSet_keeps {z : State} {s : State} {value : BitVec 96} (hk : Keeps z s) :
    Keeps z (State.writeTimeSet s value).1 := by
  unfold State.writeTimeSet
  exact (.iteFst (.pair hk) (.iteFst (.pair hk) (.pair (State.setQuality_keeps (.update (State.beginLoad_keeps hk))))))

theorem State.loadTime_keeps {z : State} {s : State} {t : TimeBase} (hk : Keeps z s) :
    Keeps z (State.loadTime s t) := by
  unfold State.loadTime
  exact (.update hk)

theorem effTimeSetLoad_keeps {z : State} {s : State} (hk : Keeps z s) :
    Keeps z (effTimeSetLoad s) := by
  unfold effTimeSetLoad
  split
  · split
    · exact hk
    · exact (State.loadTime_keeps hk)
    · exact (State.loadTime_keeps hk)
  · exact hk

theorem effHoldoverDetectExpiry_keeps {z : State} {s : State} (hk : Keeps z s) :
    Keeps z (effHoldoverDetectExpiry s) := by
  unfold effHoldoverDetectExpiry
  exact (.ite (State.setQuality_keeps hk) hk)

theorem effHoldoverLimitExpiry_keeps {z : State} {s : State} (hk : Keeps z s) :
    Keeps z (effHoldoverLimitExpiry s) := by
  unfold effHoldoverLimitExpiry
  exact (.ite (State.setQuality_keeps hk) hk)

theorem effPpsInEdge_keeps {z : State} {s : State} (hk : Keeps z s) :
    Keeps z (effPpsInEdge s) := by
  unfold effPpsInEdge
  exact (.update hk)

theorem effRef10mDriftSample_keeps {z : State} {s : State} (hk : Keeps z s) :
    Keeps z (effRef10mDriftSample s) := by
  unfold effRef10mDriftSample
  split
  · exact (.update hk)
  · exact (.ite (.update hk) (.update (State.draw_keeps hk)))

theorem State.loseSynce_keeps {z : State} {s : State} (hk : Keeps z s) :
    Keeps z (State.loseSynce s) := by
  unfold State.loseSynce
  exact (.update hk)

/-! ### Ledgers -/

theorem State.poolStops_keeps {z : State} {s : State} {p : Pool} (hk : Keeps z s) :
    Keeps z (State.poolStops s p) := by
  unfold State.poolStops
  exact (.ite (State.stopGroup_keeps hk) (.ite (State.selfFence_keeps hk) (.ite (State.stopEngine_keeps hk) (.ite (State.setInst_keeps hk) (.ite (.foldl hk (fun _ _ hk => (State.setPort_keeps hk))) (effPeerDead_keeps hk))))))

theorem State.auditPool_keeps {z : State} {s : State} {p : Pool} (hk : Keeps z s) :
    Keeps z (State.auditPool s p) := by
  unfold State.auditPool
  exact (.ite hk (.ite (.ite (State.poolStops_keeps (State.raise_keeps hk)) (.ite (State.poolStops_keeps (State.raise_keeps (State.raise_keeps (.update hk)))) (State.raise_keeps (.update hk)))) (.ite (State.poolStops_keeps (State.raise_keeps hk)) hk)))

theorem State.auditLedgers_keeps {z : State} {s : State} (hk : Keeps z s) :
    Keeps z (State.auditLedgers s) := by
  unfold State.auditLedgers
  exact (.ite hk (.foldl hk (fun _ _ hk => (.ite hk (State.auditPool_keeps hk)))))

theorem State.fillGroupPools_keeps {z : State} {s : State} {g : Nat} (hk : Keeps z s) :
    Keeps z (State.fillGroupPools s g) := by
  unfold State.fillGroupPools
  exact (.update hk)

/-! ### HostLink -/

theorem State.landRead_keeps {z : State} {s : State} {e : EngineId} {c : ContextId} {r : HostRead} {result : ReadResult} {data : List Byte} (hk : Keeps z s) :
    Keeps z (State.landRead s e c r result data) := by
  unfold State.landRead
  exact (.foldl hk (fun _ _ hk => (State.landSource_keeps hk)))

theorem State.flushBack_keeps {z : State} {s : State} {f : Source} (hk : Keeps z s) :
    Keeps z (State.flushBack s f) := by
  unfold State.flushBack
  split
  · exact (State.flushLogs_keeps (State.completeHarvests_keeps hk))
  · exact (State.setInst_keeps hk)

theorem State.readEnds_keeps {z : State} {s : State} {tag : Nat} {r : HostRead} {result : ReadResult} {data : List Byte} (hk : Keeps z s) :
    Keeps z (State.readEnds s tag r result data) := by
  unfold State.readEnds
  split
  · exact (effSummaryLineRead_keeps hk)
  · exact (.foldl hk (fun _ _ hk => (State.batchArrived_keeps hk)))
  · exact (State.planArrived_keeps (State.endRead_keeps hk))
  · exact (State.payloadArrived_keeps (State.endRead_keeps hk))
  · exact (.ite (.update (State.endRead_keeps hk)) (State.countFailed_keeps (State.endRead_keeps hk)))
  · exact (.ite (State.countFailed_keeps (State.endRead_keeps hk)) (.ite (.update (State.endRead_keeps hk)) (.update (State.endRead_keeps hk))))
  · exact (.ite (.update (State.endRead_keeps hk)) (State.countFailed_keeps (State.endRead_keeps hk)))
  · exact (State.providerCounterRead_keeps (State.endRead_keeps hk))
  · exact (State.landRead_keeps (State.endRead_keeps hk))
  · exact (State.flushBack_keeps (State.endRead_keeps hk))

theorem effHostReadCompletion_keeps {z : State} {tag : Nat} {result : ReadResult} {data : List Byte} {s : State} (hk : Keeps z s) :
    Keeps z (effHostReadCompletion tag result data s) := by
  unfold effHostReadCompletion
  split
  · exact (.update hk)
  · exact (State.resumeRings_keeps (State.readEnds_keeps hk))

theorem effFlushReadTimeout_keeps {z : State} {f : Source} {s : State} (hk : Keeps z s) :
    Keeps z (effFlushReadTimeout f s) := by
  unfold effFlushReadTimeout
  split
  · exact hk
  · split
    · exact hk
    · split
      · exact (State.issueRead_keeps (State.endRead_keeps hk))
      · exact (State.setInst_keeps (State.issueRead_keeps (State.endRead_keeps hk)))

theorem effHostReadTimeout_keeps {z : State} {tag : Nat} {s : State} (hk : Keeps z s) :
    Keeps z (effHostReadTimeout tag s) := by
  unfold effHostReadTimeout
  split
  · exact hk
  · split
    · exact hk
    · split
      · exact (effFlushReadTimeout_keeps hk)
      · exact (State.readEnds_keeps hk)

theorem State.addStale_keeps {z : State} {s : State} {n : InstanceId} {k : Nat} (hk : Keeps z s) :
    Keeps z (State.addStale s n k) := by
  unfold State.addStale
  exact (State.setInst_keeps hk)

theorem State.resetInst_keeps {z : State} {s : State} {n : InstanceId} (hk : Keeps z s) :
    Keeps z (State.resetInst s n) := by
  unfold State.resetInst
  exact (.ite hk (State.flushInst_keeps (State.setInst_keeps (State.setObj_keeps (.update (.foldl hk (fun _ _ hk => (State.killContext_keeps hk))))))))

theorem effInstanceResetComplete_keeps {z : State} {n : InstanceId} {s0 : State} (hk : Keeps z s0) :
    Keeps z (effInstanceResetComplete n s0) := by
  unfold effInstanceResetComplete
  exact (.ite (State.raise_keeps (State.setInst_keeps (State.flushInst_keeps hk))) (State.flushInst_keeps hk))

theorem State.quiesceInst_keeps {z : State} {s : State} {n : InstanceId} (hk : Keeps z s) :
    Keeps z (State.quiesceInst s n).1 := by
  unfold State.quiesceInst
  exact (.iteFst (.pair (State.flushInst_keeps (State.setInst_keeps hk))) (.pair hk))

theorem State.resumeInst_keeps {z : State} {s : State} {n : InstanceId} (hk : Keeps z s) :
    Keeps z (State.resumeInst s n).1 := by
  unfold State.resumeInst
  exact (.iteFst (.pair (State.setInst_keeps hk)) (.pair hk))

theorem effQuiesceComplete_keeps {z : State} {n : InstanceId} {s0 : State} (hk : Keeps z s0) :
    Keeps z (effQuiesceComplete n s0) := by
  unfold effQuiesceComplete
  exact (.ite (State.setInst_keeps (State.flushInst_keeps hk)) (State.flushInst_keeps hk))

theorem State.applyImport_keeps {z : State} {s : State} {n : InstanceId} {rs : List Nat} (hk : Keeps z s) :
    Keeps z (State.applyImport s n rs) := by
  unfold State.applyImport
  refine Keeps.foldl ?_ (fun _ _ hk => ?_)
  · exact (State.setInst_keeps hk)
  · dsimp only
    split
    · exact (State.setEctx_keeps hk)
    · exact (State.updEngine_keeps hk)
    · exact hk

theorem State.finishImport_keeps {z : State} {s : State} {n : InstanceId} (hk : Keeps z s) :
    Keeps z (State.finishImport s n) := by
  unfold State.finishImport
  dsimp only
  split
  · exact hk
  · exact (.ite (State.applyImport_keeps hk) hk)

theorem State.importInst_keeps {z : State} {s : State} {n : InstanceId} {rs : List (BitVec 512)} (hk : Keeps z s) :
    Keeps z (State.importInst s n rs).1 := by
  unfold State.importInst
  exact (.iteFst (.pair hk) (.pair (State.finishImport_keeps (State.flushInst_keeps (State.setInst_keeps hk)))))

theorem effFlushReadComplete_keeps {z : State} {f : Source} {s : State} (hk : Keeps z s) :
    Keeps z (effFlushReadComplete f s) := by
  unfold effFlushReadComplete
  split
  · exact hk
  · split
    · exact (State.flushBack_keeps (State.endRead_keeps hk))
    · exact (State.finishImport_keeps (State.flushBack_keeps (State.endRead_keeps hk)))

theorem State.resetAll_keeps {z : State} {s : State} (hk : Keeps z s) :
    Keeps z (State.resetAll s) := by
  unfold State.resetAll
  exact (.foldl hk (fun _ _ hk => (State.resetInst_keeps hk)))

theorem State.clearPfObjects_keeps {z : State} {s : State} (hk : Keeps z s) :
    Keeps z (State.clearPfObjects s) := by
  unfold State.clearPfObjects
  exact (.update (State.setObj_keeps (State.setObj_keeps (State.setObj_keeps (State.setObj_keeps (.foldl (.foldl hk (fun _ _ hk => (State.setObj_keeps hk))) (fun _ _ hk => (State.setObj_keeps hk))))))))

theorem State.settleWrite_keeps {z : State} {s : State} {w : PostedWrite} (hk : Keeps z s) :
    Keeps z (State.settleWrite s w) := by
  unfold State.settleWrite
  split
  · exact (State.ackTarget_keeps hk)
  · exact (State.discardPost_keeps hk)

theorem State.settlePort_keeps {z : State} {s : State} (hk : Keeps z s) :
    Keeps z (State.settlePort s) := by
  unfold State.settlePort
  refine Keeps.foldl ?_ (fun _ _ hk => ?_)
  · exact (.foldl (.update hk) (fun _ _ hk => (State.settleWrite_keeps hk)))
  · split
    · exact (State.readEnds_keeps hk)
    · exact hk

theorem State.loseIde_keeps {z : State} {s : State} {k : Nat} (hk : Keeps z s) :
    Keeps z (State.loseIde s k) := by
  unfold State.loseIde
  exact (.ite (State.raise_keeps (.update hk)) hk)

theorem State.dropLink_keeps {z : State} {s : State} {phase : LinkPhase} (hk : Keeps z s) :
    Keeps z (State.dropLink s phase) := by
  unfold State.dropLink
  exact (.update (.foldl (State.settlePort_keeps (State.clearPfObjects_keeps (State.resetAll_keeps (.update hk)))) (fun _ _ hk => (State.loseIde_keeps hk))))

theorem State.writeDirtyLog_keeps {z : State} {s : State} {i new : Nat} (hk : Keeps z s) :
    Keeps z (State.writeDirtyLog s i new).1 := by
  unfold State.writeDirtyLog
  exact (.iteFst (.pair hk) (.iteFst (.pair hk) (.pair (State.flushLogs_keeps (.update (State.setObj_keeps hk))))))

theorem State.harvestLog_keeps {z : State} {s : State} {i : Nat} (hk : Keeps z s) :
    Keeps z (State.harvestLog s i).1 := by
  unfold State.harvestLog
  exact (.iteFst (.pair hk) (.iteFst (.pair hk) (.pair (State.flushLogs_keeps (.update hk)))))

/-! ### NearMemory -/

theorem effSegmentRead_keeps {z : State} {c : Fin 48} {segment : BitVec 25} {line : BitVec 2} {requester : UnitId} {cls : BitVec 2} {innerCorrected : Bool} {s : State} (hk : Keeps z s) :
    Keeps z (effSegmentRead c segment line requester cls innerCorrected s) := by
  unfold effSegmentRead
  dsimp only
  split
  · exact (State.setChannel_keeps (State.unmapped_keeps hk))
  · exact (State.setChannel_keeps (State.readNearLine_keeps (.ite (State.memEvent_keeps (State.memError_keeps hk)) hk)))

theorem effWriteHoldExpiry_keeps {z : State} {c : Fin 48} {segment : BitVec 25} {s : State} (hk : Keeps z s) :
    Keeps z (effWriteHoldExpiry c segment s) := by
  unfold effWriteHoldExpiry
  exact (State.setChannel_keeps hk)

theorem effMergeReadDecode_keeps {z : State} {c : Fin 48} {segment : BitVec 25} {s : State} (hk : Keeps z s) :
    Keeps z (effMergeReadDecode c segment s) := by
  unfold effMergeReadDecode
  split
  · exact (.ite hk (.ite (State.refuseSegment_keeps hk) (State.mergeSegment_keeps hk)))
  · exact hk

theorem effEdcReplay_keeps {z : State} {c : Fin 48} {good : Bool} {s : State} (hk : Keeps z s) :
    Keeps z (effEdcReplay c good s) := by
  unfold effEdcReplay
  exact (.ite hk (.ite (State.memEvent_keeps (State.setChannel_keeps (State.memError_keeps hk))) (.ite (State.setChannel_keeps (State.memError_keeps hk)) (.foldl (State.memEvent_keeps (State.setChannel_keeps (State.memError_keeps hk))) (fun _ _ hk => (State.refuseSegment_keeps hk))))))

theorem effPatrolRead_keeps {z : State} {c : Fin 48} {s : State} (hk : Keeps z s) :
    Keeps z (effPatrolRead c s) := by
  unfold effPatrolRead
  dsimp only
  split
  · exact hk
  · split
    · exact hk
    · split
      · exact (.ite (State.memEvent_keeps (State.memError_keeps (.updateMem (State.setChannel_keeps hk)))) (.ite (State.memEvent_keeps (State.memError_keeps (.updateMem (State.setChannel_keeps hk)))) (.ite (State.memEvent_keeps (State.memError_keeps (.updateMem (State.draw_keeps (State.setChannel_keeps hk))))) (State.memEvent_keeps (State.memError_keeps (State.putNear_keeps (State.draw_keeps (State.draw_keeps (State.setChannel_keeps hk)))))))))
      · exact (State.setChannel_keeps hk)

theorem State.zeroRange_keeps {z s : State} {base length : Nat} (hk : Keeps z s) : Keeps z (s.zeroRange base length) :=
  .writeMem hk (fun hm => by simp only [Memory.wf, Bool.and_eq_true] at hm ⊢; exact ⟨Tab.wf_filter hm.1 _, Tab.wf_filter hm.2 _⟩)

theorem effRegionClearComplete_keeps {z : State} {region : BitVec 12} {s : State} (hk : Keeps z s) :
    Keeps z (effRegionClearComplete region s) := by
  unfold effRegionClearComplete
  dsimp only
  split
  · exact (State.raise_keeps (.updateMem (State.zeroRange_keeps hk)))
  · exact hk

theorem State.setD2d_keeps {z : State} {s : State} {l : Fin 3} {f : D2dLink → D2dLink} (hk : Keeps z s) :
    Keeps z (State.setD2d s l f) := by
  unfold State.setD2d
  exact (.update hk)

theorem effD2dRetrainTimeout_keeps {z : State} {l : Fin 3} {s : State} (hk : Keeps z s) :
    Keeps z (effD2dRetrainTimeout l s) := by
  unfold effD2dRetrainTimeout
  exact (.ite (State.selfFence_keeps (State.setD2d_keeps hk)) hk)

/-! ### BootFlash -/

theorem State.setImage_keeps {z : State} {s : State} {k : Nat} {i : ImageSlot} (hk : Keeps z s) :
    Keeps z (State.setImage s k i) := by
  unfold State.setImage
  exact (.update hk)

theorem State.rejectImage_keeps {z : State} {s : State} {k : Nat} (hk : Keeps z s) :
    Keeps z (State.rejectImage s k) := by
  unfold State.rejectImage
  exact (State.setImage_keeps hk)

theorem State.trySlot_keeps {z : State} {s : State} {k : Nat} (hk : Keeps z s) :
    Keeps z (State.trySlot s k).1 := by
  unfold State.trySlot
  exact (.iteFst (.pair (State.rejectImage_keeps hk)) (.iteFst (.pair (State.setImage_keeps hk)) (.pair (State.rejectImage_keeps hk))))

theorem State.trySlots_keeps {z s : State}  {qs : List Nat} (hk : Keeps z s) : Keeps z (s.trySlots qs).1 := by
  induction qs generalizing s with
  | nil => exact hk
  | cons q qs ih =>
    rw [State.trySlots]
    split
    · exact (State.trySlot_keeps hk)
    · exact (ih (State.trySlot_keeps hk))

theorem State.chooseSlot_keeps {z s : State}  {n : Nat} (hk : Keeps z s) : Keeps z (s.chooseSlot n).1 := by
  induction n generalizing s with
  | zero => exact hk
  | succ n ih =>
    rw [State.chooseSlot]
    split
    · exact (State.trySlots_keeps hk)
    · exact (.iteFst (State.trySlots_keeps hk) (ih (State.rejectImage_keeps (State.trySlots_keeps hk))))

theorem State.loadSignalImage_keeps {z : State} {s : State} {k : Nat} (hk : Keeps z s) :
    Keeps z (State.loadSignalImage s k) := by
  unfold State.loadSignalImage
  split
  · exact hk
  · exact (.ite (.update hk) (.update hk))

theorem State.eraseInactive_keeps {z : State} {s : State} (hk : Keeps z s) :
    Keeps z (State.eraseInactive s).1 := by
  unfold State.eraseInactive
  exact (.iteFst (.pair hk) (.pair (State.setImage_keeps hk)))

theorem State.armTrial_keeps {z : State} {s : State} (hk : Keeps z s) :
    Keeps z (State.armTrial s).1 := by
  unfold State.armTrial
  exact (.iteFst (.pair hk) (.iteFst (.pair (State.setImage_keeps hk)) (.pair hk)))

theorem State.confirmRunning_keeps {z : State} {s : State} (hk : Keeps z s) :
    Keeps z (State.confirmRunning s).1 := by
  unfold State.confirmRunning
  exact (.iteFst (.pair hk) (.pair (State.setImage_keeps hk)))

theorem State.advanceRollback_keeps {z : State} {s : State} (hk : Keeps z s) :
    Keeps z (State.advanceRollback s).1 := by
  unfold State.advanceRollback
  exact (.iteFst (.pair hk) (.pair (.ite (State.rejectImage_keeps (.update hk)) (.update hk))))

theorem State.firmwareCommand_keeps {z : State} {s : State} {code : Nat} (hk : Keeps z s) :
    Keeps z (State.firmwareCommand s code).1 := by
  unfold State.firmwareCommand
  split
  · exact (State.eraseInactive_keeps hk)
  · exact (State.armTrial_keeps hk)
  · exact (State.confirmRunning_keeps hk)
  · exact (State.advanceRollback_keeps hk)
  · exact (.pair hk)

theorem State.writeImage_keeps {z : State} {s : State} {offset : Nat} {data : List Byte} (hk : Keeps z s) :
    Keeps z (State.writeImage s offset data).1 := by
  unfold State.writeImage
  exact (.iteFst (.pair hk) (.pair (State.setImage_keeps hk)))

theorem State.writeIntegratorDigest_keeps {z : State} {s : State} {digest : BitVec 512} (hk : Keeps z s) :
    Keeps z (State.writeIntegratorDigest s digest).1 := by
  unfold State.writeIntegratorDigest
  exact (.iteFst (.pair hk) (.pair (.update hk)))

theorem State.orderReset_keeps {z : State} {s : State} {value : Nat} (hk : Keeps z s) :
    Keeps z (State.orderReset s value).1 := by
  unfold State.orderReset
  exact (.iteFst (.pair hk) (.iteFst (.pair hk) (.pair (.update hk))))

/-! ### Versions -/

theorem State.noteNumber_keeps {z : State} {s : State} {r : NumberRead} (hk : Keeps z s) :
    Keeps z (State.noteNumber s r) := by
  unfold State.noteNumber
  split
  · exact hk
  · exact (State.raise_keeps hk)
  · exact (State.raise_keeps hk)

theorem State.ungateGroups_keeps {z : State} {s : State} {t : Tab Nat} (hk : Keeps z s) :
    Keeps z (State.ungateGroups s t) := by
  unfold State.ungateGroups
  exact (.foldl (State.ungateFor_keeps hk) (fun _ _ hk => (State.fillGroupPools_keeps hk)))

theorem State.regateGroups_keeps {z : State} {s : State} {t : Tab Nat} (hk : Keeps z s) :
    Keeps z (State.regateGroups s t) := by
  unfold State.regateGroups
  exact (.foldl hk (fun _ _ hk => (effGroupGate_keeps hk)))

theorem State.commitVersion_keeps {z : State} {s : State} {version : W32} (hk : Keeps z s) :
    Keeps z (State.commitVersion s version).1 := by
  unfold State.commitVersion
  split
  · exact (.iteFst (.pair (State.noteNumber_keeps hk)) (.pair hk))
  · split
    · exact (.iteFst (.pair (State.noteNumber_keeps hk)) (.pair (.update hk)))
    · exact (.iteFst (.pair (State.noteNumber_keeps hk)) (.pair (State.ungateGroups_keeps (.update hk))))

theorem State.revertVersion_keeps {z : State} {s : State} {version : W32} (hk : Keeps z s) :
    Keeps z (State.revertVersion s version).1 := by
  unfold State.revertVersion
  exact (.iteFst (.pair (State.noteNumber_keeps hk)) (.iteFst (.pair (State.regateGroups_keeps (.update (State.noteNumber_keeps hk)))) (.iteFst (.pair (State.noteNumber_keeps hk)) (.iteFst (.pair (State.noteNumber_keeps hk)) (.pair (State.ungateGroups_keeps (.update (State.noteNumber_keeps hk))))))))

theorem State.confirmVersion_keeps {z : State} {s : State} {version : W32} {flashGood : Bool} (hk : Keeps z s) :
    Keeps z (State.confirmVersion s version flashGood).1 := by
  unfold State.confirmVersion
  exact (.iteFst (.pair (State.noteNumber_keeps hk)) (.iteFst (.pair (State.noteWrap_keeps (State.noteNumber_keeps hk))) (.iteFst (.pair (State.noteNumber_keeps hk)) (.iteFst (.pair (.update (State.noteWrap_keeps (State.noteNumber_keeps hk)))) (.pair (.update (State.noteWrap_keeps (State.noteNumber_keeps hk))))))))

theorem State.resetStaging_keeps {z : State} {s : State} {value : BitVec 8} (hk : Keeps z s) :
    Keeps z (State.resetStaging s value).1 := by
  unfold State.resetStaging
  exact (.iteFst (.pair hk) (.iteFst (.pair hk) (.pair (.update hk))))

theorem State.storeSettings_keeps {z : State} {s : State} (hk : Keeps z s) :
    Keeps z (State.storeSettings s) := by
  unfold State.storeSettings
  exact (.update hk)

theorem State.persist_keeps {z s new : State} {flashGood : Bool} (hk : Keeps z s) (hn : Keeps z new) :
    Keeps z (s.persist new flashGood).1 :=
  .iteFst (State.storeSettings_keeps hn) hk

theorem effConfirmDeadlineUngate_keeps {z : State} {s : State} (hk : Keeps z s) :
    Keeps z (effConfirmDeadlineUngate s) := by
  unfold effConfirmDeadlineUngate
  exact (.ite (State.ungateGroups_keeps hk) hk)

/-! ### Integrity -/

theorem effEventRecordWrite_keeps {z : State} {index : BitVec 16} {s : State} (hk : Keeps z s) :
    Keeps z (effEventRecordWrite index s) := by
  unfold effEventRecordWrite
  split
  · exact hk
  · exact (.ite hk (State.writeEvent_keeps (.update hk)))

theorem effFaultLogWrite_keeps {z : State} {s : State} (hk : Keeps z s) :
    Keeps z (effFaultLogWrite s) := by
  unfold effFaultLogWrite
  exact (.update hk)

theorem State.reflagParts_keeps {z : State} {s : State} (hk : Keeps z s) :
    Keeps z (State.reflagParts s) := by
  unfold State.reflagParts
  exact (.foldl hk (fun _ _ hk => (State.reflagAll_keeps hk)))

theorem effHealthDecay_keeps {z : State} {s : State} (hk : Keeps z s) :
    Keeps z (effHealthDecay s) := by
  unfold effHealthDecay
  exact (.ite hk (State.reflagParts_keeps (.update hk)))

theorem State.sweepIsland_keeps {z : State} {s : State} {u : UnitId} (hk : Keeps z s) :
    Keeps z (State.sweepIsland s u) := by
  unfold State.sweepIsland
  exact (.foldl hk (fun _ _ hk => (State.raiseIf_keeps hk)))

theorem State.sweepEngine_keeps {z : State} {s : State} {e : EngineId} (hk : Keeps z s) :
    Keeps z (State.sweepEngine s e) := by
  unfold State.sweepEngine
  dsimp only
  split
  · exact (.foldl hk (fun _ _ hk => (State.checkBounds_keeps hk)))
  · exact (.ite (.foldl hk (fun _ _ hk => (State.checkBounds_keeps hk))) (State.mooringFault_keeps (.foldl hk (fun _ _ hk => (State.checkBounds_keeps hk)))))

theorem State.sweepIncrement_keeps {z : State} {s : State} (hk : Keeps z s) :
    Keeps z (State.sweepIncrement s) := by
  unfold State.sweepIncrement
  split
  · exact hk
  · exact (State.raise_keeps hk)
  · exact (State.setQuality_keeps (State.raise_keeps hk))

theorem State.sweepGenerations_keeps {z : State} {s : State} (hk : Keeps z s) :
    Keeps z (State.sweepGenerations s) := by
  unfold State.sweepGenerations
  exact (.foldl hk (fun _ _ hk => (.ite hk (State.resetInst_keeps (State.raise_keeps hk)))))

theorem State.sweepRegions_keeps {z : State} {s : State} (hk : Keeps z s) :
    Keeps z (State.sweepRegions s) := by
  unfold State.sweepRegions
  exact (.foldl hk (fun _ _ hk => (.ite hk (State.raise_keeps hk))))

theorem State.sweepLedgers_keeps {z : State} {s : State} (hk : Keeps z s) :
    Keeps z (State.sweepLedgers s) := by
  unfold State.sweepLedgers
  exact (.ite hk (.foldl hk (fun _ _ hk => (.ite hk (State.auditPool_keeps hk)))))

theorem effComplementSweep_keeps {z : State} {s : State} (hk : Keeps z s) :
    Keeps z (effComplementSweep s) := by
  unfold effComplementSweep
  exact (State.noteNumber_keeps (State.noteNumber_keeps (State.noteNumber_keeps (State.sweepLedgers_keeps (State.sweepRegions_keeps (State.sweepGenerations_keeps (State.sweepIncrement_keeps (.foldl (.foldl hk (fun _ _ hk => (State.sweepIsland_keeps hk))) (fun _ _ hk => (State.sweepEngine_keeps hk))))))))))

theorem effSelfTestSegment_keeps {z : State} {e : EngineId} {a : ArrayId} {faultyRow : Option (BitVec 6)} {cycle : Nat} {s : State} (hk : Keeps z s) :
    Keeps z (effSelfTestSegment e a faultyRow cycle s) := by
  unfold effSelfTestSegment
  split
  · exact hk
  · dsimp only
    split
    · exact hk
    · exact (.ite hk (State.raiseIf_keeps (.update (State.countArrayCtr_keeps (State.countPass_keeps (State.updEngine_keeps hk))))))

theorem State.clearQuarantine_keeps {z : State} {s : State} {unit : BitVec 16} (hk : Keeps z s) :
    Keeps z (State.clearQuarantine s unit).1 := by
  unfold State.clearQuarantine
  exact (.iteFst (.iteFst (.pair (State.updEngine_keeps hk)) (.pair hk)) (.iteFst (.iteFst (.pair (State.setCore_keeps hk)) (.pair hk)) (.pair hk)))

theorem State.applyOrder_keeps {z : State} {s : State} {r : Nat} (hk : Keeps z s) :
    Keeps z (State.applyOrder s r) := by
  unfold State.applyOrder
  split
  · exact (.update (.update hk))
  · exact (.update (.update hk))
  · exact (.update (.update hk))

theorem State.orderEvent_keeps {z : State} {s : State} {st : BitVec 8} (hk : Keeps z s) :
    Keeps z (State.orderEvent s st) := by
  unfold State.orderEvent
  exact (State.raise_keeps hk)

theorem State.managerOrder_keeps {z : State} {s : State} {order : List Byte} {flashGood : Bool} (hk : Keeps z s) :
    Keeps z (State.managerOrder s order flashGood).1 := by
  unfold State.managerOrder
  exact (.iteFst (.iteFst (.pair (State.orderEvent_keeps (State.persist_keeps hk (State.applyOrder_keeps hk)))) (State.persist_keeps hk (State.applyOrder_keeps hk))) (.pair (State.orderEvent_keeps hk)))

theorem State.applyKeys_keeps {z : State} {s : State} {value : BitVec 8} {flashGood : Bool} (hk : Keeps z s) :
    Keeps z (State.applyKeys s value flashGood).1 := by
  unfold State.applyKeys
  exact (.iteFst (.pair hk) (.iteFst (.pair hk) (State.persist_keeps hk (.update hk))))

theorem effFirmwareHeartbeatTimeout_keeps {z : State} {s : State} (hk : Keeps z s) :
    Keeps z (effFirmwareHeartbeatTimeout s) := by
  unfold effFirmwareHeartbeatTimeout
  exact (.update (State.selfFence_keeps hk))

/-! ### Traffic -/

theorem State.mgmtRecord_keeps {z : State} {s : State} {kind port colour status tag : Nat} {stamp : BitVec 96} {frame : List Byte} (hk : Keeps z s) :
    Keeps z (State.mgmtRecord s kind port colour status tag stamp frame) := by
  unfold State.mgmtRecord
  exact (.ite (.ite (State.post_keeps (.update hk)) (State.msix_keeps (State.post_keeps (.update hk)))) (.update hk))

theorem State.flushTx_keeps {z s : State}  {n : Nat} (hk : Keeps z s) : Keeps z (s.flushTx n) := by
  induction n generalizing s with
  | zero => exact hk
  | succ n ih =>
    rw [State.flushTx]
    dsimp only
    split
    · exact hk
    · exact (ih (State.mgmtRecord_keeps (.update hk)))

theorem State.endTx_keeps {z : State} {s : State} {serial : Nat} {status : BitVec 8} {stamp : BitVec 96} (hk : Keeps z s) :
    Keeps z (State.endTx s serial status stamp) := by
  unfold State.endTx
  exact (State.flushTx_keeps (.update hk))

theorem State.police_keeps {z : State} {s : State} {p : Fin 84} {cls : RxClass} {dei : Bool} {length : Nat} {stamp : BitVec 96} (hk : Keeps z s) :
    Keeps z (State.police s p cls dei length stamp).1 := by
  unfold State.police
  split
  · dsimp only
    split
    · exact (.pair hk)
    · exact (.iteFst (.pair (State.countPort_keeps (State.countPort_keeps (State.setPort_keeps hk)))) (.pair (State.countPort_keeps (State.setPort_keeps hk))))
  · dsimp only
    split
    · exact (.pair hk)
    · exact (.iteFst (.pair (State.countPort_keeps (State.countPort_keeps (State.setPort_keeps hk)))) (.pair (State.countPort_keeps (State.setPort_keeps hk))))

theorem State.fillShapers_keeps {z : State} {s : State} {p : Fin 84} (hk : Keeps z s) :
    Keeps z (State.fillShapers s p) := by
  unfold State.fillShapers
  exact (State.setPort_keeps hk)

theorem State.macsecReceive_keeps {z : State} {s : State} {p : Fin 84} {f : List Byte} (hk : Keeps z s) :
    Keeps z (State.macsecReceive s p f).1 := by
  unfold State.macsecReceive
  split
  · exact (.pair hk)
  · split
    · exact (.pair hk)
    · dsimp only
      split
      · exact (.pair hk)
      · exact (.iteFst (.pair hk) (.iteFst (.pair hk) (.iteFst (.pair hk) (.pair (State.setPort_keeps hk)))))

theorem State.macsecTransmit_keeps {z : State} {s : State} {p : Fin 84} {f : List Byte} (hk : Keeps z s) :
    Keeps z (State.macsecTransmit s p f).1 := by
  unfold State.macsecTransmit
  exact (.iteFst (.pair hk) (.iteFst (.pair hk) (.pair (State.raiseIf_keeps (State.setPort_keeps hk)))))

end Sys2Proof.Machine
end

