-- ==== Sys2Proof/Laws/KeepsD.lean ====
section
/-!
SUPPORT. What the operations of Ports, KeeperLine, Dictionary, FarTier, VectorUnit, Gather, Keeper, Orders, Period keep: the queue of commands and the canonical form
of memory.
-/

namespace Sys2Proof.Machine

/-! ### Ports -/

theorem State.dropRx_keeps {z : State} {s : State} {p : Fin 84} {place : Nat} (hk : Keeps z s) :
    Keeps z (State.dropRx s p place) := by
  unfold State.dropRx
  exact (State.portStat_keeps (State.countPort_keeps hk))

theorem State.mgmtReceive_keeps {z : State} {s : State} {p : Fin 84} {colour : Nat} {stamp : BitVec 96} {f : List Byte} (hk : Keeps z s) :
    Keeps z (State.mgmtReceive s p colour stamp f) := by
  unfold State.mgmtReceive
  exact (.ite (State.mgmtRecord_keeps hk) (State.portStat_keeps hk))

theorem State.intoIngress_keeps {z : State} {s : State} {p : Fin 84} {f : List Byte} (hk : Keeps z s) :
    Keeps z (State.intoIngress s p f) := by
  unfold State.intoIngress
  exact (.ite (State.fabricStat_keeps hk) (.update hk))

theorem State.deliverRx_keeps {z : State} {s : State} {p : Fin 84} {cls : RxClass} {colour : Nat} {stamp : BitVec 96} {f : List Byte} (hk : Keeps z s) :
    Keeps z (State.deliverRx s p cls colour stamp f) := by
  unfold State.deliverRx
  split
  · exact (.ite (State.ecpriRx_keeps hk) (State.dropRx_keeps hk))
  · exact (.ite (State.dropRx_keeps hk) (.ite (State.portStat_keeps hk) (State.intoIngress_keeps hk)))
  · exact (.ite (State.mgmtReceive_keeps hk) (State.dropRx_keeps hk))
  · exact (.ite (State.mgmtReceive_keeps hk) (State.dropRx_keeps hk))
  · exact (State.mgmtReceive_keeps hk)
  · exact (State.mgmtReceive_keeps hk)
  · exact (.ite (State.mgmtReceive_keeps hk) (State.dropRx_keeps hk))

theorem State.frameArrives_keeps {z : State} {p : Fin 84} {f : List Byte} {fcsGood : Bool} {raw : BitVec 96} {s : State} (hk : Keeps z s) :
    Keeps z (State.frameArrives p f fcsGood raw s) := by
  unfold State.frameArrives
  split
  · exact hk
  · split
    · exact (State.portStat_keeps (State.portStat_keeps (State.portStat_keeps (State.portStat_keeps hk))))
    · split
      · dsimp only
        split
        · exact (State.dropRx_keeps (State.portStat_keeps (State.portStat_keeps hk)))
        · split
          · exact (State.portStat_keeps (State.dropRx_keeps (.fst (by assumption) (State.macsecReceive_keeps (State.portStat_keeps (State.portStat_keeps hk))))))
          · exact (.ite (State.portStat_keeps (State.police_keeps (.fst (by assumption) (State.macsecReceive_keeps (State.portStat_keeps (State.portStat_keeps hk)))))) (State.deliverRx_keeps (State.police_keeps (.fst (by assumption) (State.macsecReceive_keeps (State.portStat_keeps (State.portStat_keeps hk)))))))
      · dsimp only
        split
        · exact (State.dropRx_keeps (State.portStat_keeps (State.portStat_keeps hk)))
        · split
          · exact (State.portStat_keeps (State.dropRx_keeps (.fst (by assumption) (State.macsecReceive_keeps (State.portStat_keeps (State.portStat_keeps hk))))))
          · exact (.ite (State.portStat_keeps (.fst (by assumption) (State.macsecReceive_keeps (State.portStat_keeps (State.portStat_keeps hk))))) (State.deliverRx_keeps (.fst (by assumption) (State.macsecReceive_keeps (State.portStat_keeps (State.portStat_keeps hk))))))

theorem State.noteDropped_keeps {z : State} {t s : State} {p : Fin 84} {place : Nat} {f : List Byte} (hk : Keeps z t) :
    Keeps z (State.noteDropped t s p place f) := by
  unfold State.noteDropped
  exact (.ite (State.progPort_keeps hk) hk)

theorem effFrameRx_keeps {z : State} {p : Fin 84} {f : List Byte} {fcsGood : Bool} {raw : BitVec 96} {s : State} (hk : Keeps z s) :
    Keeps z (effFrameRx p f fcsGood raw s) := by
  unfold effFrameRx
  exact (.ite hk (State.noteDropped_keeps (State.progPort_keeps (State.frameArrives_keeps hk))))

theorem State.fillLost_keeps {z : State} {s : State} {f : Frame} (hk : Keeps z s) :
    Keeps z (State.fillLost s f) := by
  unfold State.fillLost
  split
  · split
    · exact hk
    · exact (.ite hk (State.countFill_keeps (State.updPlan_keeps hk)))
  · exact (State.countFill_keeps hk)
  · exact hk

theorem effPortDown_keeps {z : State} {p : Fin 84} {s : State} (hk : Keeps z s) :
    Keeps z (effPortDown p s) := by
  unfold effPortDown
  exact (.ite hk (.ite (.foldl (.foldl (State.raise_keeps (State.loseSynce_keeps (State.setPort_keeps (State.draw_keeps hk)))) (fun _ _ hk => (State.fillLost_keeps hk))) (fun _ _ hk => (.ite (State.setCell_keeps hk) hk))) (State.retransmitPort_keeps (State.raise_keeps (State.loseSynce_keeps (State.setPort_keeps (State.draw_keeps hk)))))))

theorem effPortUp_keeps {z : State} {p : Fin 84} {s : State} (hk : Keeps z s) :
    Keeps z (effPortUp p s) := by
  unfold effPortUp
  exact (.ite hk (.ite (State.raise_keeps (State.setPort_keeps hk)) (State.pumpPeers_keeps (State.raise_keeps (State.setPort_keeps hk)))))

theorem State.selectPass_keeps {z s : State} {p : Fin 84} {qs : List Nat} (hk : Keeps z s) : Keeps z (s.selectPass p qs).1 := by
  induction qs generalizing s with
  | nil => exact hk
  | cons q qs ih =>
    rw [State.selectPass]
    split
    · exact (ih hk)
    · exact (.iteFst (ih hk) (.iteFst (ih hk) (.iteFst (ih (State.setPort_keeps hk)) hk)))

theorem State.selectFrame_keeps {z : State} {s : State} {p : Fin 84} (hk : Keeps z s) :
    Keeps z (State.selectFrame s p).1 := by
  unfold State.selectFrame
  dsimp only
  split
  · exact (.pair (State.selectPass_keeps hk))
  · exact (.iteFst (.pair (State.selectPass_keeps (State.selectPass_keeps hk))) (.pair (State.selectPass_keeps hk)))

theorem State.noteSent_keeps {z : State} {s : State} {f : Frame} (hk : Keeps z s) :
    Keeps z (State.noteSent s f) := by
  unfold State.noteSent
  split
  · exact (State.updPlan_keeps hk)
  · exact hk

theorem effFrameSelect_keeps {z : State} {p : Fin 84} {s0 : State} (hk : Keeps z s0) :
    Keeps z (effFrameSelect p s0) := by
  unfold effFrameSelect
  dsimp only
  split
  · exact (State.fillShapers_keeps (State.setPort_keeps hk))
  · split
    · exact (.fst (by assumption) (State.selectFrame_keeps (State.fillShapers_keeps (State.setPort_keeps hk))))
    · split
      · split
        · exact (State.endTx_keeps (State.fillLost_keeps (State.progPort_keeps (State.portStat_keeps (State.countPort_keeps (.fst (by assumption) (State.macsecTransmit_keeps (State.setPort_keeps (.fst (by assumption) (State.selectFrame_keeps (State.fillShapers_keeps (State.setPort_keeps hk))))))))))))
        · exact (State.fillLost_keeps (State.progPort_keeps (State.portStat_keeps (State.countPort_keeps (.fst (by assumption) (State.macsecTransmit_keeps (State.setPort_keeps (.fst (by assumption) (State.selectFrame_keeps (State.fillShapers_keeps (State.setPort_keeps hk)))))))))))
      · split
        · exact (.ite (State.endTx_keeps (State.draw_keeps (State.noteSent_keeps (State.progPort_keeps (State.progPort_keeps (State.portStat_keeps (State.portStat_keeps (State.setPort_keeps (.fst (by assumption) (State.macsecTransmit_keeps (State.setPort_keeps (.fst (by assumption) (State.selectFrame_keeps (State.fillShapers_keeps (State.setPort_keeps hk))))))))))))))) (State.endTx_keeps (State.noteSent_keeps (State.progPort_keeps (State.progPort_keeps (State.portStat_keeps (State.portStat_keeps (State.setPort_keeps (.fst (by assumption) (State.macsecTransmit_keeps (State.setPort_keeps (.fst (by assumption) (State.selectFrame_keeps (State.fillShapers_keeps (State.setPort_keeps hk)))))))))))))))
        · exact (State.noteSent_keeps (State.progPort_keeps (State.progPort_keeps (State.portStat_keeps (State.portStat_keeps (State.setPort_keeps (.fst (by assumption) (State.macsecTransmit_keeps (State.setPort_keeps (.fst (by assumption) (State.selectFrame_keeps (State.fillShapers_keeps (State.setPort_keeps hk)))))))))))))

theorem effGateEdge_keeps {z : State} {p : Fin 84} {s : State} (hk : Keeps z s) :
    Keeps z (effGateEdge p s) := by
  unfold effGateEdge
  exact (.ite hk (.ite (State.setPort_keeps hk) hk))

theorem effMgmtTxDescriptor_keeps {z : State} {descriptor : BitVec 256} {frame : List Byte} {s : State} (hk : Keeps z s) :
    Keeps z (effMgmtTxDescriptor descriptor frame s) := by
  unfold effMgmtTxDescriptor
  dsimp only
  split
  · exact hk
  · split
    · exact (State.endTx_keeps (.update hk))
    · exact (State.enqueue_keeps (.update hk))

theorem effMgmtTxTimeout_keeps {z : State} {p : Fin 84} {s : State} (hk : Keeps z s) :
    Keeps z (effMgmtTxTimeout p s) := by
  unfold effMgmtTxTimeout
  dsimp only
  split
  · exact hk
  · exact (State.endTx_keeps (State.setPort_keeps hk))

theorem State.writeMgmtEnable_keeps {z : State} {s : State} {v : Nat} (hk : Keeps z s) :
    Keeps z (State.writeMgmtEnable s v).1 := by
  unfold State.writeMgmtEnable
  exact (.iteFst (.pair hk) (.pair (State.setObj_keeps (.ite (.update hk) hk))))

theorem State.installSak_keeps {z : State} {s : State} {r : Nat} (hk : Keeps z s) :
    Keeps z (State.installSak s r).1 := by
  unfold State.installSak
  split
  · exact (.iteFst (.pair hk) (.pair (State.setPort_keeps hk)))
  · exact (.pair hk)

/-! ### KeeperLine -/

theorem State.keeperStat_keeps {z : State} {s : State} {place : Nat} (hk : Keeps z s) :
    Keeps z (State.keeperStat s place) := by
  unfold State.keeperStat
  exact (.update hk)

theorem State.keeperOut_keeps {z : State} {s : State} {q : KeeperPacket} (hk : Keeps z s) :
    Keeps z (State.keeperOut s q) := by
  unfold State.keeperOut
  exact (State.keeperStat_keeps (.update hk))

theorem State.keeperTransmit_keeps {z : State} {s : State} {dest : BitVec 128} {q : KeeperPacket} (hk : Keeps z s) :
    Keeps z (State.keeperTransmit s dest q) := by
  unfold State.keeperTransmit
  split
  · exact (State.keeperStat_keeps hk)
  · exact (.ite (State.keeperOut_keeps hk) (.ite (.update hk) (State.keeperOut_keeps (.update hk))))

theorem State.keeperSend_keeps {z : State} {s : State} {dest : BitVec 128} {port : W16} {kind : Nat} {payload : List Byte} {reject : Nat} (hk : Keeps z s) :
    Keeps z (State.keeperSend s dest port kind payload reject) := by
  unfold State.keeperSend
  exact (State.keeperTransmit_keeps hk)

theorem State.setSession_keeps {z : State} {s : State} {k : BitVec 2} {v : Session} (hk : Keeps z s) :
    Keeps z (State.setSession s k v) := by
  unfold State.setSession
  exact (.update hk)

theorem State.sendSecured_keeps {z : State} {s : State} {x : Session} {data : List Byte} (hk : Keeps z s) :
    Keeps z (State.sendSecured s x data) := by
  unfold State.sendSecured
  exact (State.keeperSend_keeps hk)

/-! ### Dictionary -/

theorem State.readPair_keeps {z : State} {s : State} {o : ObjInfo} (hk : Keeps z s) :
    Keeps z (State.readPair s o).1 := by
  unfold State.readPair
  split
  · dsimp only
    split
    · exact (.pair hk)
    · exact (.pair (State.noteNumber_keeps (.update hk)))
    · exact (.pair (State.noteNumber_keeps hk))
  · dsimp only
    split
    · exact (.pair hk)
    · exact (.pair (State.noteNumber_keeps (.update hk)))
    · exact (.pair (State.noteNumber_keeps hk))
  · dsimp only
    split
    · exact (.pair hk)
    · exact (.pair (State.noteNumber_keeps (.update hk)))
    · exact (.pair (State.noteNumber_keeps hk))
  · exact (.pair (State.sweepIncrement_keeps hk))

theorem State.readObject_keeps {z : State} {s : State} {who : Requester} {o : ObjInfo} {r : Nat} (hk : Keeps z s) :
    Keeps z (State.readObject s who o r).1 := by
  unfold State.readObject
  split
  · exact (.pair hk)
  · split
    · dsimp only
      split
      · exact (.pair hk)
      · split
        · exact (.pair hk)
        · split
          · exact (.pair (State.readPair_keeps hk))
          · exact (.pair (State.readPair_keeps hk))
    · exact (.iteFst (.pair hk) (.iteFst (.pair hk) (.pair hk)))

theorem State.writeControl_keeps {z : State} {s : State} {i r : Nat} (hk : Keeps z s) :
    Keeps z (State.writeControl s i r).1 := by
  unfold State.writeControl
  exact (.iteFst (.pair hk) (.pair (.update hk)))

theorem State.endSessions_keeps {z : State} {s : State} (hk : Keeps z s) :
    Keeps z (State.endSessions s) := by
  unfold State.endSessions
  exact (.update hk)

theorem State.writePlanRing_keeps {z : State} {s : State} {i v : Nat} (hk : Keeps z s) :
    Keeps z (State.writePlanRing s i v).1 := by
  unfold State.writePlanRing
  exact (.iteFst (.pair hk) (.iteFst (.pair hk) (.pair (State.setObj_keeps hk))))

theorem State.writeExport_keeps {z : State} {s : State} {i v : Nat} (hk : Keeps z s) :
    Keeps z (State.writeExport s i v).1 := by
  unfold State.writeExport
  exact (.iteFst (.pair hk) (.iteFst (.pair hk) (.pair (State.setObj_keeps hk))))

theorem State.writeWatch_keeps {z : State} {s : State} {i v : Nat} (hk : Keeps z s) :
    Keeps z (State.writeWatch s i v).1 := by
  unfold State.writeWatch
  exact (.pair (.ite (State.setObj_keeps hk) (State.setInst_keeps (State.setObj_keeps hk))))

theorem State.writeEventEnable_keeps {z : State} {s : State} {v : Nat} (hk : Keeps z s) :
    Keeps z (State.writeEventEnable s v) := by
  unfold State.writeEventEnable
  exact (.ite (.update (State.setObj_keeps hk)) (State.setObj_keeps hk))

theorem State.writeSynce_keeps {z : State} {s : State} {v : Nat} (hk : Keeps z s) :
    Keeps z (State.writeSynce s v) := by
  unfold State.writeSynce
  exact (.update (State.setObj_keeps hk))

theorem State.writeRecord_keeps {z : State} {s : State} {index sub i v : Nat} (hk : Keeps z s) :
    Keeps z (State.writeRecord s index sub i v).1 := by
  unfold State.writeRecord
  split
  · exact (.pair (State.writeSynce_keeps hk))
  · exact (State.writeInstanceRing_keeps hk)
  · exact (State.writeProviderRing_keeps hk)
  · exact (State.writePlanRing_keeps hk)
  · exact (.iteFst (State.writeMgmtEnable_keeps hk) (.iteFst (.pair hk) (.pair (State.setObj_keeps hk))))
  · exact (.iteFst (.pair hk) (.pair (State.setObj_keeps hk)))
  · exact (State.writeExport_keeps hk)
  · exact (State.writeDirtyLog_keeps hk)
  · exact (.iteFst (.pair (State.writeEventEnable_keeps hk)) (.iteFst (.pair hk) (.pair (State.setObj_keeps hk))))
  · exact (State.writeWatch_keeps hk)
  · exact (.iteFst (.pair hk) (.pair (State.setObj_keeps hk)))
  · exact (.iteFst (.pair hk) (.pair (State.setObj_keeps hk)))
  · exact (.iteFst (.pair hk) (.pair (State.setObj_keeps hk)))
  · exact (State.writeControl_keeps hk)
  · exact (.pair (.ite (.pair (State.setObj_keeps hk)) (State.endSessions_keeps (.pair (State.setObj_keeps hk)))))
  · exact (.iteFst (.pair (State.setObj_keeps hk)) (.pair hk))
  · exact (.pair (State.setObj_keeps hk))

theorem State.writeRecords_keeps {z s : State} {index sub : Nat} {qs : List (Nat × Nat)} (hk : Keeps z s) : Keeps z (s.writeRecords index sub qs).1 := by
  induction qs generalizing s with
  | nil => exact hk
  | cons q qs ih =>
    rw [State.writeRecords]
    exact (.iteFst hk (ih (State.writeRecord_keeps hk)))

theorem State.writeRw_keeps {z : State} {s : State} {o : ObjInfo} {sub offset : Nat} {data : List Byte} {flashGood : Bool} (hk : Keeps z s) :
    Keeps z (State.writeRw s o sub offset data flashGood).1 := by
  unfold State.writeRw
  split
  · exact (State.writeIncrement_keeps hk)
  · exact (.iteFst (.pair hk) (.iteFst (.pair hk) (.iteFst (State.persist_keeps hk (State.writeRecords_keeps hk)) (.iteFst (.pair (State.reflagParts_keeps (State.writeRecords_keeps hk))) (State.writeRecords_keeps hk)))))

theorem State.writeStage_keeps {z : State} {s : State} {o : ObjInfo} {sub offset : Nat} {data : List Byte} (hk : Keeps z s) :
    Keeps z (State.writeStage s o sub offset data) := by
  unfold State.writeStage
  exact (.update hk)

theorem State.configCommand_keeps {z : State} {s : State} {v : Nat} {flashGood : Bool} (hk : Keeps z s) :
    Keeps z (State.configCommand s v flashGood).1 := by
  unfold State.configCommand
  split
  · exact (.pair hk)
  · split
    · exact (State.commitVersion_keeps hk)
    · exact (State.revertVersion_keeps hk)
    · exact (State.confirmVersion_keeps hk)
    · exact (.pair hk)

theorem State.instanceCommand_keeps {z : State} {s : State} {v : Nat} (hk : Keeps z s) :
    Keeps z (State.instanceCommand s v).1 := by
  unfold State.instanceCommand
  split
  · exact (.pair (State.resetInst_keeps hk))
  · exact (State.quiesceInst_keeps hk)
  · exact (State.resumeInst_keeps hk)

theorem State.importTable_keeps {z : State} {s : State} {offset : Nat} {data : List Byte} (hk : Keeps z s) :
    Keeps z (State.importTable s offset data).1 := by
  unfold State.importTable
  exact (.iteFst (.pair hk) (State.importInst_keeps hk))

theorem State.requestSnapshot_keeps {z : State} {s : State} {value : Nat} (hk : Keeps z s) :
    Keeps z (State.requestSnapshot s value).1 := by
  unfold State.requestSnapshot
  exact (.iteFst (.pair hk) (.pair (.update hk)))

theorem State.restartMirror_keeps {z : State} {s : State} {v : Nat} (hk : Keeps z s) :
    Keeps z (State.restartMirror s v).1 := by
  unfold State.restartMirror
  exact (.iteFst (.pair hk) (.pair (effMirrorRestart_keeps hk)))

theorem State.command_keeps {z : State} {s : State} {index offset : Nat} {data : List Byte} {flashGood : Bool} (hk : Keeps z s) :
    Keeps z (State.command s index offset data flashGood).1 := by
  unfold State.command
  split
  · exact (State.configCommand_keeps hk)
  · exact (State.resetStaging_keeps hk)
  · exact (State.orderReset_keeps hk)
  · exact (State.writePhaseStep_keeps hk)
  · exact (State.writeTimeSet_keeps hk)
  · exact (State.installSak_keeps hk)
  · exact (State.restartMirror_keeps hk)
  · exact (State.instanceCommand_keeps hk)
  · exact (State.harvestLog_keeps hk)
  · exact (State.importTable_keeps hk)
  · exact (State.clearQuarantine_keeps hk)
  · exact (State.managerOrder_keeps hk)
  · exact (State.applyKeys_keeps hk)
  · exact (State.writeImage_keeps hk)
  · exact (State.firmwareCommand_keeps hk)
  · exact (State.writeIntegratorDigest_keeps hk)
  · exact (State.requestSnapshot_keeps hk)

theorem State.writeObject_keeps {z : State} {s : State} {who : Requester} {o : ObjInfo} {r : Nat} {data : List Byte} {flashGood : Bool} (hk : Keeps z s) :
    Keeps z (State.writeObject s who o r data flashGood).1 := by
  unfold State.writeObject
  split
  · split
    · split
      · exact (.pair hk)
      · split
        · exact (.pair hk)
        · split
          · exact (.pair hk)
          · split
            · exact (.iteFst (.pair hk) (.iteFst (.pair (.pair (State.writeStage_keeps hk))) (.pair (.pair (State.writeStage_keeps hk)))))
            · exact (.iteFst (.pair hk) (.iteFst (.pair (State.writeRw_keeps hk)) (.pair (State.writeRw_keeps hk))))
            · exact (.iteFst (.pair hk) (.iteFst (.pair (State.command_keeps hk)) (.pair (State.command_keeps hk))))
    · split
      · exact (.pair hk)
      · split
        · exact (.pair hk)
        · split
          · exact (.pair hk)
          · split
            · exact (.iteFst (.pair hk) (.iteFst (.pair (.pair (State.writeStage_keeps hk))) (.pair (.pair (State.writeStage_keeps hk)))))
            · exact (.iteFst (.pair hk) (.iteFst (.pair (State.writeRw_keeps hk)) (.pair (State.writeRw_keeps hk))))
            · exact (.iteFst (.pair hk) (.iteFst (.pair (State.command_keeps hk)) (.pair (State.command_keeps hk))))
  · split
    · split
      · exact (.pair hk)
      · split
        · exact (.pair hk)
        · split
          · exact (.pair hk)
          · split
            · exact (.iteFst (.pair hk) (.iteFst (.pair (.pair (State.writeStage_keeps hk))) (.pair (.pair (State.writeStage_keeps hk)))))
            · exact (.iteFst (.pair hk) (.iteFst (.pair (State.writeRw_keeps hk)) (.pair (State.writeRw_keeps hk))))
            · exact (.iteFst (.pair hk) (.iteFst (.pair (State.command_keeps hk)) (.pair (State.command_keeps hk))))
    · split
      · exact (.pair hk)
      · split
        · exact (.pair hk)
        · split
          · exact (.pair hk)
          · split
            · exact (.iteFst (.pair hk) (.iteFst (.pair (.pair (State.writeStage_keeps hk))) (.pair (.pair (State.writeStage_keeps hk)))))
            · exact (.iteFst (.pair hk) (.iteFst (.pair (State.writeRw_keeps hk)) (.pair (State.writeRw_keeps hk))))
            · exact (.iteFst (.pair hk) (.iteFst (.pair (State.command_keeps hk)) (.pair (State.command_keeps hk))))

theorem State.serveRequest_keeps {z : State} {s : State} {who : Requester} {r : Nat} {data : List Byte} {dma : ReadResult} {flashGood : Bool} (hk : Keeps z s) :
    Keeps z (State.serveRequest s who r data dma flashGood).1 := by
  unfold State.serveRequest
  split
  · exact (.iteFst (.pair hk) (.pair hk))
  · split
    · exact (.iteFst (.pair hk) (.pair hk))
    · exact (.iteFst (.pair hk) (.iteFst (.pair hk) (.iteFst (.pair hk) (.iteFst (State.readObject_keeps hk) (State.writeObject_keeps hk)))))

theorem State.countRequest_keeps {z : State} {s : State} {refused : Bool} (hk : Keeps z s) :
    Keeps z (State.countRequest s refused) := by
  unfold State.countRequest
  exact (.update hk)

theorem State.answerWindow_keeps {z : State} {s : State} {who : Requester} {sequence : W16} {a : Answer} {inline' : Bool} (hk : Keeps z s) :
    Keeps z (State.answerWindow s who sequence a inline') := by
  unfold State.answerWindow
  exact (.update hk)

theorem State.startUnserved_keeps {z : State} {s : State} {who : Requester} {sequence : W16} (hk : Keeps z s) :
    Keeps z (State.startUnserved s who sequence) := by
  unfold State.startUnserved
  exact (.ite (.update hk) (.update hk))

theorem State.windowRequest_keeps {z : State} {s : State} {who : Requester} {r : Nat} {data : List Byte} {dma : ReadResult} {flashGood : Bool} (hk : Keeps z s) :
    Keeps z (State.windowRequest s who r data dma flashGood) := by
  unfold State.windowRequest
  exact (.ite hk (.ite (State.startUnserved_keeps hk) (State.answerWindow_keeps (.ite (State.post_keeps (State.countRequest_keeps (State.serveRequest_keeps hk))) (State.countRequest_keeps (State.serveRequest_keeps hk))))))

theorem State.securedRequest_keeps {z : State} {s : State} {k : BitVec 2} {r : Nat} {data : List Byte} {flashGood : Bool} (hk : Keeps z s) :
    Keeps z (State.securedRequest s k r data flashGood) := by
  unfold State.securedRequest
  exact (.ite hk (.ite (State.keeperStat_keeps hk) (.ite (State.sendSecured_keeps (State.keeperStat_keeps (State.setSession_keeps hk))) (.ite (State.keeperStat_keeps (State.setSession_keeps hk)) (State.sendSecured_keeps (.ite (State.setSession_keeps (State.countRequest_keeps (State.serveRequest_keeps (State.setSession_keeps hk)))) (State.countRequest_keeps (State.serveRequest_keeps (State.setSession_keeps hk)))))))))

theorem effRequest_keeps {z : State} {who : Requester} {opcode r : Nat} {data : List Byte} {dma : ReadResult} {flashGood : Bool} {s : State} (hk : Keeps z s) :
    Keeps z (effRequest who opcode r data dma flashGood s) := by
  unfold effRequest
  split
  · exact hk
  · split
    · exact (State.securedRequest_keeps hk)
    · exact (State.windowRequest_keeps hk)

/-! ### FarTier -/

theorem effFarTimeout_keeps {z : State} {p : Fin 2} {e : EngineId} {c : ContextId} {write : Bool} {address : W64} {s : State} (hk : Keeps z s) :
    Keeps z (effFarTimeout p e c write address s) := by
  unfold effFarTimeout
  split
  · dsimp only
    split
    · exact hk
    · exact (State.ackTarget_keeps hk)
  · dsimp only
    split
    · exact hk
    · exact (.updateMem (State.landSource_keeps hk))

theorem State.endFar_keeps {z : State} {s : State} {p : Fin 2} {e : EngineId} {c : ContextId} (hk : Keeps z s) :
    Keeps z (State.endFar s p e c) := by
  unfold State.endFar
  exact (.foldl (.foldl hk (fun _ _ hk => (State.landSource_keeps hk))) (fun _ _ hk => (State.ackTarget_keeps hk)))

theorem effFarPortDown_keeps {z : State} {p : Fin 2} {s : State} (hk : Keeps z s) :
    Keeps z (effFarPortDown p s) := by
  unfold effFarPortDown
  exact (.ite hk (State.raise_keeps (.updateMem (.foldl hk (fun _ _ hk => (State.endFar_keeps hk))))))

/-! ### VectorUnit -/

theorem effVectorProgramRun_keeps {z : State} {e : EngineId} {a : ArrayId} {s : State} (hk : Keeps z s) :
    Keeps z (effVectorProgramRun e a s) := by
  unfold effVectorProgramRun
  split
  · exact hk
  · dsimp only
    split
    · exact hk
    · split
      · exact (State.setEngine_keeps hk)
      · split
        · exact hk
        · exact (.ite (State.setEngine_keeps hk) (.ite hk (.ite (State.mooringFault_keeps hk) (.ite (State.readChecked_keeps hk) (State.settleWork_keeps hk)))))

theorem State.vectorRow_keeps {z : State} {s : State} {e : EngineId} {op : Nat} {word : BitVec 64} (hk : Keeps z s) :
    Keeps z (State.vectorRow s e op word) := by
  unfold State.vectorRow
  split
  · exact hk
  · split
    · dsimp only
      split
      · exact (State.countEngine_keeps (State.setEngine_keeps hk))
      · exact hk
    · dsimp only
      split
      · exact (State.countEngine_keeps (State.setEngine_keeps hk))
      · exact (State.countEngine_keeps (State.setEngine_keeps hk))

/-! ### Gather -/

theorem effGather_keeps {z : State} {e : EngineId} {c : ContextId} {s : State} (hk : Keeps z s) :
    Keeps z (effGather e c s) := by
  unfold effGather
  exact (State.issueStep_keeps (fun _ _ hk => (.ite (State.beginRun_keeps hk) (.ite (State.readChecked_keeps hk) (.ite (State.failStep_keeps hk) (State.countEngine_keeps (State.updEngine_keeps (State.beginRun_keeps (State.draw_keeps hk)))))))) hk)

theorem effGatherPoolLine_keeps {z : State} {e : EngineId} {c : ContextId} {s : State} (hk : Keeps z s) :
    Keeps z (effGatherPoolLine e c s) := by
  unfold effGatherPoolLine
  split
  · dsimp only
    split
    · exact hk
    · exact hk
  · dsimp only
    split
    · exact hk
    · split
      · exact (.ite (State.setEngine_keeps hk) hk)
      · split
        · exact (State.setEngine_keeps hk)
        · split
          · exact (State.setEngine_keeps hk)
          · exact (State.countEngine_keeps (State.setEngine_keeps hk))

theorem effProducerRerun_keeps {z : State} {e : EngineId} {c : ContextId} {serial : BitVec 16} {s : State} (hk : Keeps z s) :
    Keeps z (effProducerRerun e c serial s) := by
  unfold effProducerRerun
  dsimp only
  split
  · exact hk
  · exact (.ite hk (State.raise_keeps (State.countEngine_keeps (State.setEngine_keeps (.ite (State.draw_keeps hk) hk)))))

/-! ### Keeper -/

theorem effKeeperLinkUp_keeps {z : State} {sqi : BitVec 3} {polarity : Bool} {s : State} (hk : Keeps z s) :
    Keeps z (effKeeperLinkUp sqi polarity s) := by
  unfold effKeeperLinkUp
  exact (.ite hk (.ite (.foldl (.update hk) (fun _ _ hk => (State.keeperOut_keeps hk))) (.update hk)))

theorem effKeeperLinkDown_keeps {z : State} {s : State} (hk : Keeps z s) :
    Keeps z (effKeeperLinkDown s) := by
  unfold effKeeperLinkDown
  exact (.ite (State.raise_keeps (.update hk)) hk)

theorem State.received_keeps {z s : State} {f : State → State} (hf : ∀ s, Keeps z s → Keeps z (f s)) (hk : Keeps z s) :
    Keeps z (s.received f) :=
  .ite hk (.ite (hf _ (State.keeperStat_keeps hk)) (State.keeperStat_keeps (State.keeperStat_keeps hk)))

theorem State.keeperReject_keeps {z : State} {s : State} {dest : BitVec 128} {port : W16} {reason : Nat} (hk : Keeps z s) :
    Keeps z (State.keeperReject s dest port reason) := by
  unfold State.keeperReject
  exact (State.keeperSend_keeps (State.keeperStat_keeps hk))

theorem State.securedArrives_keeps {z : State} {s : State} {address : BitVec 128} {port : W16} {message : List Byte} (hk : Keeps z s) :
    Keeps z (State.securedArrives s address port message) := by
  unfold State.securedArrives
  split
  · exact (State.keeperReject_keeps hk)
  · split
    · exact (State.setSession_keeps hk)
    · exact (State.keeperStat_keeps (State.setSession_keeps hk))

theorem State.keeperFrame_keeps {z : State} {s : State} {address : BitVec 128} {port : W16} {payload : List Byte} (hk : Keeps z s) :
    Keeps z (State.keeperFrame s address port payload) := by
  unfold State.keeperFrame
  exact (.ite (State.keeperReject_keeps hk) (.ite (State.keeperReject_keeps hk) (.ite (State.keeperReject_keeps hk) (.ite (State.securedArrives_keeps hk) hk))))

theorem effKeeperFrameRx_keeps {z : State} {good plain : Bool} {destination : BitVec 128} {toPort : BitVec 16} {address : BitVec 128} {port : BitVec 16} {payload : List Byte} {s : State} (hk : Keeps z s) :
    Keeps z (effKeeperFrameRx good plain destination toPort address port payload s) := by
  unfold effKeeperFrameRx
  exact (State.received_keeps (fun _ hk => (.ite (State.keeperStat_keeps hk) (.ite (State.keeperStat_keeps hk) (State.keeperFrame_keeps hk)))) hk)

theorem State.resolve_keeps {z : State} {s : State} {address : BitVec 128} {mac : BitVec 48} (hk : Keeps z s) :
    Keeps z (State.resolve s address mac) := by
  unfold State.resolve
  exact (.foldl (.update hk) (fun _ _ hk => (State.keeperOut_keeps hk)))

theorem effNeighbourSolicitation_keeps {z : State} {source target : BitVec 128} {mac : Option (BitVec 48)} {s : State} (hk : Keeps z s) :
    Keeps z (effNeighbourSolicitation source target mac s) := by
  unfold effNeighbourSolicitation
  split
  · exact (State.received_keeps (fun _ hk => (.ite (State.keeperStat_keeps hk) (.ite (State.keeperOut_keeps (State.resolve_keeps hk)) (State.keeperTransmit_keeps (State.resolve_keeps hk))))) hk)
  · exact (State.received_keeps (fun _ hk => (.ite (State.keeperStat_keeps hk) (.ite (State.keeperOut_keeps hk) (State.keeperTransmit_keeps hk)))) hk)

theorem effNeighbourAdvertisement_keeps {z : State} {target : BitVec 128} {mac : BitVec 48} {s : State} (hk : Keeps z s) :
    Keeps z (effNeighbourAdvertisement target mac s) := by
  unfold effNeighbourAdvertisement
  exact (State.received_keeps (fun _ hk => (.ite (State.raise_keeps (.update hk)) (State.resolve_keeps hk))) hk)

theorem effIcmpv6Echo_keeps {z : State} {source destination : BitVec 128} {body : List Byte} {s : State} (hk : Keeps z s) :
    Keeps z (effIcmpv6Echo source destination body s) := by
  unfold effIcmpv6Echo
  exact (State.received_keeps (fun _ hk => (.ite (State.keeperTransmit_keeps hk) (State.keeperStat_keeps hk))) hk)

theorem effKeeperSessionIdleTimeout_keeps {z : State} {k : BitVec 2} {s : State} (hk : Keeps z s) :
    Keeps z (effKeeperSessionIdleTimeout k s) := by
  unfold effKeeperSessionIdleTimeout
  exact (.ite (State.setSession_keeps hk) hk)

theorem State.setSpdm_keeps {z : State} {s : State} {p : SpdmPath} {v : SpdmState} (hk : Keeps z s) :
    Keeps z (State.setSpdm s p v) := by
  unfold State.setSpdm
  split
  · exact (.update hk)
  · exact (.update hk)

theorem State.spdmRespond_keeps {z : State} {s : State} {p : SpdmPath} {response : List Byte} (hk : Keeps z s) :
    Keeps z (State.spdmRespond s p response) := by
  unfold State.spdmRespond
  split
  · exact (State.setSpdm_keeps hk)
  · exact (.ite (State.keeperSend_keeps (State.setSpdm_keeps hk)) (State.sendSecured_keeps (State.setSpdm_keeps hk)))

theorem State.spdmServe_keeps {z s : State} {p : SpdmPath} {message : List Byte} {ready : Bool} {f : State → State}
    (hf : ∀ s, Keeps z s → Keeps z (f s)) (hk : Keeps z s) : Keeps z (s.spdmServe p message ready f) :=
  .ite hk (.ite (hf _ (State.setSpdm_keeps hk)) (State.spdmRespond_keeps (State.setSpdm_keeps hk)))

theorem effGetVersion_keeps {z : State} {p : SpdmPath} {message : List Byte} {s : State} (hk : Keeps z s) :
    Keeps z (effGetVersion p message s) := by
  unfold effGetVersion
  exact (.ite hk (State.spdmRespond_keeps (State.setSpdm_keeps hk)))

theorem effGetCapabilities_keeps {z : State} {p : SpdmPath} {message : List Byte} {s : State} (hk : Keeps z s) :
    Keeps z (effGetCapabilities p message s) := by
  unfold effGetCapabilities
  exact (State.spdmServe_keeps (fun _ hk => (State.spdmRespond_keeps (State.setSpdm_keeps hk))) hk)

theorem effNegotiateAlgorithms_keeps {z : State} {p : SpdmPath} {message : List Byte} {s : State} (hk : Keeps z s) :
    Keeps z (effNegotiateAlgorithms p message s) := by
  unfold effNegotiateAlgorithms
  exact (State.spdmServe_keeps (fun _ hk => (State.spdmRespond_keeps (State.setSpdm_keeps hk))) hk)

theorem effGetDigests_keeps {z : State} {p : SpdmPath} {message : List Byte} {s : State} (hk : Keeps z s) :
    Keeps z (effGetDigests p message s) := by
  unfold effGetDigests
  exact (State.spdmServe_keeps (fun _ hk => (State.spdmRespond_keeps hk)) hk)

theorem effGetCertificate_keeps {z : State} {p : SpdmPath} {message : List Byte} {s : State} (hk : Keeps z s) :
    Keeps z (effGetCertificate p message s) := by
  unfold effGetCertificate
  exact (State.spdmServe_keeps (fun _ hk => (State.spdmRespond_keeps hk)) hk)

theorem effChallenge_keeps {z : State} {p : SpdmPath} {message : List Byte} {s : State} (hk : Keeps z s) :
    Keeps z (effChallenge p message s) := by
  unfold effChallenge
  exact (State.spdmServe_keeps (fun _ hk => (State.spdmRespond_keeps hk)) hk)

theorem effGetMeasurements_keeps {z : State} {p : SpdmPath} {message : List Byte} {s : State} (hk : Keeps z s) :
    Keeps z (effGetMeasurements p message s) := by
  unfold effGetMeasurements
  exact (State.spdmServe_keeps (fun _ hk => (State.spdmRespond_keeps hk)) hk)

theorem effKeyExchange_keeps {z : State} {p : SpdmPath} {message : List Byte} {s : State} (hk : Keeps z s) :
    Keeps z (effKeyExchange p message s) := by
  unfold effKeyExchange
  split
  · exact (State.spdmServe_keeps (fun _ hk => (.ite (State.spdmRespond_keeps hk) (State.spdmRespond_keeps (State.setSpdm_keeps hk)))) hk)
  · refine State.spdmServe_keeps (fun _ hk => ?_) ?_
    · split
      · exact (State.keeperSend_keeps hk)
      · exact (State.setSession_keeps (.update (State.keeperSend_keeps (State.setSpdm_keeps hk))))
    · exact hk

theorem effFinish_keeps {z : State} {p : SpdmPath} {message : List Byte} {s : State} (hk : Keeps z s) :
    Keeps z (effFinish p message s) := by
  unfold effFinish
  split
  · exact (State.spdmServe_keeps (fun _ hk => (State.spdmRespond_keeps (State.setSpdm_keeps hk))) hk)
  · exact (State.spdmServe_keeps (fun _ hk => (.ite (State.keeperStat_keeps (State.setSession_keeps (State.spdmRespond_keeps hk))) (State.setSession_keeps (State.spdmRespond_keeps hk)))) hk)

theorem State.inSession_keeps {z : State} {s : State} {p : SpdmPath} {code : Nat} {message : List Byte} {f : Session → Session} (hk : Keeps z s) :
    Keeps z (State.inSession s p code message f) := by
  unfold State.inSession
  split
  · exact (State.spdmServe_keeps (fun _ hk => (State.spdmRespond_keeps hk)) hk)
  · exact (State.spdmServe_keeps (fun _ hk => (State.spdmRespond_keeps (State.setSession_keeps hk))) hk)

theorem effEndSession_keeps {z : State} {p : SpdmPath} {message : List Byte} {s : State} (hk : Keeps z s) :
    Keeps z (effEndSession p message s) := by
  unfold effEndSession
  split
  · exact (State.inSession_keeps hk)
  · split
    · exact (State.setSpdm_keeps (State.inSession_keeps hk))
    · exact (State.setSession_keeps (State.inSession_keeps hk))

/-! ### Orders -/

theorem State.order_keeps {z : State} {s : State} {who : Requester} {index sub offset : Nat} {data : List Byte} {flashGood : Bool} (hk : Keeps z s) :
    Keeps z (State.order s who index sub offset data flashGood) := by
  unfold State.order
  exact (effRequest_keeps hk)

theorem State.fleetOrder_keeps {z : State} {s : State} {who : Requester} {kind : Nat} {order : List Byte} {flashGood : Bool} (hk : Keeps z s) :
    Keeps z (State.fleetOrder s who kind order flashGood) := by
  unfold State.fleetOrder
  exact (.ite (State.order_keeps hk) hk)

theorem State.orderFirmware_keeps {z : State} {s : State} {who : Requester} {code : Nat} (hk : Keeps z s) :
    Keeps z (State.orderFirmware s who code) := by
  unfold State.orderFirmware
  exact (State.order_keeps hk)

/-! ### Period -/

theorem State.dropContext_keeps {z : State} {s : State} {c : ContextId} (hk : Keeps z s) :
    Keeps z (State.dropContext s c) := by
  unfold State.dropContext
  exact (State.killContext_keeps (State.endBatches_keeps hk))

theorem State.activateIslands_keeps {z : State} {s : State} {t : Tab Nat} (hk : Keeps z s) :
    Keeps z (State.activateIslands s t) := by
  unfold State.activateIslands
  exact (.foldl hk (fun _ _ hk => (State.setIsland_keeps hk)))

theorem State.activatePorts_keeps {z : State} {s : State} {t : Tab Nat} (hk : Keeps z s) :
    Keeps z (State.activatePorts s t) := by
  unfold State.activatePorts
  exact (State.loseSynce_keeps (.update hk))

theorem State.activateLatencies_keeps {z : State} {s : State} {new : Tab Nat} (hk : Keeps z s) :
    Keeps z (State.activateLatencies s new) := by
  unfold State.activateLatencies
  exact (.foldl hk (fun _ _ hk => (.ite hk (.update (State.setObj_keeps hk)))))

theorem State.activateRegions_keeps {z : State} {s : State} {old new : Tab Nat} (hk : Keeps z s) :
    Keeps z (State.activateRegions s old new) := by
  unfold State.activateRegions
  exact (.updateMem hk)

theorem State.dropPeers_keeps {z : State} {s : State} {t : Tab Nat} (hk : Keeps z s) :
    Keeps z (State.dropPeers s t) := by
  unfold State.dropPeers
  refine Keeps.foldl ?_ (fun _ _ hk => ?_)
  · exact hk
  · split
    · exact hk
    · exact (State.loseOps_keeps hk)

theorem State.activatePeers_keeps {z : State} {s : State} {old new : Tab Nat} (hk : Keeps z s) :
    Keeps z (State.activatePeers s old new) := by
  unfold State.activatePeers
  exact (.update hk)

theorem State.activateMirrors_keeps {z : State} {s : State} {old new : Tab Nat} (hk : Keeps z s) :
    Keeps z (State.activateMirrors s old new) := by
  unfold State.activateMirrors
  exact (.foldl (.update hk) (fun _ _ hk => (State.releaseMirror_keeps hk)))

theorem State.takeOver_keeps {z : State} {s : State} {t : Tab Nat} (hk : Keeps z s) :
    Keeps z (State.takeOver s t) := by
  unfold State.takeOver
  exact (State.activateMirrors_keeps (State.activatePeers_keeps (State.activateRegions_keeps (State.activateLatencies_keeps (State.activatePorts_keeps (.update (State.activateIslands_keeps (State.ungateGroups_keeps (.update (State.dropPeers_keeps (.foldl hk (fun _ _ hk => (State.dropContext_keeps hk)))))))))))))

theorem State.activateCommit_keeps {z : State} {s : State} (hk : Keeps z s) :
    Keeps z (State.activateCommit s) := by
  unfold State.activateCommit
  exact (.update (State.takeOver_keeps hk))

theorem State.activateRevert_keeps {z : State} {s : State} (hk : Keeps z s) :
    Keeps z (State.activateRevert s) := by
  unfold State.activateRevert
  exact (.update (State.takeOver_keeps hk))

theorem State.activateDue_keeps {z : State} {s : State} (hk : Keeps z s) :
    Keeps z (State.activateDue s) := by
  unfold State.activateDue
  split
  · exact (State.activateRevert_keeps hk)
  · split
    · split
      · exact hk
      · split
        · exact (State.activateCommit_keeps hk)
        · exact (State.activateRevert_keeps hk)
    · exact hk

theorem State.snapshot_keeps {z : State} {s : State} (hk : Keeps z s) :
    Keeps z (State.snapshot s) := by
  unfold State.snapshot
  exact (.update hk)

theorem State.snapshots_keeps {z : State} {s : State} (hk : Keeps z s) :
    Keeps z (State.snapshots s) := by
  unfold State.snapshots
  exact (.ite (State.snapshot_keeps (.update hk)) (.update hk))

theorem State.applyControls_keeps {z : State} {s : State} (hk : Keeps z s) :
    Keeps z (State.applyControls s) := by
  unfold State.applyControls
  exact (.update hk)

theorem State.expelNow_keeps {z : State} {s : State} (hk : Keeps z s) :
    Keeps z (State.expelNow s) := by
  unfold State.expelNow
  exact (State.storeSettings_keeps (State.raise_keeps (State.resetAll_keeps (.update hk))))

theorem State.readmitNow_keeps {z : State} {s : State} (hk : Keeps z s) :
    Keeps z (State.readmitNow s) := by
  unfold State.readmitNow
  exact (State.storeSettings_keeps (State.raise_keeps (.foldl (.update hk) (fun _ _ hk => (State.sendReset_keeps (State.setPeer_keeps (State.loseOps_keeps hk)))))))

theorem State.ordersDue_keeps {z : State} {s : State} (hk : Keeps z s) :
    Keeps z (State.ordersDue s) := by
  unfold State.ordersDue
  split
  · exact (.ite hk (.ite (State.expelNow_keeps hk) (State.readmitNow_keeps hk)))
  · exact hk

theorem State.noteRadioReady_keeps {z : State} {s : State} (hk : Keeps z s) :
    Keeps z (State.noteRadioReady s) := by
  unfold State.noteRadioReady
  exact (.update hk)

theorem State.beginPeriod_keeps {z : State} {s : State} (hk : Keeps z s) :
    Keeps z (State.beginPeriod s) := by
  unfold State.beginPeriod
  exact (.update hk)

theorem effPeriodBoundary_keeps {z : State} {s : State} (hk : Keeps z s) :
    Keeps z (effPeriodBoundary s) := by
  unfold effPeriodBoundary
  exact (.ite hk (State.readHostCounts_keeps (State.noteRadioReady_keeps (State.ordersDue_keeps (State.beginPeriod_keeps (State.activateDue_keeps (State.applyControls_keeps (State.snapshots_keeps (State.auditLedgers_keeps (.ite (State.noteWrap_keeps hk) hk))))))))))

theorem effAutoRevert_keeps {z : State} {s : State} (hk : Keeps z s) :
    Keeps z (effAutoRevert s) := by
  unfold effAutoRevert
  exact (.ite (State.activateRevert_keeps hk) hk)

end Sys2Proof.Machine
end

