-- ==== Sys2Proof/Laws/KeepsE.lean ====
section
/-!
SUPPORT. What the operations of Power, Sends, SignalCore, SignalOps, Startup, Step keep: the queue of commands and the canonical form
of memory.
-/

namespace Sys2Proof.Machine

/-! ### Power -/

theorem effPowerSample_keeps {z : State} {rails : List (BitVec 32 × BitVec 32)} {s : State} (hk : Keeps z s) :
    Keeps z (effPowerSample rails s) := by
  unfold effPowerSample
  exact (.ite hk (.update (.update hk)))

theorem effPowerLimitEvent_keeps {z : State} {s : State} (hk : Keeps z s) :
    Keeps z (effPowerLimitEvent s) := by
  unfold effPowerLimitEvent
  exact (.ite hk (State.raise_keeps (.update hk)))

theorem State.thermalShutdown_keeps {z : State} {s : State} (hk : Keeps z s) :
    Keeps z (State.thermalShutdown s) := by
  unfold State.thermalShutdown
  exact (.update (State.selfFence_keeps hk))

theorem State.tripGroups_keeps {z : State} {s : State} {gs : List Nat} (hk : Keeps z s) :
    Keeps z (State.tripGroups s gs) := by
  unfold State.tripGroups
  exact (.foldl hk (fun _ _ hk => (effPassAbandon_keeps hk)))

theorem State.readSensor_keeps {z : State} {s : State} {k : Nat} {r : BitVec 16} (hk : Keeps z s) :
    Keeps z (State.readSensor s k r) := by
  unfold State.readSensor
  exact (.ite (State.tripGroups_keeps (State.raiseIf_keeps (.ite (.updateMem (.update hk)) (.update hk)))) (State.raiseIf_keeps (.ite (.updateMem (.update hk)) (.update hk))))

theorem effTemperatureSample_keeps {z : State} {readings : List (BitVec 16)} {s : State} (hk : Keeps z s) :
    Keeps z (effTemperatureSample readings s) := by
  unfold effTemperatureSample
  exact (.ite hk (.ite (State.thermalShutdown_keeps (.update (.foldl hk (fun _ _ hk => (State.readSensor_keeps hk))))) (.update (.foldl hk (fun _ _ hk => (State.readSensor_keeps hk))))))

theorem effThermalTripTimeout_keeps {z : State} {k : Fin 59} {s : State} (hk : Keeps z s) :
    Keeps z (effThermalTripTimeout k s) := by
  unfold effThermalTripTimeout
  exact (.ite hk (State.thermalShutdown_keeps hk))

/-! ### Sends -/

theorem effStore_keeps {z : State} {e : EngineId} {c : ContextId} {s : State} (hk : Keeps z s) :
    Keeps z (effStore e c s) := by
  unfold effStore
  exact (State.issueStep_keeps (fun _ _ hk => (.ite (State.beginRun_keeps hk) (.ite (.ite (State.failStep_keeps hk) (State.pumpPort_keeps (State.beginRun_keeps hk))) (State.beginRun_keeps hk)))) hk)

theorem effFence_keeps {z : State} {e : EngineId} {c : ContextId} {record : BitVec 512} {s : State} (hk : Keeps z s) :
    Keeps z (effFence e c record s) := by
  unfold effFence
  split
  · exact hk
  · split
    · exact hk
    · exact (.ite hk (State.pumpPort_keeps (State.settleFences_keeps (.update (State.setEctx_keeps hk)))))

theorem effFenceTimeout_keeps {z : State} {e : EngineId} {c : ContextId} {s : State} (hk : Keeps z s) :
    Keeps z (effFenceTimeout e c s) := by
  unfold effFenceTimeout
  split
  · exact hk
  · exact (.ite hk (State.finishFence_keeps hk))

theorem State.sendCredit_keeps {z s : State} {e : EngineId} {c : ContextId} {r : Nat} (hk : Keeps z s) :
    Keeps z (s.sendCredit e c r).1 :=
  .optElimFst (.pair (State.raise_keeps (State.readSpan_keeps hk)))
    (fun _ => .iteFst (.pair (State.raise_keeps (State.readSpan_keeps hk))) (.pair (State.readSpan_keeps hk)))

theorem State.setSend_keeps {z : State} {s : State} {e : EngineId} {c : ContextId} {serial : W16} {destination : Nat} {v : SendState} (hk : Keeps z s) :
    Keeps z (State.setSend s e c serial destination v) := by
  unfold State.setSend
  exact (State.setEctx_keeps hk)

theorem State.endWait_keeps {z : State} {s : State} {e : EngineId} {q : SendState} (hk : Keeps z s) :
    Keeps z (State.endWait s e q) := by
  unfold State.endWait
  exact (.ite (State.countEngine_keeps hk) hk)

theorem State.writeTile_keeps {z : State} {s : State} {e : EngineId} {c : ContextId} {r : Run} {destination : Nat} {q : SendState} {target : Nat} {bytes : List Byte} {poison : Bool} (hk : Keeps z s) :
    Keeps z (State.writeTile s e c r destination q target bytes poison) := by
  unfold State.writeTile
  split
  · split
    · exact (State.stopSend_keeps hk)
    · exact (State.setEctx_keeps (State.setSend_keeps (State.writeTier_keeps hk)))
  · split
    · exact (State.stopSend_keeps (State.remoteEvent_keeps hk))
    · exact (.foldl (State.setSend_keeps hk) (fun _ _ hk => (State.issueDrawn_keeps hk)))

theorem effSendTile_keeps {z : State} {e : EngineId} {c : ContextId} {destination : BitVec 3} {s : State} (hk : Keeps z s) :
    Keeps z (effSendTile e c destination s) := by
  unfold effSendTile
  dsimp only
  split
  · exact hk
  · exact (.ite hk (.ite (State.readChecked_keeps hk) (.ite (State.failRun_keeps (State.stopSend_keeps hk)) (.ite (State.stopSend_keeps (State.sendCredit_keeps hk)) (.ite (State.setSend_keeps (State.sendCredit_keeps hk)) (State.writeTile_keeps (State.draw_keeps (State.endWait_keeps (State.sendCredit_keeps hk)))))))))

theorem State.sendNotify_keeps {z : State} {s : State} {e : EngineId} {c : ContextId} {r : Run} {destination : Nat} {q : SendState} {target : Nat} {sent : W64} (hk : Keeps z s) :
    Keeps z (State.sendNotify s e c r destination q target sent) := by
  unfold State.sendNotify
  split
  · exact (State.setSend_keeps hk)
  · split
    · exact (State.failRun_keeps (State.stopSend_keeps hk))
    · split
      · split
        · exact (State.stopSend_keeps hk)
        · exact (State.setSend_keeps (State.applyNotify_keeps hk))
      · split
        · exact (State.stopSend_keeps (State.remoteEvent_keeps hk))
        · exact (State.issueDrawn_keeps (State.setSend_keeps hk))

theorem effSendLinesAcked_keeps {z : State} {e : EngineId} {c : ContextId} {destination : BitVec 3} {s : State} (hk : Keeps z s) :
    Keeps z (effSendLinesAcked e c destination s) := by
  unfold effSendLinesAcked
  split
  · dsimp only
    split
    · exact hk
    · exact hk
  · dsimp only
    split
    · exact hk
    · exact (.ite (State.setSend_keeps (State.returnLines_keeps hk)) (.ite (State.stopSend_keeps (State.sendCredit_keeps (State.setSend_keeps (State.returnLines_keeps hk)))) (State.sendNotify_keeps (State.setSend_keeps (State.countEngine_keeps (State.writeBytes_keeps (State.sendCredit_keeps (State.setSend_keeps (State.returnLines_keeps hk)))))))))

theorem effSendCreditReread_keeps {z : State} {e : EngineId} {c : ContextId} {destination : BitVec 3} {s : State} (hk : Keeps z s) :
    Keeps z (effSendCreditReread e c destination s) := by
  unfold effSendCreditReread
  split
  · dsimp only
    split
    · exact hk
    · exact hk
  · dsimp only
    split
    · exact hk
    · exact (.ite (State.stopSend_keeps (State.sendCredit_keeps hk)) (.ite (State.sendCredit_keeps hk) (State.setSend_keeps (State.endWait_keeps (State.sendCredit_keeps hk)))))

theorem effSendCreditTimeout_keeps {z : State} {e : EngineId} {c : ContextId} {destination : BitVec 3} {s : State} (hk : Keeps z s) :
    Keeps z (effSendCreditTimeout e c destination s) := by
  unfold effSendCreditTimeout
  split
  · exact hk
  · exact (.ite (State.stopSend_keeps (State.endWait_keeps hk)) hk)

/-! ### SignalCore -/

theorem State.coreIdle_keeps {z : State} {s : State} {n : Fin 48} (hk : Keeps z s) :
    Keeps z (State.coreIdle s n) := by
  unfold State.coreIdle
  exact (State.setIsland_keeps hk)

theorem State.jobFails_keeps {z : State} {s : State} {n : Fin 48} {j : Job} {epc : W16} {cause : BitVec 8} {kind : Nat} {st : BitVec 8} (hk : Keeps z s) :
    Keeps z (State.jobFails s n j epc cause kind st) := by
  unfold State.jobFails
  split
  · dsimp only
    split
    · exact (State.raiseIf_keeps (State.raise_keeps (State.setCore_keeps hk)))
    · exact (State.updPlan_keeps (State.raiseIf_keeps (State.raise_keeps (State.setCore_keeps hk))))
  · dsimp only
    split
    · exact (State.raiseIf_keeps (State.raise_keeps (State.setCore_keeps hk)))
    · exact (State.updPlan_keeps (State.raiseIf_keeps (State.raise_keeps (State.setCore_keeps hk))))

theorem State.failRunning_keeps {z : State} {s : State} {n : Fin 48} {cause : BitVec 8} (hk : Keeps z s) :
    Keeps z (State.failRunning s n cause) := by
  unfold State.failRunning
  dsimp only
  split
  · exact hk
  · exact (State.jobFails_keeps (State.coreIdle_keeps (State.setCore_keeps hk)))

theorem State.runWord_keeps {z : State} {s : State} {n : Fin 48} {word : BitVec 32} {cls op : Nat} {sources : List Nat} {f : Nat → SignalCore → CoreStep} (hk : Keeps z s) :
    Keeps z (State.runWord s n word cls op sources f) := by
  unfold State.runWord
  dsimp only
  split
  · exact hk
  · split
    · exact hk
    · split
      · exact (State.failRunning_keeps hk)
      · split
        · exact hk
        · split
          · exact (State.failRunning_keeps hk)
          · split
            · exact (State.failRunning_keeps (State.setCore_keeps hk))
            · exact (State.setCore_keeps hk)

theorem effJobInputDma_keeps {z : State} {n : Fin 48} {q : JobRequest} {xData yData : List Byte} {poisoned : Bool} {s : State} (hk : Keeps z s) :
    Keeps z (effJobInputDma n q xData yData poisoned s) := by
  unfold effJobInputDma
  split
  · exact hk
  · exact (.ite hk (State.setCore_keeps hk))

theorem effJobStart_keeps {z : State} {n : Fin 48} {cycle : Nat} {s : State} (hk : Keeps z s) :
    Keeps z (effJobStart n cycle s) := by
  unfold effJobStart
  dsimp only
  split
  · exact hk
  · split
    · exact hk
    · split
      · exact (State.jobFails_keeps (State.setCore_keeps hk))
      · split
        · exact (.ite (State.setCore_keeps hk) hk)
        · exact hk

theorem State.stageDone_keeps {z : State} {s : State} {j : Job} {free : Nat} (hk : Keeps z s) :
    Keeps z (State.stageDone s j free) := by
  unfold State.stageDone
  split
  · exact hk
  · exact (State.updPlan_keeps hk)

theorem effJobOutputWrite_keeps {z : State} {n : Fin 48} {s : State} (hk : Keeps z s) :
    Keeps z (effJobOutputWrite n s) := by
  unfold effJobOutputWrite
  split
  · dsimp only
    split
    · exact hk
    · split
      · exact hk
      · split
        · split
          · exact (State.post_keeps (State.stageDone_keeps (State.setCore_keeps (State.draw_keeps hk))))
          · exact (State.stageDone_keeps (State.setCore_keeps (State.draw_keeps hk)))
        · split
          · split
            · exact (State.updPlan_keeps (State.stageDone_keeps (State.setCore_keeps (State.draw_keeps hk))))
            · exact (State.stageDone_keeps (State.setCore_keeps (State.draw_keeps hk)))
          · exact (.ite (State.stageDone_keeps (State.setCore_keeps (State.draw_keeps hk))) (State.draw_keeps (State.stageDone_keeps (State.setCore_keeps (State.draw_keeps hk)))))
  · dsimp only
    split
    · exact hk
    · split
      · exact hk
      · split
        · split
          · exact (State.post_keeps (State.stageDone_keeps (State.setCore_keeps (State.draw_keeps hk))))
          · exact (State.stageDone_keeps (State.setCore_keeps (State.draw_keeps hk)))
        · split
          · split
            · exact (State.updPlan_keeps (State.stageDone_keeps (State.setCore_keeps (State.draw_keeps hk))))
            · exact (State.stageDone_keeps (State.setCore_keeps (State.draw_keeps hk)))
          · exact (.ite (State.stageDone_keeps (State.setCore_keeps (State.draw_keeps hk))) (State.writeRan_keeps (State.draw_keeps (State.stageDone_keeps (State.setCore_keeps (State.draw_keeps hk))))))

theorem State.detectParity_keeps {z : State} {s : State} {n : Fin 48} {inProgram : Bool} (hk : Keeps z s) :
    Keeps z (State.detectParity s n inProgram) := by
  unfold State.detectParity
  split
  · dsimp only
    split
    · exact hk
    · exact (.ite (State.failRunning_keeps (State.setCore_keeps hk)) (State.coreIdle_keeps (State.setCore_keeps (State.setCore_keeps hk))))
  · dsimp only
    split
    · exact hk
    · exact (.ite (State.failRunning_keeps hk) (State.coreIdle_keeps (State.setCore_keeps hk)))

theorem effJobRerun_keeps {z : State} {n from' : Fin 48} {inProgram : Bool} {cycle : Nat} {s0 : State} (hk : Keeps z s0) :
    Keeps z (effJobRerun n from' inProgram cycle s0) := by
  unfold effJobRerun
  split
  · exact hk
  · dsimp only
    split
    · exact (State.detectParity_keeps hk)
    · split
      · exact (.ite (State.detectParity_keeps hk) (State.setCore_keeps (State.setCore_keeps (State.detectParity_keeps hk))))
      · exact (State.detectParity_keeps hk)

/-! ### SignalOps -/

theorem State.macRow_keeps {z : State} {s : State} {n : Fin 48} {word : BitVec 32} {op : Nat} (hk : Keeps z s) :
    Keeps z (State.macRow s n word op) := by
  unfold State.macRow
  exact (State.runWord_keeps hk)

theorem State.scalarRow_keeps {z : State} {s : State} {n : Fin 48} {word : BitVec 32} {op latency : Nat} {f : W32 → W32 → W32} (hk : Keeps z s) :
    Keeps z (State.scalarRow s n word op latency f) := by
  unfold State.scalarRow
  exact (State.runWord_keeps hk)

theorem State.laneRow_keeps {z : State} {s : State} {n : Fin 48} {word : BitVec 32} {op : Nat} {sources : List Nat} {f : List (BitVec 32) → List (BitVec 32) → List (BitVec 32)} (hk : Keeps z s) :
    Keeps z (State.laneRow s n word op sources f) := by
  unfold State.laneRow
  exact (State.runWord_keeps hk)

theorem State.jobEnded_keeps {z : State} {s : State} {n : Fin 48} {j : Job} (hk : Keeps z s) :
    Keeps z (State.jobEnded s n j) := by
  unfold State.jobEnded
  split
  · dsimp only
    split
    · exact (State.updPlan_keeps (State.raiseIf_keeps (State.coreIdle_keeps hk)))
    · exact (State.raiseIf_keeps (State.coreIdle_keeps hk))
  · dsimp only
    split
    · exact (State.raiseIf_keeps (State.coreIdle_keeps hk))
    · exact (State.raiseIf_keeps (State.coreIdle_keeps hk))

/-! ### Startup -/

theorem State.wiped_keeps {z s : State} (hk : Keeps z s) : Keeps z s.wiped :=
  .writeMem hk (fun hm => by simp only [Memory.wf, Bool.and_eq_true] at hm ⊢; exact ⟨Tab.wf_nil, hm.2⟩)

theorem State.restarted_keeps {z s : State} (hk : Keeps z s) : Keeps z s.restarted :=
  hk.of_mem rfl (fun hm => hm)

theorem State.measureLane_keeps {z : State} {s : State} {u : UnitId} {ps : BitVec 32} (hk : Keeps z s) :
    Keeps z (State.measureLane s u ps) := by
  unfold State.measureLane
  exact (State.raiseIf_keeps (State.setIsland_keeps hk))

theorem State.testArrays_keeps {z : State} {s : State} {found : List (EngineId × Bool × BitVec 6)} (hk : Keeps z s) :
    Keeps z (State.testArrays s found) := by
  unfold State.testArrays
  exact (.foldl hk (fun _ _ hk => (State.raiseIf_keeps (State.updEngine_keeps hk))))

theorem State.trainMemory_keeps {z s : State} {found : StartupReport} (hk : Keeps z s) : Keeps z (s.trainMemory found) :=
  .foldl (.writeMem hk (fun hm => by simp only [Memory.wf, Bool.and_eq_true] at hm ⊢; exact ⟨Tab.wf_nil, hm.2⟩)) (fun _ _ hk => (State.raise_keeps hk))

theorem State.mapFar_keeps {z : State} {s : State} (hk : Keeps z s) :
    Keeps z (State.mapFar s) := by
  unfold State.mapFar
  exact (State.raiseIf_keeps (.updateMem hk))

theorem State.trainFar_keeps {z : State} {s : State} {found : StartupReport} (hk : Keeps z s) :
    Keeps z (State.trainFar s found) := by
  unfold State.trainFar
  exact (State.mapFar_keeps (.updateMem hk))

theorem State.loadSettings_keeps {z : State} {s : State} (hk : Keeps z s) :
    Keeps z (State.loadSettings s) := by
  unfold State.loadSettings
  split
  · exact (State.storeSettings_keeps (.update (.update hk)))
  · exact (State.storeSettings_keeps (.update (State.raise_keeps hk)))

theorem State.selectVersion_keeps {z : State} {s : State} (hk : Keeps z s) :
    Keeps z (State.selectVersion s) := by
  unfold State.selectVersion
  exact (State.raiseIf_keeps (.updateMem (State.takeOver_keeps (State.noteWrap_keeps hk))))

theorem State.keepImageCopy_keeps {z s : State} {k : Nat} (hk : Keeps z s) : Keeps z (s.keepImageCopy k) := by
  refine .writeMem hk (fun hm => Memory.wf_mk ?_ (Memory.wf_far (m := s.mem) hm))
  unfold State.imageCopy
  split
  · exact Memory.wf_near hm
  · split
    · exact Memory.wf_near hm
    · exact Tab.wf_writeBytes (Memory.wf_near hm) _ _

theorem State.bringUp_keeps {z : State} {s : State} {k : Nat} {found : StartupReport} {train : Bool} (hk : Keeps z s) :
    Keeps z (State.bringUp s k found train) := by
  unfold State.bringUp
  exact (.update (State.keepImageCopy_keeps (State.selectVersion_keeps (.foldl (State.testArrays_keeps (State.loadSignalImage_keeps (State.trainFar_keeps (.ite (State.trainMemory_keeps (State.loadSettings_keeps (.update hk))) (State.loadSettings_keeps (.update hk)))))) (fun _ _ hk => (State.measureLane_keeps hk))))))

theorem State.releaseHost_keeps {z : State} {s : State} (hk : Keeps z s) :
    Keeps z (State.releaseHost s) := by
  unfold State.releaseHost
  exact (.ite (.update hk) hk)

theorem State.boot_keeps {z : State} {s : State} {found : StartupReport} {train : Bool} {kind : ResetKind} (hk : Keeps z s) :
    Keeps z (State.boot s found train kind) := by
  unfold State.boot
  dsimp only
  split
  · exact (State.releaseHost_keeps (State.bringUp_keeps (State.chooseSlot_keeps (.update hk))))
  · exact (State.releaseHost_keeps (.update (State.chooseSlot_keeps (.update hk))))

theorem State.sampleStraps_keeps {z : State} {s : State} {found : StartupReport} (hk : Keeps z s) :
    Keeps z (State.sampleStraps s found) := by
  unfold State.sampleStraps
  exact (.update hk)

theorem effModRstNRelease_keeps {z : State} {found : StartupReport} {s : State} (hk : Keeps z s) :
    Keeps z (effModRstNRelease found s) := by
  unfold effModRstNRelease
  exact (.ite hk (.ite (.update (State.sampleStraps_keeps (State.wiped_keeps hk))) (State.boot_keeps (State.sampleStraps_keeps (State.wiped_keeps hk)))))

theorem effModRstNAssert_keeps {z : State} {s : State} (hk : Keeps z s) :
    Keeps z (effModRstNAssert s) := by
  unfold effModRstNAssert
  exact (.ite hk (.update (State.wiped_keeps (effFaultLogWrite_keeps hk))))

theorem effResetBegin_keeps {z : State} {found : StartupReport} {s : State} (hk : Keeps z s) :
    Keeps z (effResetBegin found s) := by
  unfold effResetBegin
  split
  · exact hk
  · exact (.ite hk (.ite (State.boot_keeps (State.wiped_keeps (effFaultLogWrite_keeps hk))) (State.boot_keeps (State.restarted_keeps (effFaultLogWrite_keeps (State.clearPfObjects_keeps (State.resetAll_keeps hk)))))))

theorem effPowerDown_keeps {z : State} {s : State} (hk : Keeps z s) :
    Keeps z (effPowerDown s) := by
  unfold effPowerDown
  exact (.ite hk (.update (State.wiped_keeps hk)))

/-! ### Step -/

theorem idle_keeps {z : State} {s : State} (hk : Keeps z s) :
    Keeps z (idle s) := by
  unfold idle
  exact (State.sendWrite_keeps hk)

end Sys2Proof.Machine
end

