-- ==== Sys2Proof/Laws/Raise.lean ====
section
/-!
SUPPORT. What raising an event can change: the count of open values taken, the integrity state and the host link's queue. Nothing
else of the state moves.
-/

namespace Sys2Proof.Machine

/-- Two states that agree but for the count of open values, the integrity state and the host link. -/
structure EventOnly (s t : State) : Prop where
  eq : t = { s with freeCount := t.freeCount, integ := t.integ, host := t.host }

theorem EventOnly.rfl' (s : State) : EventOnly s s := ⟨rfl⟩

theorem EventOnly.trans {a b c : State} (h : EventOnly a b) (k : EventOnly b c) : EventOnly a c := by
  cases h with | mk h => cases k with | mk k => constructor; rw [k, h]

theorem EventOnly.integ (s : State) (i : Integrity) : EventOnly s { s with integ := i } := ⟨rfl⟩

theorem EventOnly.draw (s : State) : EventOnly s s.draw.2 := ⟨rfl⟩

theorem sensed_only (s : State) (u : UnitId) : EventOnly s (s.sensed u).2 := ⟨rfl⟩

theorem post_event_only (s : State) (w : PostedWrite) (h : w.purpose = .event ∨ w.purpose = .msix) :
    EventOnly s (s.post w) := by
  unfold State.post State.discardPost
  split
  · exact ⟨rfl⟩
  · rcases h with h | h <;> rw [h] <;> exact ⟨rfl⟩

theorem msix_only (s : State) (f : Source) (v : Nat) : EventOnly s (s.msix f v) := by
  unfold State.msix
  dsimp only
  split
  · exact post_event_only _ _ (Or.inr rfl)
  · exact ⟨rfl⟩

theorem writeEvent_only (s : State) (r : EventRecord) : EventOnly s (s.writeEvent r) := by
  unfold State.writeEvent
  dsimp only
  split
  · split
    · split
      · exact (EventOnly.integ s _).trans (post_event_only _ _ (Or.inl rfl))
      · exact ((EventOnly.integ s _).trans (post_event_only _ _ (Or.inl rfl))).trans (msix_only _ _ _)
    · exact ⟨rfl⟩
  · exact ⟨rfl⟩

theorem holdEvent_only (s : State) (e : EventSpec) : EventOnly s (s.holdEvent e) := by
  unfold State.holdEvent
  dsimp only
  split
  · exact ⟨rfl⟩
  · split
    · exact EventOnly.trans (b := _) ⟨rfl⟩ (writeEvent_only _ _)
    · exact ⟨rfl⟩

theorem scoreEvent_only (s : State) (p k : Nat) : EventOnly s (s.scoreEvent p k) := ⟨rfl⟩

theorem reflag_only (s : State) (p : Nat) : EventOnly s (s.reflag p).1 := by
  unfold State.reflag
  dsimp only
  generalize (if p = 0 then _ else _ : Bool) = f
  split <;> exact ⟨rfl⟩

theorem healthEvent_only (s : State) (p : Nat) : EventOnly s (s.healthEvent p) :=
  (holdEvent_only s _).trans (scoreEvent_only _ _ _)

theorem reflag_then_only (s : State) (p q : Nat) :
    EventOnly s (if (s.reflag p).2 then (s.reflag p).1.healthEvent q else (s.reflag p).1) := by
  cases (s.reflag p).2
  · exact reflag_only s p
  · exact (reflag_only s p).trans (healthEvent_only _ _)

theorem reflagAll_only (s : State) (p : Nat) : EventOnly s (s.reflagAll p) :=
  (reflag_then_only s p p).trans (reflag_then_only _ 0 0)

/-- An event changes nothing but the count of open values, the integrity state and the host link. -/
theorem raise_only (s : State) (e : EventSpec) : EventOnly s (s.raise e) :=
  ((holdEvent_only s e).trans (scoreEvent_only _ _ _)).trans (reflagAll_only _ _)

theorem raiseIf_only (s : State) (c : Bool) (e : EventSpec) : EventOnly s (s.raiseIf c e) := by
  unfold State.raiseIf
  split
  · exact raise_only s e
  · exact ⟨rfl⟩

theorem foldl_only {α : Type} (f : State → α → State) (hf : ∀ s x, EventOnly s (f s x)) (xs : List α) (s : State) :
    EventOnly s (xs.foldl f s) := by
  induction xs generalizing s with
  | nil => exact ⟨rfl⟩
  | cons x xs ih => exact (hf s x).trans (ih _)

theorem raiseConditions_only (s : State) (sts : List (BitVec 8)) (c : Option ContextId) (i : Option InstanceId) :
    EventOnly s (s.raiseConditions sts c i) := foldl_only _ (fun s _ => raise_only s _) _ s

theorem raiseStatuses_only (s : State) (sts : List (BitVec 8)) (c : Option ContextId) :
    EventOnly s (s.raiseStatuses sts c) := foldl_only _ (fun s _ => raise_only s _) _ s

/-! ### An event counts -/

theorem post_raised (s : State) (w : PostedWrite) : (s.post w).integ.raised = s.integ.raised := by
  unfold State.post State.discardPost
  split
  · rfl
  · split <;> rfl

theorem msix_raised (s : State) (f : Source) (v : Nat) : (s.msix f v).integ.raised = s.integ.raised := by
  unfold State.msix
  dsimp only
  split
  · rw [post_raised]
  · rfl

theorem writeEvent_raised (s : State) (r : EventRecord) : (s.writeEvent r).integ.raised = s.integ.raised := by
  unfold State.writeEvent
  dsimp only
  split
  · split
    · split
      · rw [post_raised]
      · rw [msix_raised, post_raised]
    · rfl
  · rfl

theorem holdEvent_raised (s : State) (e : EventSpec) : (s.holdEvent e).integ.raised = s.integ.raised + 1 := by
  unfold State.holdEvent
  dsimp only
  split
  · rfl
  · split
    · rw [writeEvent_raised]; rfl
    · rfl

theorem reflag_raised (s : State) (p q : Nat) :
    s.integ.raised ≤ (if (s.reflag p).2 then (s.reflag p).1.healthEvent q else (s.reflag p).1).integ.raised := by
  have h : (s.reflag p).1.integ.raised = s.integ.raised := by
    unfold State.reflag
    dsimp only
    generalize (if p = 0 then _ else _ : Bool) = f
    split <;> rfl
  cases (s.reflag p).2
  · exact Nat.le_of_eq h.symm
  · show _ ≤ ((s.reflag p).1.holdEvent _).integ.raised
    rw [holdEvent_raised, h]; exact Nat.le_succ _

/-- Raising an event advances the count of events raised. -/
theorem raise_raised (s : State) (e : EventSpec) : s.integ.raised < (s.raise e).integ.raised := by
  have h : (s.holdEvent e).integ.raised = s.integ.raised + 1 := holdEvent_raised s e
  exact Nat.lt_of_lt_of_le (h ▸ Nat.lt_succ_self _) ((reflag_raised ((s.holdEvent e).scoreEvent (partOf e.unit) e.kind) _ _).trans
    (reflag_raised _ 0 0))

/-! ### One lemma per field -/

@[simp] theorem raise_pending (s : State) (e : EventSpec) : (s.raise e).pending = s.pending := by rw [(raise_only s e).eq]
@[simp] theorem raise_time (s : State) (e : EventSpec) : (s.raise e).time = s.time := by rw [(raise_only s e).eq]
@[simp] theorem raise_links (s : State) (e : EventSpec) : (s.raise e).links = s.links := by rw [(raise_only s e).eq]
@[simp] theorem raise_chr (s : State) (e : EventSpec) : (s.raise e).chr = s.chr := by rw [(raise_only s e).eq]
@[simp] theorem raise_insts (s : State) (e : EventSpec) : (s.raise e).insts = s.insts := by rw [(raise_only s e).eq]
@[simp] theorem raise_provider (s : State) (e : EventSpec) : (s.raise e).provider = s.provider := by rw [(raise_only s e).eq]
@[simp] theorem raise_batches (s : State) (e : EventSpec) : (s.raise e).batches = s.batches := by rw [(raise_only s e).eq]
@[simp] theorem raise_nextBatch (s : State) (e : EventSpec) : (s.raise e).nextBatch = s.nextBatch := by rw [(raise_only s e).eq]
@[simp] theorem raise_batchesDiscarded (s : State) (e : EventSpec) : (s.raise e).batchesDiscarded = s.batchesDiscarded := by rw [(raise_only s e).eq]
@[simp] theorem raise_engines (s : State) (e : EventSpec) : (s.raise e).engines = s.engines := by rw [(raise_only s e).eq]
@[simp] theorem raise_scrubsCompleted (s : State) (e : EventSpec) : (s.raise e).scrubsCompleted = s.scrubsCompleted := by rw [(raise_only s e).eq]
@[simp] theorem raise_radio (s : State) (e : EventSpec) : (s.raise e).radio = s.radio := by rw [(raise_only s e).eq]
@[simp] theorem raise_cores (s : State) (e : EventSpec) : (s.raise e).cores = s.cores := by rw [(raise_only s e).eq]
@[simp] theorem raise_ports (s : State) (e : EventSpec) : (s.raise e).ports = s.ports := by rw [(raise_only s e).eq]
@[simp] theorem raise_mgmt (s : State) (e : EventSpec) : (s.raise e).mgmt = s.mgmt := by rw [(raise_only s e).eq]
@[simp] theorem raise_mem (s : State) (e : EventSpec) : (s.raise e).mem = s.mem := by rw [(raise_only s e).eq]
@[simp] theorem raise_fabric (s : State) (e : EventSpec) : (s.raise e).fabric = s.fabric := by rw [(raise_only s e).eq]
@[simp] theorem raise_vers (s : State) (e : EventSpec) : (s.raise e).vers = s.vers := by rw [(raise_only s e).eq]
@[simp] theorem raise_rw (s : State) (e : EventSpec) : (s.raise e).rw = s.rw := by rw [(raise_only s e).eq]
@[simp] theorem raise_keeper (s : State) (e : EventSpec) : (s.raise e).keeper = s.keeper := by rw [(raise_only s e).eq]
@[simp] theorem raise_start (s : State) (e : EventSpec) : (s.raise e).start = s.start := by rw [(raise_only s e).eq]
@[simp] theorem raise_power (s : State) (e : EventSpec) : (s.raise e).power = s.power := by rw [(raise_only s e).eq]
@[simp] theorem raise_ctrs (s : State) (e : EventSpec) : (s.raise e).ctrs = s.ctrs := by rw [(raise_only s e).eq]
@[simp] theorem raise_d2d (s : State) (e : EventSpec) : (s.raise e).d2d = s.d2d := by rw [(raise_only s e).eq]
@[simp] theorem raise_tap (s : State) (e : EventSpec) : (s.raise e).tap = s.tap := by rw [(raise_only s e).eq]

end Sys2Proof.Machine
end

