-- ==== Sys2Proof/Laws/State.lean ====
section
/-!
SUPPORT. Reads of the state after its updates: every field after each named update, and each unit read back after it is written.
-/

namespace Sys2Proof.Machine

variable (s : State)

/-! ### draw -/

@[simp] theorem State.draw_pending : s.draw.2.pending = s.pending := rfl
@[simp] theorem State.draw_time : s.draw.2.time = s.time := rfl
@[simp] theorem State.draw_links : s.draw.2.links = s.links := rfl
@[simp] theorem State.draw_chr : s.draw.2.chr = s.chr := rfl
@[simp] theorem State.draw_insts : s.draw.2.insts = s.insts := rfl
@[simp] theorem State.draw_provider : s.draw.2.provider = s.provider := rfl
@[simp] theorem State.draw_batches : s.draw.2.batches = s.batches := rfl
@[simp] theorem State.draw_nextBatch : s.draw.2.nextBatch = s.nextBatch := rfl
@[simp] theorem State.draw_batchesDiscarded : s.draw.2.batchesDiscarded = s.batchesDiscarded := rfl
@[simp] theorem State.draw_engines : s.draw.2.engines = s.engines := rfl
@[simp] theorem State.draw_scrubsCompleted : s.draw.2.scrubsCompleted = s.scrubsCompleted := rfl
@[simp] theorem State.draw_radio : s.draw.2.radio = s.radio := rfl
@[simp] theorem State.draw_cores : s.draw.2.cores = s.cores := rfl
@[simp] theorem State.draw_ports : s.draw.2.ports = s.ports := rfl
@[simp] theorem State.draw_mgmt : s.draw.2.mgmt = s.mgmt := rfl
@[simp] theorem State.draw_mem : s.draw.2.mem = s.mem := rfl
@[simp] theorem State.draw_fabric : s.draw.2.fabric = s.fabric := rfl
@[simp] theorem State.draw_host : s.draw.2.host = s.host := rfl
@[simp] theorem State.draw_vers : s.draw.2.vers = s.vers := rfl
@[simp] theorem State.draw_rw : s.draw.2.rw = s.rw := rfl
@[simp] theorem State.draw_keeper : s.draw.2.keeper = s.keeper := rfl
@[simp] theorem State.draw_integ : s.draw.2.integ = s.integ := rfl
@[simp] theorem State.draw_start : s.draw.2.start = s.start := rfl
@[simp] theorem State.draw_power : s.draw.2.power = s.power := rfl
@[simp] theorem State.draw_ctrs : s.draw.2.ctrs = s.ctrs := rfl
@[simp] theorem State.draw_d2d : s.draw.2.d2d = s.d2d := rfl
@[simp] theorem State.draw_tap : s.draw.2.tap = s.tap := rfl

/-! ### setEngine -/

@[simp] theorem State.setEngine_pending (e : EngineId) (x : Engine) : (s.setEngine e x).pending = s.pending := rfl
@[simp] theorem State.setEngine_freeCount (e : EngineId) (x : Engine) : (s.setEngine e x).freeCount = s.freeCount := rfl
@[simp] theorem State.setEngine_time (e : EngineId) (x : Engine) : (s.setEngine e x).time = s.time := rfl
@[simp] theorem State.setEngine_links (e : EngineId) (x : Engine) : (s.setEngine e x).links = s.links := rfl
@[simp] theorem State.setEngine_chr (e : EngineId) (x : Engine) : (s.setEngine e x).chr = s.chr := rfl
@[simp] theorem State.setEngine_insts (e : EngineId) (x : Engine) : (s.setEngine e x).insts = s.insts := rfl
@[simp] theorem State.setEngine_provider (e : EngineId) (x : Engine) : (s.setEngine e x).provider = s.provider := rfl
@[simp] theorem State.setEngine_batches (e : EngineId) (x : Engine) : (s.setEngine e x).batches = s.batches := rfl
@[simp] theorem State.setEngine_nextBatch (e : EngineId) (x : Engine) : (s.setEngine e x).nextBatch = s.nextBatch := rfl
@[simp] theorem State.setEngine_batchesDiscarded (e : EngineId) (x : Engine) : (s.setEngine e x).batchesDiscarded = s.batchesDiscarded := rfl
@[simp] theorem State.setEngine_scrubsCompleted (e : EngineId) (x : Engine) : (s.setEngine e x).scrubsCompleted = s.scrubsCompleted := rfl
@[simp] theorem State.setEngine_radio (e : EngineId) (x : Engine) : (s.setEngine e x).radio = s.radio := rfl
@[simp] theorem State.setEngine_cores (e : EngineId) (x : Engine) : (s.setEngine e x).cores = s.cores := rfl
@[simp] theorem State.setEngine_ports (e : EngineId) (x : Engine) : (s.setEngine e x).ports = s.ports := rfl
@[simp] theorem State.setEngine_mgmt (e : EngineId) (x : Engine) : (s.setEngine e x).mgmt = s.mgmt := rfl
@[simp] theorem State.setEngine_mem (e : EngineId) (x : Engine) : (s.setEngine e x).mem = s.mem := rfl
@[simp] theorem State.setEngine_fabric (e : EngineId) (x : Engine) : (s.setEngine e x).fabric = s.fabric := rfl
@[simp] theorem State.setEngine_host (e : EngineId) (x : Engine) : (s.setEngine e x).host = s.host := rfl
@[simp] theorem State.setEngine_vers (e : EngineId) (x : Engine) : (s.setEngine e x).vers = s.vers := rfl
@[simp] theorem State.setEngine_rw (e : EngineId) (x : Engine) : (s.setEngine e x).rw = s.rw := rfl
@[simp] theorem State.setEngine_keeper (e : EngineId) (x : Engine) : (s.setEngine e x).keeper = s.keeper := rfl
@[simp] theorem State.setEngine_integ (e : EngineId) (x : Engine) : (s.setEngine e x).integ = s.integ := rfl
@[simp] theorem State.setEngine_start (e : EngineId) (x : Engine) : (s.setEngine e x).start = s.start := rfl
@[simp] theorem State.setEngine_power (e : EngineId) (x : Engine) : (s.setEngine e x).power = s.power := rfl
@[simp] theorem State.setEngine_ctrs (e : EngineId) (x : Engine) : (s.setEngine e x).ctrs = s.ctrs := rfl
@[simp] theorem State.setEngine_d2d (e : EngineId) (x : Engine) : (s.setEngine e x).d2d = s.d2d := rfl
@[simp] theorem State.setEngine_tap (e : EngineId) (x : Engine) : (s.setEngine e x).tap = s.tap := rfl

/-! ### setInst -/

@[simp] theorem State.setInst_pending (n : InstanceId) (x : Inst) : (s.setInst n x).pending = s.pending := rfl
@[simp] theorem State.setInst_freeCount (n : InstanceId) (x : Inst) : (s.setInst n x).freeCount = s.freeCount := rfl
@[simp] theorem State.setInst_time (n : InstanceId) (x : Inst) : (s.setInst n x).time = s.time := rfl
@[simp] theorem State.setInst_links (n : InstanceId) (x : Inst) : (s.setInst n x).links = s.links := rfl
@[simp] theorem State.setInst_chr (n : InstanceId) (x : Inst) : (s.setInst n x).chr = s.chr := rfl
@[simp] theorem State.setInst_provider (n : InstanceId) (x : Inst) : (s.setInst n x).provider = s.provider := rfl
@[simp] theorem State.setInst_batches (n : InstanceId) (x : Inst) : (s.setInst n x).batches = s.batches := rfl
@[simp] theorem State.setInst_nextBatch (n : InstanceId) (x : Inst) : (s.setInst n x).nextBatch = s.nextBatch := rfl
@[simp] theorem State.setInst_batchesDiscarded (n : InstanceId) (x : Inst) : (s.setInst n x).batchesDiscarded = s.batchesDiscarded := rfl
@[simp] theorem State.setInst_engines (n : InstanceId) (x : Inst) : (s.setInst n x).engines = s.engines := rfl
@[simp] theorem State.setInst_scrubsCompleted (n : InstanceId) (x : Inst) : (s.setInst n x).scrubsCompleted = s.scrubsCompleted := rfl
@[simp] theorem State.setInst_radio (n : InstanceId) (x : Inst) : (s.setInst n x).radio = s.radio := rfl
@[simp] theorem State.setInst_cores (n : InstanceId) (x : Inst) : (s.setInst n x).cores = s.cores := rfl
@[simp] theorem State.setInst_ports (n : InstanceId) (x : Inst) : (s.setInst n x).ports = s.ports := rfl
@[simp] theorem State.setInst_mgmt (n : InstanceId) (x : Inst) : (s.setInst n x).mgmt = s.mgmt := rfl
@[simp] theorem State.setInst_mem (n : InstanceId) (x : Inst) : (s.setInst n x).mem = s.mem := rfl
@[simp] theorem State.setInst_fabric (n : InstanceId) (x : Inst) : (s.setInst n x).fabric = s.fabric := rfl
@[simp] theorem State.setInst_host (n : InstanceId) (x : Inst) : (s.setInst n x).host = s.host := rfl
@[simp] theorem State.setInst_vers (n : InstanceId) (x : Inst) : (s.setInst n x).vers = s.vers := rfl
@[simp] theorem State.setInst_rw (n : InstanceId) (x : Inst) : (s.setInst n x).rw = s.rw := rfl
@[simp] theorem State.setInst_keeper (n : InstanceId) (x : Inst) : (s.setInst n x).keeper = s.keeper := rfl
@[simp] theorem State.setInst_integ (n : InstanceId) (x : Inst) : (s.setInst n x).integ = s.integ := rfl
@[simp] theorem State.setInst_start (n : InstanceId) (x : Inst) : (s.setInst n x).start = s.start := rfl
@[simp] theorem State.setInst_power (n : InstanceId) (x : Inst) : (s.setInst n x).power = s.power := rfl
@[simp] theorem State.setInst_ctrs (n : InstanceId) (x : Inst) : (s.setInst n x).ctrs = s.ctrs := rfl
@[simp] theorem State.setInst_d2d (n : InstanceId) (x : Inst) : (s.setInst n x).d2d = s.d2d := rfl
@[simp] theorem State.setInst_tap (n : InstanceId) (x : Inst) : (s.setInst n x).tap = s.tap := rfl

/-! ### setCell -/

@[simp] theorem State.setCell_pending (c : CellId) (x : Cell) : (s.setCell c x).pending = s.pending := rfl
@[simp] theorem State.setCell_freeCount (c : CellId) (x : Cell) : (s.setCell c x).freeCount = s.freeCount := rfl
@[simp] theorem State.setCell_time (c : CellId) (x : Cell) : (s.setCell c x).time = s.time := rfl
@[simp] theorem State.setCell_links (c : CellId) (x : Cell) : (s.setCell c x).links = s.links := rfl
@[simp] theorem State.setCell_chr (c : CellId) (x : Cell) : (s.setCell c x).chr = s.chr := rfl
@[simp] theorem State.setCell_insts (c : CellId) (x : Cell) : (s.setCell c x).insts = s.insts := rfl
@[simp] theorem State.setCell_provider (c : CellId) (x : Cell) : (s.setCell c x).provider = s.provider := rfl
@[simp] theorem State.setCell_batches (c : CellId) (x : Cell) : (s.setCell c x).batches = s.batches := rfl
@[simp] theorem State.setCell_nextBatch (c : CellId) (x : Cell) : (s.setCell c x).nextBatch = s.nextBatch := rfl
@[simp] theorem State.setCell_batchesDiscarded (c : CellId) (x : Cell) : (s.setCell c x).batchesDiscarded = s.batchesDiscarded := rfl
@[simp] theorem State.setCell_engines (c : CellId) (x : Cell) : (s.setCell c x).engines = s.engines := rfl
@[simp] theorem State.setCell_scrubsCompleted (c : CellId) (x : Cell) : (s.setCell c x).scrubsCompleted = s.scrubsCompleted := rfl
@[simp] theorem State.setCell_cores (c : CellId) (x : Cell) : (s.setCell c x).cores = s.cores := rfl
@[simp] theorem State.setCell_ports (c : CellId) (x : Cell) : (s.setCell c x).ports = s.ports := rfl
@[simp] theorem State.setCell_mgmt (c : CellId) (x : Cell) : (s.setCell c x).mgmt = s.mgmt := rfl
@[simp] theorem State.setCell_mem (c : CellId) (x : Cell) : (s.setCell c x).mem = s.mem := rfl
@[simp] theorem State.setCell_fabric (c : CellId) (x : Cell) : (s.setCell c x).fabric = s.fabric := rfl
@[simp] theorem State.setCell_host (c : CellId) (x : Cell) : (s.setCell c x).host = s.host := rfl
@[simp] theorem State.setCell_vers (c : CellId) (x : Cell) : (s.setCell c x).vers = s.vers := rfl
@[simp] theorem State.setCell_rw (c : CellId) (x : Cell) : (s.setCell c x).rw = s.rw := rfl
@[simp] theorem State.setCell_keeper (c : CellId) (x : Cell) : (s.setCell c x).keeper = s.keeper := rfl
@[simp] theorem State.setCell_integ (c : CellId) (x : Cell) : (s.setCell c x).integ = s.integ := rfl
@[simp] theorem State.setCell_start (c : CellId) (x : Cell) : (s.setCell c x).start = s.start := rfl
@[simp] theorem State.setCell_power (c : CellId) (x : Cell) : (s.setCell c x).power = s.power := rfl
@[simp] theorem State.setCell_ctrs (c : CellId) (x : Cell) : (s.setCell c x).ctrs = s.ctrs := rfl
@[simp] theorem State.setCell_d2d (c : CellId) (x : Cell) : (s.setCell c x).d2d = s.d2d := rfl
@[simp] theorem State.setCell_tap (c : CellId) (x : Cell) : (s.setCell c x).tap = s.tap := rfl

/-! ### setCore -/

@[simp] theorem State.setCore_pending (c : Fin 48) (x : SignalCore) : (s.setCore c x).pending = s.pending := rfl
@[simp] theorem State.setCore_freeCount (c : Fin 48) (x : SignalCore) : (s.setCore c x).freeCount = s.freeCount := rfl
@[simp] theorem State.setCore_time (c : Fin 48) (x : SignalCore) : (s.setCore c x).time = s.time := rfl
@[simp] theorem State.setCore_links (c : Fin 48) (x : SignalCore) : (s.setCore c x).links = s.links := rfl
@[simp] theorem State.setCore_chr (c : Fin 48) (x : SignalCore) : (s.setCore c x).chr = s.chr := rfl
@[simp] theorem State.setCore_insts (c : Fin 48) (x : SignalCore) : (s.setCore c x).insts = s.insts := rfl
@[simp] theorem State.setCore_provider (c : Fin 48) (x : SignalCore) : (s.setCore c x).provider = s.provider := rfl
@[simp] theorem State.setCore_batches (c : Fin 48) (x : SignalCore) : (s.setCore c x).batches = s.batches := rfl
@[simp] theorem State.setCore_nextBatch (c : Fin 48) (x : SignalCore) : (s.setCore c x).nextBatch = s.nextBatch := rfl
@[simp] theorem State.setCore_batchesDiscarded (c : Fin 48) (x : SignalCore) : (s.setCore c x).batchesDiscarded = s.batchesDiscarded := rfl
@[simp] theorem State.setCore_engines (c : Fin 48) (x : SignalCore) : (s.setCore c x).engines = s.engines := rfl
@[simp] theorem State.setCore_scrubsCompleted (c : Fin 48) (x : SignalCore) : (s.setCore c x).scrubsCompleted = s.scrubsCompleted := rfl
@[simp] theorem State.setCore_radio (c : Fin 48) (x : SignalCore) : (s.setCore c x).radio = s.radio := rfl
@[simp] theorem State.setCore_ports (c : Fin 48) (x : SignalCore) : (s.setCore c x).ports = s.ports := rfl
@[simp] theorem State.setCore_mgmt (c : Fin 48) (x : SignalCore) : (s.setCore c x).mgmt = s.mgmt := rfl
@[simp] theorem State.setCore_mem (c : Fin 48) (x : SignalCore) : (s.setCore c x).mem = s.mem := rfl
@[simp] theorem State.setCore_fabric (c : Fin 48) (x : SignalCore) : (s.setCore c x).fabric = s.fabric := rfl
@[simp] theorem State.setCore_host (c : Fin 48) (x : SignalCore) : (s.setCore c x).host = s.host := rfl
@[simp] theorem State.setCore_vers (c : Fin 48) (x : SignalCore) : (s.setCore c x).vers = s.vers := rfl
@[simp] theorem State.setCore_rw (c : Fin 48) (x : SignalCore) : (s.setCore c x).rw = s.rw := rfl
@[simp] theorem State.setCore_keeper (c : Fin 48) (x : SignalCore) : (s.setCore c x).keeper = s.keeper := rfl
@[simp] theorem State.setCore_integ (c : Fin 48) (x : SignalCore) : (s.setCore c x).integ = s.integ := rfl
@[simp] theorem State.setCore_start (c : Fin 48) (x : SignalCore) : (s.setCore c x).start = s.start := rfl
@[simp] theorem State.setCore_power (c : Fin 48) (x : SignalCore) : (s.setCore c x).power = s.power := rfl
@[simp] theorem State.setCore_ctrs (c : Fin 48) (x : SignalCore) : (s.setCore c x).ctrs = s.ctrs := rfl
@[simp] theorem State.setCore_d2d (c : Fin 48) (x : SignalCore) : (s.setCore c x).d2d = s.d2d := rfl
@[simp] theorem State.setCore_tap (c : Fin 48) (x : SignalCore) : (s.setCore c x).tap = s.tap := rfl

/-! ### setPort -/

@[simp] theorem State.setPort_pending (p : Fin 84) (x : Port) : (s.setPort p x).pending = s.pending := rfl
@[simp] theorem State.setPort_freeCount (p : Fin 84) (x : Port) : (s.setPort p x).freeCount = s.freeCount := rfl
@[simp] theorem State.setPort_time (p : Fin 84) (x : Port) : (s.setPort p x).time = s.time := rfl
@[simp] theorem State.setPort_links (p : Fin 84) (x : Port) : (s.setPort p x).links = s.links := rfl
@[simp] theorem State.setPort_chr (p : Fin 84) (x : Port) : (s.setPort p x).chr = s.chr := rfl
@[simp] theorem State.setPort_insts (p : Fin 84) (x : Port) : (s.setPort p x).insts = s.insts := rfl
@[simp] theorem State.setPort_provider (p : Fin 84) (x : Port) : (s.setPort p x).provider = s.provider := rfl
@[simp] theorem State.setPort_batches (p : Fin 84) (x : Port) : (s.setPort p x).batches = s.batches := rfl
@[simp] theorem State.setPort_nextBatch (p : Fin 84) (x : Port) : (s.setPort p x).nextBatch = s.nextBatch := rfl
@[simp] theorem State.setPort_batchesDiscarded (p : Fin 84) (x : Port) : (s.setPort p x).batchesDiscarded = s.batchesDiscarded := rfl
@[simp] theorem State.setPort_engines (p : Fin 84) (x : Port) : (s.setPort p x).engines = s.engines := rfl
@[simp] theorem State.setPort_scrubsCompleted (p : Fin 84) (x : Port) : (s.setPort p x).scrubsCompleted = s.scrubsCompleted := rfl
@[simp] theorem State.setPort_radio (p : Fin 84) (x : Port) : (s.setPort p x).radio = s.radio := rfl
@[simp] theorem State.setPort_cores (p : Fin 84) (x : Port) : (s.setPort p x).cores = s.cores := rfl
@[simp] theorem State.setPort_mgmt (p : Fin 84) (x : Port) : (s.setPort p x).mgmt = s.mgmt := rfl
@[simp] theorem State.setPort_mem (p : Fin 84) (x : Port) : (s.setPort p x).mem = s.mem := rfl
@[simp] theorem State.setPort_fabric (p : Fin 84) (x : Port) : (s.setPort p x).fabric = s.fabric := rfl
@[simp] theorem State.setPort_host (p : Fin 84) (x : Port) : (s.setPort p x).host = s.host := rfl
@[simp] theorem State.setPort_vers (p : Fin 84) (x : Port) : (s.setPort p x).vers = s.vers := rfl
@[simp] theorem State.setPort_rw (p : Fin 84) (x : Port) : (s.setPort p x).rw = s.rw := rfl
@[simp] theorem State.setPort_keeper (p : Fin 84) (x : Port) : (s.setPort p x).keeper = s.keeper := rfl
@[simp] theorem State.setPort_integ (p : Fin 84) (x : Port) : (s.setPort p x).integ = s.integ := rfl
@[simp] theorem State.setPort_start (p : Fin 84) (x : Port) : (s.setPort p x).start = s.start := rfl
@[simp] theorem State.setPort_power (p : Fin 84) (x : Port) : (s.setPort p x).power = s.power := rfl
@[simp] theorem State.setPort_ctrs (p : Fin 84) (x : Port) : (s.setPort p x).ctrs = s.ctrs := rfl
@[simp] theorem State.setPort_d2d (p : Fin 84) (x : Port) : (s.setPort p x).d2d = s.d2d := rfl
@[simp] theorem State.setPort_tap (p : Fin 84) (x : Port) : (s.setPort p x).tap = s.tap := rfl

/-! ### setChannel -/

@[simp] theorem State.setChannel_pending (c : Fin 48) (x : Channel) : (s.setChannel c x).pending = s.pending := rfl
@[simp] theorem State.setChannel_freeCount (c : Fin 48) (x : Channel) : (s.setChannel c x).freeCount = s.freeCount := rfl
@[simp] theorem State.setChannel_time (c : Fin 48) (x : Channel) : (s.setChannel c x).time = s.time := rfl
@[simp] theorem State.setChannel_links (c : Fin 48) (x : Channel) : (s.setChannel c x).links = s.links := rfl
@[simp] theorem State.setChannel_chr (c : Fin 48) (x : Channel) : (s.setChannel c x).chr = s.chr := rfl
@[simp] theorem State.setChannel_insts (c : Fin 48) (x : Channel) : (s.setChannel c x).insts = s.insts := rfl
@[simp] theorem State.setChannel_provider (c : Fin 48) (x : Channel) : (s.setChannel c x).provider = s.provider := rfl
@[simp] theorem State.setChannel_batches (c : Fin 48) (x : Channel) : (s.setChannel c x).batches = s.batches := rfl
@[simp] theorem State.setChannel_nextBatch (c : Fin 48) (x : Channel) : (s.setChannel c x).nextBatch = s.nextBatch := rfl
@[simp] theorem State.setChannel_batchesDiscarded (c : Fin 48) (x : Channel) : (s.setChannel c x).batchesDiscarded = s.batchesDiscarded := rfl
@[simp] theorem State.setChannel_engines (c : Fin 48) (x : Channel) : (s.setChannel c x).engines = s.engines := rfl
@[simp] theorem State.setChannel_scrubsCompleted (c : Fin 48) (x : Channel) : (s.setChannel c x).scrubsCompleted = s.scrubsCompleted := rfl
@[simp] theorem State.setChannel_radio (c : Fin 48) (x : Channel) : (s.setChannel c x).radio = s.radio := rfl
@[simp] theorem State.setChannel_cores (c : Fin 48) (x : Channel) : (s.setChannel c x).cores = s.cores := rfl
@[simp] theorem State.setChannel_ports (c : Fin 48) (x : Channel) : (s.setChannel c x).ports = s.ports := rfl
@[simp] theorem State.setChannel_mgmt (c : Fin 48) (x : Channel) : (s.setChannel c x).mgmt = s.mgmt := rfl
@[simp] theorem State.setChannel_fabric (c : Fin 48) (x : Channel) : (s.setChannel c x).fabric = s.fabric := rfl
@[simp] theorem State.setChannel_host (c : Fin 48) (x : Channel) : (s.setChannel c x).host = s.host := rfl
@[simp] theorem State.setChannel_vers (c : Fin 48) (x : Channel) : (s.setChannel c x).vers = s.vers := rfl
@[simp] theorem State.setChannel_rw (c : Fin 48) (x : Channel) : (s.setChannel c x).rw = s.rw := rfl
@[simp] theorem State.setChannel_keeper (c : Fin 48) (x : Channel) : (s.setChannel c x).keeper = s.keeper := rfl
@[simp] theorem State.setChannel_integ (c : Fin 48) (x : Channel) : (s.setChannel c x).integ = s.integ := rfl
@[simp] theorem State.setChannel_start (c : Fin 48) (x : Channel) : (s.setChannel c x).start = s.start := rfl
@[simp] theorem State.setChannel_power (c : Fin 48) (x : Channel) : (s.setChannel c x).power = s.power := rfl
@[simp] theorem State.setChannel_ctrs (c : Fin 48) (x : Channel) : (s.setChannel c x).ctrs = s.ctrs := rfl
@[simp] theorem State.setChannel_d2d (c : Fin 48) (x : Channel) : (s.setChannel c x).d2d = s.d2d := rfl
@[simp] theorem State.setChannel_tap (c : Fin 48) (x : Channel) : (s.setChannel c x).tap = s.tap := rfl

/-! ### setPeer -/

@[simp] theorem State.setPeer_pending (p : BitVec 12) (x : Peer) : (s.setPeer p x).pending = s.pending := rfl
@[simp] theorem State.setPeer_freeCount (p : BitVec 12) (x : Peer) : (s.setPeer p x).freeCount = s.freeCount := rfl
@[simp] theorem State.setPeer_time (p : BitVec 12) (x : Peer) : (s.setPeer p x).time = s.time := rfl
@[simp] theorem State.setPeer_links (p : BitVec 12) (x : Peer) : (s.setPeer p x).links = s.links := rfl
@[simp] theorem State.setPeer_chr (p : BitVec 12) (x : Peer) : (s.setPeer p x).chr = s.chr := rfl
@[simp] theorem State.setPeer_insts (p : BitVec 12) (x : Peer) : (s.setPeer p x).insts = s.insts := rfl
@[simp] theorem State.setPeer_provider (p : BitVec 12) (x : Peer) : (s.setPeer p x).provider = s.provider := rfl
@[simp] theorem State.setPeer_batches (p : BitVec 12) (x : Peer) : (s.setPeer p x).batches = s.batches := rfl
@[simp] theorem State.setPeer_nextBatch (p : BitVec 12) (x : Peer) : (s.setPeer p x).nextBatch = s.nextBatch := rfl
@[simp] theorem State.setPeer_batchesDiscarded (p : BitVec 12) (x : Peer) : (s.setPeer p x).batchesDiscarded = s.batchesDiscarded := rfl
@[simp] theorem State.setPeer_engines (p : BitVec 12) (x : Peer) : (s.setPeer p x).engines = s.engines := rfl
@[simp] theorem State.setPeer_scrubsCompleted (p : BitVec 12) (x : Peer) : (s.setPeer p x).scrubsCompleted = s.scrubsCompleted := rfl
@[simp] theorem State.setPeer_radio (p : BitVec 12) (x : Peer) : (s.setPeer p x).radio = s.radio := rfl
@[simp] theorem State.setPeer_cores (p : BitVec 12) (x : Peer) : (s.setPeer p x).cores = s.cores := rfl
@[simp] theorem State.setPeer_ports (p : BitVec 12) (x : Peer) : (s.setPeer p x).ports = s.ports := rfl
@[simp] theorem State.setPeer_mgmt (p : BitVec 12) (x : Peer) : (s.setPeer p x).mgmt = s.mgmt := rfl
@[simp] theorem State.setPeer_mem (p : BitVec 12) (x : Peer) : (s.setPeer p x).mem = s.mem := rfl
@[simp] theorem State.setPeer_host (p : BitVec 12) (x : Peer) : (s.setPeer p x).host = s.host := rfl
@[simp] theorem State.setPeer_vers (p : BitVec 12) (x : Peer) : (s.setPeer p x).vers = s.vers := rfl
@[simp] theorem State.setPeer_rw (p : BitVec 12) (x : Peer) : (s.setPeer p x).rw = s.rw := rfl
@[simp] theorem State.setPeer_keeper (p : BitVec 12) (x : Peer) : (s.setPeer p x).keeper = s.keeper := rfl
@[simp] theorem State.setPeer_integ (p : BitVec 12) (x : Peer) : (s.setPeer p x).integ = s.integ := rfl
@[simp] theorem State.setPeer_start (p : BitVec 12) (x : Peer) : (s.setPeer p x).start = s.start := rfl
@[simp] theorem State.setPeer_power (p : BitVec 12) (x : Peer) : (s.setPeer p x).power = s.power := rfl
@[simp] theorem State.setPeer_ctrs (p : BitVec 12) (x : Peer) : (s.setPeer p x).ctrs = s.ctrs := rfl
@[simp] theorem State.setPeer_d2d (p : BitVec 12) (x : Peer) : (s.setPeer p x).d2d = s.d2d := rfl
@[simp] theorem State.setPeer_tap (p : BitVec 12) (x : Peer) : (s.setPeer p x).tap = s.tap := rfl

/-! ### setIsland -/

@[simp] theorem State.setIsland_pending (u : UnitId) (x : Island) : (s.setIsland u x).pending = s.pending := rfl
@[simp] theorem State.setIsland_freeCount (u : UnitId) (x : Island) : (s.setIsland u x).freeCount = s.freeCount := rfl
@[simp] theorem State.setIsland_time (u : UnitId) (x : Island) : (s.setIsland u x).time = s.time := rfl
@[simp] theorem State.setIsland_links (u : UnitId) (x : Island) : (s.setIsland u x).links = s.links := rfl
@[simp] theorem State.setIsland_insts (u : UnitId) (x : Island) : (s.setIsland u x).insts = s.insts := rfl
@[simp] theorem State.setIsland_provider (u : UnitId) (x : Island) : (s.setIsland u x).provider = s.provider := rfl
@[simp] theorem State.setIsland_batches (u : UnitId) (x : Island) : (s.setIsland u x).batches = s.batches := rfl
@[simp] theorem State.setIsland_nextBatch (u : UnitId) (x : Island) : (s.setIsland u x).nextBatch = s.nextBatch := rfl
@[simp] theorem State.setIsland_batchesDiscarded (u : UnitId) (x : Island) : (s.setIsland u x).batchesDiscarded = s.batchesDiscarded := rfl
@[simp] theorem State.setIsland_engines (u : UnitId) (x : Island) : (s.setIsland u x).engines = s.engines := rfl
@[simp] theorem State.setIsland_scrubsCompleted (u : UnitId) (x : Island) : (s.setIsland u x).scrubsCompleted = s.scrubsCompleted := rfl
@[simp] theorem State.setIsland_radio (u : UnitId) (x : Island) : (s.setIsland u x).radio = s.radio := rfl
@[simp] theorem State.setIsland_cores (u : UnitId) (x : Island) : (s.setIsland u x).cores = s.cores := rfl
@[simp] theorem State.setIsland_ports (u : UnitId) (x : Island) : (s.setIsland u x).ports = s.ports := rfl
@[simp] theorem State.setIsland_mgmt (u : UnitId) (x : Island) : (s.setIsland u x).mgmt = s.mgmt := rfl
@[simp] theorem State.setIsland_mem (u : UnitId) (x : Island) : (s.setIsland u x).mem = s.mem := rfl
@[simp] theorem State.setIsland_fabric (u : UnitId) (x : Island) : (s.setIsland u x).fabric = s.fabric := rfl
@[simp] theorem State.setIsland_host (u : UnitId) (x : Island) : (s.setIsland u x).host = s.host := rfl
@[simp] theorem State.setIsland_vers (u : UnitId) (x : Island) : (s.setIsland u x).vers = s.vers := rfl
@[simp] theorem State.setIsland_rw (u : UnitId) (x : Island) : (s.setIsland u x).rw = s.rw := rfl
@[simp] theorem State.setIsland_keeper (u : UnitId) (x : Island) : (s.setIsland u x).keeper = s.keeper := rfl
@[simp] theorem State.setIsland_integ (u : UnitId) (x : Island) : (s.setIsland u x).integ = s.integ := rfl
@[simp] theorem State.setIsland_start (u : UnitId) (x : Island) : (s.setIsland u x).start = s.start := rfl
@[simp] theorem State.setIsland_power (u : UnitId) (x : Island) : (s.setIsland u x).power = s.power := rfl
@[simp] theorem State.setIsland_ctrs (u : UnitId) (x : Island) : (s.setIsland u x).ctrs = s.ctrs := rfl
@[simp] theorem State.setIsland_d2d (u : UnitId) (x : Island) : (s.setIsland u x).d2d = s.d2d := rfl
@[simp] theorem State.setIsland_tap (u : UnitId) (x : Island) : (s.setIsland u x).tap = s.tap := rfl

/-! ### setObj -/

@[simp] theorem State.setObj_pending (index sub record v : Nat) : (s.setObj index sub record v).pending = s.pending := rfl
@[simp] theorem State.setObj_freeCount (index sub record v : Nat) : (s.setObj index sub record v).freeCount = s.freeCount := rfl
@[simp] theorem State.setObj_time (index sub record v : Nat) : (s.setObj index sub record v).time = s.time := rfl
@[simp] theorem State.setObj_links (index sub record v : Nat) : (s.setObj index sub record v).links = s.links := rfl
@[simp] theorem State.setObj_chr (index sub record v : Nat) : (s.setObj index sub record v).chr = s.chr := rfl
@[simp] theorem State.setObj_insts (index sub record v : Nat) : (s.setObj index sub record v).insts = s.insts := rfl
@[simp] theorem State.setObj_provider (index sub record v : Nat) : (s.setObj index sub record v).provider = s.provider := rfl
@[simp] theorem State.setObj_batches (index sub record v : Nat) : (s.setObj index sub record v).batches = s.batches := rfl
@[simp] theorem State.setObj_nextBatch (index sub record v : Nat) : (s.setObj index sub record v).nextBatch = s.nextBatch := rfl
@[simp] theorem State.setObj_batchesDiscarded (index sub record v : Nat) : (s.setObj index sub record v).batchesDiscarded = s.batchesDiscarded := rfl
@[simp] theorem State.setObj_engines (index sub record v : Nat) : (s.setObj index sub record v).engines = s.engines := rfl
@[simp] theorem State.setObj_scrubsCompleted (index sub record v : Nat) : (s.setObj index sub record v).scrubsCompleted = s.scrubsCompleted := rfl
@[simp] theorem State.setObj_radio (index sub record v : Nat) : (s.setObj index sub record v).radio = s.radio := rfl
@[simp] theorem State.setObj_cores (index sub record v : Nat) : (s.setObj index sub record v).cores = s.cores := rfl
@[simp] theorem State.setObj_ports (index sub record v : Nat) : (s.setObj index sub record v).ports = s.ports := rfl
@[simp] theorem State.setObj_mgmt (index sub record v : Nat) : (s.setObj index sub record v).mgmt = s.mgmt := rfl
@[simp] theorem State.setObj_mem (index sub record v : Nat) : (s.setObj index sub record v).mem = s.mem := rfl
@[simp] theorem State.setObj_fabric (index sub record v : Nat) : (s.setObj index sub record v).fabric = s.fabric := rfl
@[simp] theorem State.setObj_host (index sub record v : Nat) : (s.setObj index sub record v).host = s.host := rfl
@[simp] theorem State.setObj_vers (index sub record v : Nat) : (s.setObj index sub record v).vers = s.vers := rfl
@[simp] theorem State.setObj_keeper (index sub record v : Nat) : (s.setObj index sub record v).keeper = s.keeper := rfl
@[simp] theorem State.setObj_integ (index sub record v : Nat) : (s.setObj index sub record v).integ = s.integ := rfl
@[simp] theorem State.setObj_start (index sub record v : Nat) : (s.setObj index sub record v).start = s.start := rfl
@[simp] theorem State.setObj_power (index sub record v : Nat) : (s.setObj index sub record v).power = s.power := rfl
@[simp] theorem State.setObj_ctrs (index sub record v : Nat) : (s.setObj index sub record v).ctrs = s.ctrs := rfl
@[simp] theorem State.setObj_d2d (index sub record v : Nat) : (s.setObj index sub record v).d2d = s.d2d := rfl
@[simp] theorem State.setObj_tap (index sub record v : Nat) : (s.setObj index sub record v).tap = s.tap := rfl

/-! ### setUnit -/

@[simp] theorem State.setUnit_pending (u : UnitId) (x : CodingUnit) : (s.setUnit u x).pending = s.pending := rfl
@[simp] theorem State.setUnit_freeCount (u : UnitId) (x : CodingUnit) : (s.setUnit u x).freeCount = s.freeCount := rfl
@[simp] theorem State.setUnit_time (u : UnitId) (x : CodingUnit) : (s.setUnit u x).time = s.time := rfl
@[simp] theorem State.setUnit_links (u : UnitId) (x : CodingUnit) : (s.setUnit u x).links = s.links := rfl
@[simp] theorem State.setUnit_chr (u : UnitId) (x : CodingUnit) : (s.setUnit u x).chr = s.chr := rfl
@[simp] theorem State.setUnit_insts (u : UnitId) (x : CodingUnit) : (s.setUnit u x).insts = s.insts := rfl
@[simp] theorem State.setUnit_provider (u : UnitId) (x : CodingUnit) : (s.setUnit u x).provider = s.provider := rfl
@[simp] theorem State.setUnit_batches (u : UnitId) (x : CodingUnit) : (s.setUnit u x).batches = s.batches := rfl
@[simp] theorem State.setUnit_nextBatch (u : UnitId) (x : CodingUnit) : (s.setUnit u x).nextBatch = s.nextBatch := rfl
@[simp] theorem State.setUnit_batchesDiscarded (u : UnitId) (x : CodingUnit) : (s.setUnit u x).batchesDiscarded = s.batchesDiscarded := rfl
@[simp] theorem State.setUnit_engines (u : UnitId) (x : CodingUnit) : (s.setUnit u x).engines = s.engines := rfl
@[simp] theorem State.setUnit_scrubsCompleted (u : UnitId) (x : CodingUnit) : (s.setUnit u x).scrubsCompleted = s.scrubsCompleted := rfl
@[simp] theorem State.setUnit_cores (u : UnitId) (x : CodingUnit) : (s.setUnit u x).cores = s.cores := rfl
@[simp] theorem State.setUnit_ports (u : UnitId) (x : CodingUnit) : (s.setUnit u x).ports = s.ports := rfl
@[simp] theorem State.setUnit_mgmt (u : UnitId) (x : CodingUnit) : (s.setUnit u x).mgmt = s.mgmt := rfl
@[simp] theorem State.setUnit_mem (u : UnitId) (x : CodingUnit) : (s.setUnit u x).mem = s.mem := rfl
@[simp] theorem State.setUnit_fabric (u : UnitId) (x : CodingUnit) : (s.setUnit u x).fabric = s.fabric := rfl
@[simp] theorem State.setUnit_host (u : UnitId) (x : CodingUnit) : (s.setUnit u x).host = s.host := rfl
@[simp] theorem State.setUnit_vers (u : UnitId) (x : CodingUnit) : (s.setUnit u x).vers = s.vers := rfl
@[simp] theorem State.setUnit_rw (u : UnitId) (x : CodingUnit) : (s.setUnit u x).rw = s.rw := rfl
@[simp] theorem State.setUnit_keeper (u : UnitId) (x : CodingUnit) : (s.setUnit u x).keeper = s.keeper := rfl
@[simp] theorem State.setUnit_integ (u : UnitId) (x : CodingUnit) : (s.setUnit u x).integ = s.integ := rfl
@[simp] theorem State.setUnit_start (u : UnitId) (x : CodingUnit) : (s.setUnit u x).start = s.start := rfl
@[simp] theorem State.setUnit_power (u : UnitId) (x : CodingUnit) : (s.setUnit u x).power = s.power := rfl
@[simp] theorem State.setUnit_ctrs (u : UnitId) (x : CodingUnit) : (s.setUnit u x).ctrs = s.ctrs := rfl
@[simp] theorem State.setUnit_d2d (u : UnitId) (x : CodingUnit) : (s.setUnit u x).d2d = s.d2d := rfl
@[simp] theorem State.setUnit_tap (u : UnitId) (x : CodingUnit) : (s.setUnit u x).tap = s.tap := rfl

/-! ### setSession -/

@[simp] theorem State.setSession_pending (k : BitVec 2) (x : Session) : (s.setSession k x).pending = s.pending := rfl
@[simp] theorem State.setSession_freeCount (k : BitVec 2) (x : Session) : (s.setSession k x).freeCount = s.freeCount := rfl
@[simp] theorem State.setSession_time (k : BitVec 2) (x : Session) : (s.setSession k x).time = s.time := rfl
@[simp] theorem State.setSession_links (k : BitVec 2) (x : Session) : (s.setSession k x).links = s.links := rfl
@[simp] theorem State.setSession_chr (k : BitVec 2) (x : Session) : (s.setSession k x).chr = s.chr := rfl
@[simp] theorem State.setSession_insts (k : BitVec 2) (x : Session) : (s.setSession k x).insts = s.insts := rfl
@[simp] theorem State.setSession_provider (k : BitVec 2) (x : Session) : (s.setSession k x).provider = s.provider := rfl
@[simp] theorem State.setSession_batches (k : BitVec 2) (x : Session) : (s.setSession k x).batches = s.batches := rfl
@[simp] theorem State.setSession_nextBatch (k : BitVec 2) (x : Session) : (s.setSession k x).nextBatch = s.nextBatch := rfl
@[simp] theorem State.setSession_batchesDiscarded (k : BitVec 2) (x : Session) : (s.setSession k x).batchesDiscarded = s.batchesDiscarded := rfl
@[simp] theorem State.setSession_engines (k : BitVec 2) (x : Session) : (s.setSession k x).engines = s.engines := rfl
@[simp] theorem State.setSession_scrubsCompleted (k : BitVec 2) (x : Session) : (s.setSession k x).scrubsCompleted = s.scrubsCompleted := rfl
@[simp] theorem State.setSession_radio (k : BitVec 2) (x : Session) : (s.setSession k x).radio = s.radio := rfl
@[simp] theorem State.setSession_cores (k : BitVec 2) (x : Session) : (s.setSession k x).cores = s.cores := rfl
@[simp] theorem State.setSession_ports (k : BitVec 2) (x : Session) : (s.setSession k x).ports = s.ports := rfl
@[simp] theorem State.setSession_mgmt (k : BitVec 2) (x : Session) : (s.setSession k x).mgmt = s.mgmt := rfl
@[simp] theorem State.setSession_mem (k : BitVec 2) (x : Session) : (s.setSession k x).mem = s.mem := rfl
@[simp] theorem State.setSession_fabric (k : BitVec 2) (x : Session) : (s.setSession k x).fabric = s.fabric := rfl
@[simp] theorem State.setSession_host (k : BitVec 2) (x : Session) : (s.setSession k x).host = s.host := rfl
@[simp] theorem State.setSession_vers (k : BitVec 2) (x : Session) : (s.setSession k x).vers = s.vers := rfl
@[simp] theorem State.setSession_rw (k : BitVec 2) (x : Session) : (s.setSession k x).rw = s.rw := rfl
@[simp] theorem State.setSession_integ (k : BitVec 2) (x : Session) : (s.setSession k x).integ = s.integ := rfl
@[simp] theorem State.setSession_start (k : BitVec 2) (x : Session) : (s.setSession k x).start = s.start := rfl
@[simp] theorem State.setSession_power (k : BitVec 2) (x : Session) : (s.setSession k x).power = s.power := rfl
@[simp] theorem State.setSession_ctrs (k : BitVec 2) (x : Session) : (s.setSession k x).ctrs = s.ctrs := rfl
@[simp] theorem State.setSession_d2d (k : BitVec 2) (x : Session) : (s.setSession k x).d2d = s.d2d := rfl
@[simp] theorem State.setSession_tap (k : BitVec 2) (x : Session) : (s.setSession k x).tap = s.tap := rfl

/-! ### setImage -/

@[simp] theorem State.setImage_pending (k : Nat) (x : ImageSlot) : (s.setImage k x).pending = s.pending := rfl
@[simp] theorem State.setImage_freeCount (k : Nat) (x : ImageSlot) : (s.setImage k x).freeCount = s.freeCount := rfl
@[simp] theorem State.setImage_time (k : Nat) (x : ImageSlot) : (s.setImage k x).time = s.time := rfl
@[simp] theorem State.setImage_links (k : Nat) (x : ImageSlot) : (s.setImage k x).links = s.links := rfl
@[simp] theorem State.setImage_chr (k : Nat) (x : ImageSlot) : (s.setImage k x).chr = s.chr := rfl
@[simp] theorem State.setImage_insts (k : Nat) (x : ImageSlot) : (s.setImage k x).insts = s.insts := rfl
@[simp] theorem State.setImage_provider (k : Nat) (x : ImageSlot) : (s.setImage k x).provider = s.provider := rfl
@[simp] theorem State.setImage_batches (k : Nat) (x : ImageSlot) : (s.setImage k x).batches = s.batches := rfl
@[simp] theorem State.setImage_nextBatch (k : Nat) (x : ImageSlot) : (s.setImage k x).nextBatch = s.nextBatch := rfl
@[simp] theorem State.setImage_batchesDiscarded (k : Nat) (x : ImageSlot) : (s.setImage k x).batchesDiscarded = s.batchesDiscarded := rfl
@[simp] theorem State.setImage_engines (k : Nat) (x : ImageSlot) : (s.setImage k x).engines = s.engines := rfl
@[simp] theorem State.setImage_scrubsCompleted (k : Nat) (x : ImageSlot) : (s.setImage k x).scrubsCompleted = s.scrubsCompleted := rfl
@[simp] theorem State.setImage_radio (k : Nat) (x : ImageSlot) : (s.setImage k x).radio = s.radio := rfl
@[simp] theorem State.setImage_cores (k : Nat) (x : ImageSlot) : (s.setImage k x).cores = s.cores := rfl
@[simp] theorem State.setImage_ports (k : Nat) (x : ImageSlot) : (s.setImage k x).ports = s.ports := rfl
@[simp] theorem State.setImage_mgmt (k : Nat) (x : ImageSlot) : (s.setImage k x).mgmt = s.mgmt := rfl
@[simp] theorem State.setImage_mem (k : Nat) (x : ImageSlot) : (s.setImage k x).mem = s.mem := rfl
@[simp] theorem State.setImage_fabric (k : Nat) (x : ImageSlot) : (s.setImage k x).fabric = s.fabric := rfl
@[simp] theorem State.setImage_host (k : Nat) (x : ImageSlot) : (s.setImage k x).host = s.host := rfl
@[simp] theorem State.setImage_vers (k : Nat) (x : ImageSlot) : (s.setImage k x).vers = s.vers := rfl
@[simp] theorem State.setImage_rw (k : Nat) (x : ImageSlot) : (s.setImage k x).rw = s.rw := rfl
@[simp] theorem State.setImage_keeper (k : Nat) (x : ImageSlot) : (s.setImage k x).keeper = s.keeper := rfl
@[simp] theorem State.setImage_integ (k : Nat) (x : ImageSlot) : (s.setImage k x).integ = s.integ := rfl
@[simp] theorem State.setImage_power (k : Nat) (x : ImageSlot) : (s.setImage k x).power = s.power := rfl
@[simp] theorem State.setImage_ctrs (k : Nat) (x : ImageSlot) : (s.setImage k x).ctrs = s.ctrs := rfl
@[simp] theorem State.setImage_d2d (k : Nat) (x : ImageSlot) : (s.setImage k x).d2d = s.d2d := rfl
@[simp] theorem State.setImage_tap (k : Nat) (x : ImageSlot) : (s.setImage k x).tap = s.tap := rfl

/-! ### setD2d -/

@[simp] theorem State.setD2d_pending (l : Fin 3) (f : D2dLink → D2dLink) : (s.setD2d l f).pending = s.pending := rfl
@[simp] theorem State.setD2d_freeCount (l : Fin 3) (f : D2dLink → D2dLink) : (s.setD2d l f).freeCount = s.freeCount := rfl
@[simp] theorem State.setD2d_time (l : Fin 3) (f : D2dLink → D2dLink) : (s.setD2d l f).time = s.time := rfl
@[simp] theorem State.setD2d_links (l : Fin 3) (f : D2dLink → D2dLink) : (s.setD2d l f).links = s.links := rfl
@[simp] theorem State.setD2d_chr (l : Fin 3) (f : D2dLink → D2dLink) : (s.setD2d l f).chr = s.chr := rfl
@[simp] theorem State.setD2d_insts (l : Fin 3) (f : D2dLink → D2dLink) : (s.setD2d l f).insts = s.insts := rfl
@[simp] theorem State.setD2d_provider (l : Fin 3) (f : D2dLink → D2dLink) : (s.setD2d l f).provider = s.provider := rfl
@[simp] theorem State.setD2d_batches (l : Fin 3) (f : D2dLink → D2dLink) : (s.setD2d l f).batches = s.batches := rfl
@[simp] theorem State.setD2d_nextBatch (l : Fin 3) (f : D2dLink → D2dLink) : (s.setD2d l f).nextBatch = s.nextBatch := rfl
@[simp] theorem State.setD2d_batchesDiscarded (l : Fin 3) (f : D2dLink → D2dLink) : (s.setD2d l f).batchesDiscarded = s.batchesDiscarded := rfl
@[simp] theorem State.setD2d_engines (l : Fin 3) (f : D2dLink → D2dLink) : (s.setD2d l f).engines = s.engines := rfl
@[simp] theorem State.setD2d_scrubsCompleted (l : Fin 3) (f : D2dLink → D2dLink) : (s.setD2d l f).scrubsCompleted = s.scrubsCompleted := rfl
@[simp] theorem State.setD2d_radio (l : Fin 3) (f : D2dLink → D2dLink) : (s.setD2d l f).radio = s.radio := rfl
@[simp] theorem State.setD2d_cores (l : Fin 3) (f : D2dLink → D2dLink) : (s.setD2d l f).cores = s.cores := rfl
@[simp] theorem State.setD2d_ports (l : Fin 3) (f : D2dLink → D2dLink) : (s.setD2d l f).ports = s.ports := rfl
@[simp] theorem State.setD2d_mgmt (l : Fin 3) (f : D2dLink → D2dLink) : (s.setD2d l f).mgmt = s.mgmt := rfl
@[simp] theorem State.setD2d_mem (l : Fin 3) (f : D2dLink → D2dLink) : (s.setD2d l f).mem = s.mem := rfl
@[simp] theorem State.setD2d_fabric (l : Fin 3) (f : D2dLink → D2dLink) : (s.setD2d l f).fabric = s.fabric := rfl
@[simp] theorem State.setD2d_host (l : Fin 3) (f : D2dLink → D2dLink) : (s.setD2d l f).host = s.host := rfl
@[simp] theorem State.setD2d_vers (l : Fin 3) (f : D2dLink → D2dLink) : (s.setD2d l f).vers = s.vers := rfl
@[simp] theorem State.setD2d_rw (l : Fin 3) (f : D2dLink → D2dLink) : (s.setD2d l f).rw = s.rw := rfl
@[simp] theorem State.setD2d_keeper (l : Fin 3) (f : D2dLink → D2dLink) : (s.setD2d l f).keeper = s.keeper := rfl
@[simp] theorem State.setD2d_integ (l : Fin 3) (f : D2dLink → D2dLink) : (s.setD2d l f).integ = s.integ := rfl
@[simp] theorem State.setD2d_start (l : Fin 3) (f : D2dLink → D2dLink) : (s.setD2d l f).start = s.start := rfl
@[simp] theorem State.setD2d_power (l : Fin 3) (f : D2dLink → D2dLink) : (s.setD2d l f).power = s.power := rfl
@[simp] theorem State.setD2d_ctrs (l : Fin 3) (f : D2dLink → D2dLink) : (s.setD2d l f).ctrs = s.ctrs := rfl
@[simp] theorem State.setD2d_tap (l : Fin 3) (f : D2dLink → D2dLink) : (s.setD2d l f).tap = s.tap := rfl

/-! ### count -/

@[simp] theorem State.count_pending (key n : Nat) : (s.count key n).pending = s.pending := rfl
@[simp] theorem State.count_freeCount (key n : Nat) : (s.count key n).freeCount = s.freeCount := rfl
@[simp] theorem State.count_time (key n : Nat) : (s.count key n).time = s.time := rfl
@[simp] theorem State.count_links (key n : Nat) : (s.count key n).links = s.links := rfl
@[simp] theorem State.count_chr (key n : Nat) : (s.count key n).chr = s.chr := rfl
@[simp] theorem State.count_insts (key n : Nat) : (s.count key n).insts = s.insts := rfl
@[simp] theorem State.count_provider (key n : Nat) : (s.count key n).provider = s.provider := rfl
@[simp] theorem State.count_batches (key n : Nat) : (s.count key n).batches = s.batches := rfl
@[simp] theorem State.count_nextBatch (key n : Nat) : (s.count key n).nextBatch = s.nextBatch := rfl
@[simp] theorem State.count_batchesDiscarded (key n : Nat) : (s.count key n).batchesDiscarded = s.batchesDiscarded := rfl
@[simp] theorem State.count_engines (key n : Nat) : (s.count key n).engines = s.engines := rfl
@[simp] theorem State.count_scrubsCompleted (key n : Nat) : (s.count key n).scrubsCompleted = s.scrubsCompleted := rfl
@[simp] theorem State.count_radio (key n : Nat) : (s.count key n).radio = s.radio := rfl
@[simp] theorem State.count_cores (key n : Nat) : (s.count key n).cores = s.cores := rfl
@[simp] theorem State.count_ports (key n : Nat) : (s.count key n).ports = s.ports := rfl
@[simp] theorem State.count_mgmt (key n : Nat) : (s.count key n).mgmt = s.mgmt := rfl
@[simp] theorem State.count_mem (key n : Nat) : (s.count key n).mem = s.mem := rfl
@[simp] theorem State.count_fabric (key n : Nat) : (s.count key n).fabric = s.fabric := rfl
@[simp] theorem State.count_host (key n : Nat) : (s.count key n).host = s.host := rfl
@[simp] theorem State.count_vers (key n : Nat) : (s.count key n).vers = s.vers := rfl
@[simp] theorem State.count_rw (key n : Nat) : (s.count key n).rw = s.rw := rfl
@[simp] theorem State.count_keeper (key n : Nat) : (s.count key n).keeper = s.keeper := rfl
@[simp] theorem State.count_integ (key n : Nat) : (s.count key n).integ = s.integ := rfl
@[simp] theorem State.count_start (key n : Nat) : (s.count key n).start = s.start := rfl
@[simp] theorem State.count_power (key n : Nat) : (s.count key n).power = s.power := rfl
@[simp] theorem State.count_d2d (key n : Nat) : (s.count key n).d2d = s.d2d := rfl
@[simp] theorem State.count_tap (key n : Nat) : (s.count key n).tap = s.tap := rfl

/-! ### fabricStat -/

@[simp] theorem State.fabricStat_pending (place : Nat) : (s.fabricStat place).pending = s.pending := rfl
@[simp] theorem State.fabricStat_freeCount (place : Nat) : (s.fabricStat place).freeCount = s.freeCount := rfl
@[simp] theorem State.fabricStat_time (place : Nat) : (s.fabricStat place).time = s.time := rfl
@[simp] theorem State.fabricStat_links (place : Nat) : (s.fabricStat place).links = s.links := rfl
@[simp] theorem State.fabricStat_chr (place : Nat) : (s.fabricStat place).chr = s.chr := rfl
@[simp] theorem State.fabricStat_insts (place : Nat) : (s.fabricStat place).insts = s.insts := rfl
@[simp] theorem State.fabricStat_provider (place : Nat) : (s.fabricStat place).provider = s.provider := rfl
@[simp] theorem State.fabricStat_batches (place : Nat) : (s.fabricStat place).batches = s.batches := rfl
@[simp] theorem State.fabricStat_nextBatch (place : Nat) : (s.fabricStat place).nextBatch = s.nextBatch := rfl
@[simp] theorem State.fabricStat_batchesDiscarded (place : Nat) : (s.fabricStat place).batchesDiscarded = s.batchesDiscarded := rfl
@[simp] theorem State.fabricStat_engines (place : Nat) : (s.fabricStat place).engines = s.engines := rfl
@[simp] theorem State.fabricStat_scrubsCompleted (place : Nat) : (s.fabricStat place).scrubsCompleted = s.scrubsCompleted := rfl
@[simp] theorem State.fabricStat_radio (place : Nat) : (s.fabricStat place).radio = s.radio := rfl
@[simp] theorem State.fabricStat_cores (place : Nat) : (s.fabricStat place).cores = s.cores := rfl
@[simp] theorem State.fabricStat_ports (place : Nat) : (s.fabricStat place).ports = s.ports := rfl
@[simp] theorem State.fabricStat_mgmt (place : Nat) : (s.fabricStat place).mgmt = s.mgmt := rfl
@[simp] theorem State.fabricStat_mem (place : Nat) : (s.fabricStat place).mem = s.mem := rfl
@[simp] theorem State.fabricStat_host (place : Nat) : (s.fabricStat place).host = s.host := rfl
@[simp] theorem State.fabricStat_vers (place : Nat) : (s.fabricStat place).vers = s.vers := rfl
@[simp] theorem State.fabricStat_rw (place : Nat) : (s.fabricStat place).rw = s.rw := rfl
@[simp] theorem State.fabricStat_keeper (place : Nat) : (s.fabricStat place).keeper = s.keeper := rfl
@[simp] theorem State.fabricStat_integ (place : Nat) : (s.fabricStat place).integ = s.integ := rfl
@[simp] theorem State.fabricStat_start (place : Nat) : (s.fabricStat place).start = s.start := rfl
@[simp] theorem State.fabricStat_power (place : Nat) : (s.fabricStat place).power = s.power := rfl
@[simp] theorem State.fabricStat_ctrs (place : Nat) : (s.fabricStat place).ctrs = s.ctrs := rfl
@[simp] theorem State.fabricStat_d2d (place : Nat) : (s.fabricStat place).d2d = s.d2d := rfl
@[simp] theorem State.fabricStat_tap (place : Nat) : (s.fabricStat place).tap = s.tap := rfl

/-! ### keeperStat -/

@[simp] theorem State.keeperStat_pending (place : Nat) : (s.keeperStat place).pending = s.pending := rfl
@[simp] theorem State.keeperStat_freeCount (place : Nat) : (s.keeperStat place).freeCount = s.freeCount := rfl
@[simp] theorem State.keeperStat_time (place : Nat) : (s.keeperStat place).time = s.time := rfl
@[simp] theorem State.keeperStat_links (place : Nat) : (s.keeperStat place).links = s.links := rfl
@[simp] theorem State.keeperStat_chr (place : Nat) : (s.keeperStat place).chr = s.chr := rfl
@[simp] theorem State.keeperStat_insts (place : Nat) : (s.keeperStat place).insts = s.insts := rfl
@[simp] theorem State.keeperStat_provider (place : Nat) : (s.keeperStat place).provider = s.provider := rfl
@[simp] theorem State.keeperStat_batches (place : Nat) : (s.keeperStat place).batches = s.batches := rfl
@[simp] theorem State.keeperStat_nextBatch (place : Nat) : (s.keeperStat place).nextBatch = s.nextBatch := rfl
@[simp] theorem State.keeperStat_batchesDiscarded (place : Nat) : (s.keeperStat place).batchesDiscarded = s.batchesDiscarded := rfl
@[simp] theorem State.keeperStat_engines (place : Nat) : (s.keeperStat place).engines = s.engines := rfl
@[simp] theorem State.keeperStat_scrubsCompleted (place : Nat) : (s.keeperStat place).scrubsCompleted = s.scrubsCompleted := rfl
@[simp] theorem State.keeperStat_radio (place : Nat) : (s.keeperStat place).radio = s.radio := rfl
@[simp] theorem State.keeperStat_cores (place : Nat) : (s.keeperStat place).cores = s.cores := rfl
@[simp] theorem State.keeperStat_ports (place : Nat) : (s.keeperStat place).ports = s.ports := rfl
@[simp] theorem State.keeperStat_mgmt (place : Nat) : (s.keeperStat place).mgmt = s.mgmt := rfl
@[simp] theorem State.keeperStat_mem (place : Nat) : (s.keeperStat place).mem = s.mem := rfl
@[simp] theorem State.keeperStat_fabric (place : Nat) : (s.keeperStat place).fabric = s.fabric := rfl
@[simp] theorem State.keeperStat_host (place : Nat) : (s.keeperStat place).host = s.host := rfl
@[simp] theorem State.keeperStat_vers (place : Nat) : (s.keeperStat place).vers = s.vers := rfl
@[simp] theorem State.keeperStat_rw (place : Nat) : (s.keeperStat place).rw = s.rw := rfl
@[simp] theorem State.keeperStat_integ (place : Nat) : (s.keeperStat place).integ = s.integ := rfl
@[simp] theorem State.keeperStat_start (place : Nat) : (s.keeperStat place).start = s.start := rfl
@[simp] theorem State.keeperStat_power (place : Nat) : (s.keeperStat place).power = s.power := rfl
@[simp] theorem State.keeperStat_ctrs (place : Nat) : (s.keeperStat place).ctrs = s.ctrs := rfl
@[simp] theorem State.keeperStat_d2d (place : Nat) : (s.keeperStat place).d2d = s.d2d := rfl
@[simp] theorem State.keeperStat_tap (place : Nat) : (s.keeperStat place).tap = s.tap := rfl

/-! ### fhStat -/

@[simp] theorem State.fhStat_pending (link place : Nat) : (s.fhStat link place).pending = s.pending := rfl
@[simp] theorem State.fhStat_freeCount (link place : Nat) : (s.fhStat link place).freeCount = s.freeCount := rfl
@[simp] theorem State.fhStat_time (link place : Nat) : (s.fhStat link place).time = s.time := rfl
@[simp] theorem State.fhStat_links (link place : Nat) : (s.fhStat link place).links = s.links := rfl
@[simp] theorem State.fhStat_chr (link place : Nat) : (s.fhStat link place).chr = s.chr := rfl
@[simp] theorem State.fhStat_insts (link place : Nat) : (s.fhStat link place).insts = s.insts := rfl
@[simp] theorem State.fhStat_provider (link place : Nat) : (s.fhStat link place).provider = s.provider := rfl
@[simp] theorem State.fhStat_batches (link place : Nat) : (s.fhStat link place).batches = s.batches := rfl
@[simp] theorem State.fhStat_nextBatch (link place : Nat) : (s.fhStat link place).nextBatch = s.nextBatch := rfl
@[simp] theorem State.fhStat_batchesDiscarded (link place : Nat) : (s.fhStat link place).batchesDiscarded = s.batchesDiscarded := rfl
@[simp] theorem State.fhStat_engines (link place : Nat) : (s.fhStat link place).engines = s.engines := rfl
@[simp] theorem State.fhStat_scrubsCompleted (link place : Nat) : (s.fhStat link place).scrubsCompleted = s.scrubsCompleted := rfl
@[simp] theorem State.fhStat_cores (link place : Nat) : (s.fhStat link place).cores = s.cores := rfl
@[simp] theorem State.fhStat_ports (link place : Nat) : (s.fhStat link place).ports = s.ports := rfl
@[simp] theorem State.fhStat_mgmt (link place : Nat) : (s.fhStat link place).mgmt = s.mgmt := rfl
@[simp] theorem State.fhStat_mem (link place : Nat) : (s.fhStat link place).mem = s.mem := rfl
@[simp] theorem State.fhStat_fabric (link place : Nat) : (s.fhStat link place).fabric = s.fabric := rfl
@[simp] theorem State.fhStat_host (link place : Nat) : (s.fhStat link place).host = s.host := rfl
@[simp] theorem State.fhStat_vers (link place : Nat) : (s.fhStat link place).vers = s.vers := rfl
@[simp] theorem State.fhStat_rw (link place : Nat) : (s.fhStat link place).rw = s.rw := rfl
@[simp] theorem State.fhStat_keeper (link place : Nat) : (s.fhStat link place).keeper = s.keeper := rfl
@[simp] theorem State.fhStat_integ (link place : Nat) : (s.fhStat link place).integ = s.integ := rfl
@[simp] theorem State.fhStat_start (link place : Nat) : (s.fhStat link place).start = s.start := rfl
@[simp] theorem State.fhStat_power (link place : Nat) : (s.fhStat link place).power = s.power := rfl
@[simp] theorem State.fhStat_ctrs (link place : Nat) : (s.fhStat link place).ctrs = s.ctrs := rfl
@[simp] theorem State.fhStat_d2d (link place : Nat) : (s.fhStat link place).d2d = s.d2d := rfl
@[simp] theorem State.fhStat_tap (link place : Nat) : (s.fhStat link place).tap = s.tap := rfl

/-! ### soundingStat -/

@[simp] theorem State.soundingStat_pending (e : EngineId) (a : ArrayId) (place : Nat) : (s.soundingStat e a place).pending = s.pending := rfl
@[simp] theorem State.soundingStat_freeCount (e : EngineId) (a : ArrayId) (place : Nat) : (s.soundingStat e a place).freeCount = s.freeCount := rfl
@[simp] theorem State.soundingStat_time (e : EngineId) (a : ArrayId) (place : Nat) : (s.soundingStat e a place).time = s.time := rfl
@[simp] theorem State.soundingStat_links (e : EngineId) (a : ArrayId) (place : Nat) : (s.soundingStat e a place).links = s.links := rfl
@[simp] theorem State.soundingStat_chr (e : EngineId) (a : ArrayId) (place : Nat) : (s.soundingStat e a place).chr = s.chr := rfl
@[simp] theorem State.soundingStat_insts (e : EngineId) (a : ArrayId) (place : Nat) : (s.soundingStat e a place).insts = s.insts := rfl
@[simp] theorem State.soundingStat_provider (e : EngineId) (a : ArrayId) (place : Nat) : (s.soundingStat e a place).provider = s.provider := rfl
@[simp] theorem State.soundingStat_batches (e : EngineId) (a : ArrayId) (place : Nat) : (s.soundingStat e a place).batches = s.batches := rfl
@[simp] theorem State.soundingStat_nextBatch (e : EngineId) (a : ArrayId) (place : Nat) : (s.soundingStat e a place).nextBatch = s.nextBatch := rfl
@[simp] theorem State.soundingStat_batchesDiscarded (e : EngineId) (a : ArrayId) (place : Nat) : (s.soundingStat e a place).batchesDiscarded = s.batchesDiscarded := rfl
@[simp] theorem State.soundingStat_engines (e : EngineId) (a : ArrayId) (place : Nat) : (s.soundingStat e a place).engines = s.engines := rfl
@[simp] theorem State.soundingStat_scrubsCompleted (e : EngineId) (a : ArrayId) (place : Nat) : (s.soundingStat e a place).scrubsCompleted = s.scrubsCompleted := rfl
@[simp] theorem State.soundingStat_radio (e : EngineId) (a : ArrayId) (place : Nat) : (s.soundingStat e a place).radio = s.radio := rfl
@[simp] theorem State.soundingStat_cores (e : EngineId) (a : ArrayId) (place : Nat) : (s.soundingStat e a place).cores = s.cores := rfl
@[simp] theorem State.soundingStat_ports (e : EngineId) (a : ArrayId) (place : Nat) : (s.soundingStat e a place).ports = s.ports := rfl
@[simp] theorem State.soundingStat_mgmt (e : EngineId) (a : ArrayId) (place : Nat) : (s.soundingStat e a place).mgmt = s.mgmt := rfl
@[simp] theorem State.soundingStat_mem (e : EngineId) (a : ArrayId) (place : Nat) : (s.soundingStat e a place).mem = s.mem := rfl
@[simp] theorem State.soundingStat_fabric (e : EngineId) (a : ArrayId) (place : Nat) : (s.soundingStat e a place).fabric = s.fabric := rfl
@[simp] theorem State.soundingStat_host (e : EngineId) (a : ArrayId) (place : Nat) : (s.soundingStat e a place).host = s.host := rfl
@[simp] theorem State.soundingStat_vers (e : EngineId) (a : ArrayId) (place : Nat) : (s.soundingStat e a place).vers = s.vers := rfl
@[simp] theorem State.soundingStat_rw (e : EngineId) (a : ArrayId) (place : Nat) : (s.soundingStat e a place).rw = s.rw := rfl
@[simp] theorem State.soundingStat_keeper (e : EngineId) (a : ArrayId) (place : Nat) : (s.soundingStat e a place).keeper = s.keeper := rfl
@[simp] theorem State.soundingStat_start (e : EngineId) (a : ArrayId) (place : Nat) : (s.soundingStat e a place).start = s.start := rfl
@[simp] theorem State.soundingStat_power (e : EngineId) (a : ArrayId) (place : Nat) : (s.soundingStat e a place).power = s.power := rfl
@[simp] theorem State.soundingStat_ctrs (e : EngineId) (a : ArrayId) (place : Nat) : (s.soundingStat e a place).ctrs = s.ctrs := rfl
@[simp] theorem State.soundingStat_d2d (e : EngineId) (a : ArrayId) (place : Nat) : (s.soundingStat e a place).d2d = s.d2d := rfl
@[simp] theorem State.soundingStat_tap (e : EngineId) (a : ArrayId) (place : Nat) : (s.soundingStat e a place).tap = s.tap := rfl

/-! ### endRead -/

@[simp] theorem State.endRead_pending (tag : Nat) : (s.endRead tag).pending = s.pending := rfl
@[simp] theorem State.endRead_freeCount (tag : Nat) : (s.endRead tag).freeCount = s.freeCount := rfl
@[simp] theorem State.endRead_time (tag : Nat) : (s.endRead tag).time = s.time := rfl
@[simp] theorem State.endRead_links (tag : Nat) : (s.endRead tag).links = s.links := rfl
@[simp] theorem State.endRead_chr (tag : Nat) : (s.endRead tag).chr = s.chr := rfl
@[simp] theorem State.endRead_insts (tag : Nat) : (s.endRead tag).insts = s.insts := rfl
@[simp] theorem State.endRead_provider (tag : Nat) : (s.endRead tag).provider = s.provider := rfl
@[simp] theorem State.endRead_batches (tag : Nat) : (s.endRead tag).batches = s.batches := rfl
@[simp] theorem State.endRead_nextBatch (tag : Nat) : (s.endRead tag).nextBatch = s.nextBatch := rfl
@[simp] theorem State.endRead_batchesDiscarded (tag : Nat) : (s.endRead tag).batchesDiscarded = s.batchesDiscarded := rfl
@[simp] theorem State.endRead_engines (tag : Nat) : (s.endRead tag).engines = s.engines := rfl
@[simp] theorem State.endRead_scrubsCompleted (tag : Nat) : (s.endRead tag).scrubsCompleted = s.scrubsCompleted := rfl
@[simp] theorem State.endRead_radio (tag : Nat) : (s.endRead tag).radio = s.radio := rfl
@[simp] theorem State.endRead_cores (tag : Nat) : (s.endRead tag).cores = s.cores := rfl
@[simp] theorem State.endRead_ports (tag : Nat) : (s.endRead tag).ports = s.ports := rfl
@[simp] theorem State.endRead_mgmt (tag : Nat) : (s.endRead tag).mgmt = s.mgmt := rfl
@[simp] theorem State.endRead_mem (tag : Nat) : (s.endRead tag).mem = s.mem := rfl
@[simp] theorem State.endRead_fabric (tag : Nat) : (s.endRead tag).fabric = s.fabric := rfl
@[simp] theorem State.endRead_vers (tag : Nat) : (s.endRead tag).vers = s.vers := rfl
@[simp] theorem State.endRead_rw (tag : Nat) : (s.endRead tag).rw = s.rw := rfl
@[simp] theorem State.endRead_keeper (tag : Nat) : (s.endRead tag).keeper = s.keeper := rfl
@[simp] theorem State.endRead_integ (tag : Nat) : (s.endRead tag).integ = s.integ := rfl
@[simp] theorem State.endRead_start (tag : Nat) : (s.endRead tag).start = s.start := rfl
@[simp] theorem State.endRead_power (tag : Nat) : (s.endRead tag).power = s.power := rfl
@[simp] theorem State.endRead_ctrs (tag : Nat) : (s.endRead tag).ctrs = s.ctrs := rfl
@[simp] theorem State.endRead_d2d (tag : Nat) : (s.endRead tag).d2d = s.d2d := rfl
@[simp] theorem State.endRead_tap (tag : Nat) : (s.endRead tag).tap = s.tap := rfl

/-! ### updBatch -/

@[simp] theorem State.updBatch_pending (id : Nat) (f : Batch → Batch) : (s.updBatch id f).pending = s.pending := rfl
@[simp] theorem State.updBatch_freeCount (id : Nat) (f : Batch → Batch) : (s.updBatch id f).freeCount = s.freeCount := rfl
@[simp] theorem State.updBatch_time (id : Nat) (f : Batch → Batch) : (s.updBatch id f).time = s.time := rfl
@[simp] theorem State.updBatch_links (id : Nat) (f : Batch → Batch) : (s.updBatch id f).links = s.links := rfl
@[simp] theorem State.updBatch_chr (id : Nat) (f : Batch → Batch) : (s.updBatch id f).chr = s.chr := rfl
@[simp] theorem State.updBatch_insts (id : Nat) (f : Batch → Batch) : (s.updBatch id f).insts = s.insts := rfl
@[simp] theorem State.updBatch_provider (id : Nat) (f : Batch → Batch) : (s.updBatch id f).provider = s.provider := rfl
@[simp] theorem State.updBatch_nextBatch (id : Nat) (f : Batch → Batch) : (s.updBatch id f).nextBatch = s.nextBatch := rfl
@[simp] theorem State.updBatch_batchesDiscarded (id : Nat) (f : Batch → Batch) : (s.updBatch id f).batchesDiscarded = s.batchesDiscarded := rfl
@[simp] theorem State.updBatch_engines (id : Nat) (f : Batch → Batch) : (s.updBatch id f).engines = s.engines := rfl
@[simp] theorem State.updBatch_scrubsCompleted (id : Nat) (f : Batch → Batch) : (s.updBatch id f).scrubsCompleted = s.scrubsCompleted := rfl
@[simp] theorem State.updBatch_radio (id : Nat) (f : Batch → Batch) : (s.updBatch id f).radio = s.radio := rfl
@[simp] theorem State.updBatch_cores (id : Nat) (f : Batch → Batch) : (s.updBatch id f).cores = s.cores := rfl
@[simp] theorem State.updBatch_ports (id : Nat) (f : Batch → Batch) : (s.updBatch id f).ports = s.ports := rfl
@[simp] theorem State.updBatch_mgmt (id : Nat) (f : Batch → Batch) : (s.updBatch id f).mgmt = s.mgmt := rfl
@[simp] theorem State.updBatch_mem (id : Nat) (f : Batch → Batch) : (s.updBatch id f).mem = s.mem := rfl
@[simp] theorem State.updBatch_fabric (id : Nat) (f : Batch → Batch) : (s.updBatch id f).fabric = s.fabric := rfl
@[simp] theorem State.updBatch_host (id : Nat) (f : Batch → Batch) : (s.updBatch id f).host = s.host := rfl
@[simp] theorem State.updBatch_vers (id : Nat) (f : Batch → Batch) : (s.updBatch id f).vers = s.vers := rfl
@[simp] theorem State.updBatch_rw (id : Nat) (f : Batch → Batch) : (s.updBatch id f).rw = s.rw := rfl
@[simp] theorem State.updBatch_keeper (id : Nat) (f : Batch → Batch) : (s.updBatch id f).keeper = s.keeper := rfl
@[simp] theorem State.updBatch_integ (id : Nat) (f : Batch → Batch) : (s.updBatch id f).integ = s.integ := rfl
@[simp] theorem State.updBatch_start (id : Nat) (f : Batch → Batch) : (s.updBatch id f).start = s.start := rfl
@[simp] theorem State.updBatch_power (id : Nat) (f : Batch → Batch) : (s.updBatch id f).power = s.power := rfl
@[simp] theorem State.updBatch_ctrs (id : Nat) (f : Batch → Batch) : (s.updBatch id f).ctrs = s.ctrs := rfl
@[simp] theorem State.updBatch_d2d (id : Nat) (f : Batch → Batch) : (s.updBatch id f).d2d = s.d2d := rfl
@[simp] theorem State.updBatch_tap (id : Nat) (f : Batch → Batch) : (s.updBatch id f).tap = s.tap := rfl

/-! ### Reading back -/

@[simp] theorem State.engine_setEngine (e j : EngineId) (x : Engine) : (s.setEngine e x).engine j = if j = e then x else s.engine j := by
  simp [State.engine, State.setEngine, BitVec.toNat_inj]
@[simp] theorem State.inst_setInst (n j : InstanceId) (x : Inst) : (s.setInst n x).inst j = if j = n then x else s.inst j := by
  simp [State.inst, State.setInst, BitVec.toNat_inj]
@[simp] theorem State.cell_setCell (c j : CellId) (x : Cell) : (s.setCell c x).cell j = if j = c then x else s.cell j := by
  simp [State.cell, State.setCell, BitVec.toNat_inj]
@[simp] theorem State.core_setCore (c j : Fin 48) (x : SignalCore) : (s.setCore c x).core j = if j = c then x else s.core j := by
  simp [State.core, State.setCore, Fin.val_inj]
@[simp] theorem State.port_setPort (p j : Fin 84) (x : Port) : (s.setPort p x).port j = if j = p then x else s.port j := by
  simp [State.port, State.setPort, Fin.val_inj]
@[simp] theorem State.channel_setChannel (c j : Fin 48) (x : Channel) :
    (s.setChannel c x).channel j = if j = c then x else s.channel j := by
  simp [State.channel, State.setChannel, Fin.val_inj]
@[simp] theorem State.peer_setPeer (p j : BitVec 12) (x : Peer) : (s.setPeer p x).peer j = if j = p then x else s.peer j := by
  simp [State.peer, State.setPeer, BitVec.toNat_inj]
@[simp] theorem State.island_setIsland (u j : UnitId) (x : Island) : (s.setIsland u x).island j = if j = u then x else s.island j := by
  simp [State.island, State.setIsland, BitVec.toNat_inj]
@[simp] theorem State.session_setSession (k j : BitVec 2) (x : Session) :
    (s.setSession k x).session j = if j = k then x else s.session j := by
  simp [State.session, State.setSession, BitVec.toNat_inj]
@[simp] theorem Engine.ctx_setCtx (x : Engine) (c j : ContextId) (v : EngineContext) :
    (x.setCtx c v).ctx j = if j = c then v else x.ctx j := by
  simp [Engine.ctx, Engine.setCtx, BitVec.toNat_inj]
@[simp] theorem Engine.array_setArray (x : Engine) (a j : ArrayId) (v : MatrixArray) :
    (x.setArray a v).array j = if j = a then v else x.array j := by
  cases a <;> cases j <;> simp [Engine.array, Engine.setArray, b2n]

end Sys2Proof.Machine
end

