-- ==== Sys2Proof/Laws/SignalCore.lean ====
section
/-!
SUPPORT. What one instruction of a signal core does around its own effect: the landing of results, the issue, the next address.
-/

namespace Sys2Proof.Machine

/-- Going on to the next address moves the pc, and within a loop the level's count and depth. -/
theorem SignalCore.after_goes (fuel : Nat) (c : SignalCore) (last : Nat) :
    c.after last fuel = { c with pc := (c.after last fuel).pc, depth := (c.after last fuel).depth, lc := (c.after last fuel).lc } ∧
    (c.depth = 0 → c.after last fuel = { c with pc := BitVec.ofNat 14 (last + 1) }) := by
  induction fuel generalizing c with
  | zero => simp [SignalCore.after]
  | succ k ih =>
    unfold SignalCore.after
    simp only
    split
    · simp
    · rename_i h
      split
      · simp; intro h0; simp [h0] at h
      · constructor
        · have := (ih { c with lc := Tab.set 0 c.lc (c.depth.toNat - 1) (Tab.get 0 c.lc (c.depth.toNat - 1) - 1), depth := c.depth - 1 }).1
          rw [this]
        · intro h0; simp [h0] at h

/-- With nothing raised and nothing held no handler is entered. -/
theorem SignalCore.deliver_nil (e : BitVec 14) (c : SignalCore) (h : c.held = []) : c.deliver e [] = c := by
  unfold SignalCore.deliver
  cases c; simp at h; simp [h]

/-- An instruction that raises nothing and costs one cycle: the core takes its results and goes on. -/
theorem State.runWord_goes (s : State) (n : Fin 48) (word : BitVec 32) (cls op : Nat) (sources : List Nat) (f : Nat → SignalCore → CoreStep)
    (c1 : SignalCore) (t0 : Nat) (ht : t0 = (s.core n).issueAt sources)
    (h : s.issuesWord n word cls op sources 1)
    (hf : f t0 ((s.core n).land t0) = { core := c1 })
    (hh : c1.held = (s.core n).held) (hj : c1.job = (s.core n).job) :
    ∃ t, s.runWord n word cls op sources f = t ∧ t = { s with cores := t.cores } ∧ (∀ m, m ≠ n → t.core m = s.core m) ∧
      SignalCore.goesOn c1 (t.core n) (t0 + 1) ((s.core n).pc + 1) := by
  obtain ⟨h1, h2, h3, h4, h5, h6, h7, h8, j, h9, h10⟩ := h
  have ha := SignalCore.after_goes 2 { c1 with elapsed := t0 + 1 } (s.core n).pc.toNat
  refine ⟨s.setCore n (({ c1 with elapsed := t0 + 1 } : SignalCore).after (s.core n).pc.toNat 2), ?_, ?_, ?_, ?_⟩
  · have e1 : (({ c1 with elapsed := t0 + 1 } : SignalCore).after (s.core n).pc.toNat 2).held = [] := by rw [ha.1]; simp [hh, h8]
    have e2 : (({ c1 with elapsed := t0 + 1 } : SignalCore).after (s.core n).pc.toNat 2).job = some j := by rw [ha.1]; simp [hj, h9]
    have h3' : ¬ ((s.core n).program ≠ [] ∧ Tab.get 0 (s.core n).program (s.core n).pc.toNat ≠ word) := by
      intro ⟨a, b⟩; rcases h3 with h3 | h3
      · exact a h3
      · exact b h3
    unfold State.runWord
    simp only [h9, h1, h2, h3', h4, h5, h6, h7, ne_eq, not_true_eq_false, or_self, if_false, Option.getD_none, Bool.false_eq_true, false_and,
      Option.isSome_none, SignalCore.issueTimes, ← ht, hf]
    have : ¬ j.budget < t0 + 1 := by omega
    simp [this, e1, e2, SignalCore.deliver_nil]
  · rfl
  · intro m hm; simp [hm]
  · simp only [State.core_setCore, if_true]
    refine ⟨?_, ?_⟩
    · rw [ha.1]
    · intro h0
      rw [ha.2 h0]
      congr 1

/-- Results that land change the vector registers and what is still to land, nothing else. -/
theorem SignalCore.land_frame (c : SignalCore) (t : Nat) : c.land t = { c with v := (c.land t).v, landing := (c.land t).landing } := by
  unfold SignalCore.land
  simp only
  have key : ∀ (l : List (Nat × Nat × List (BitVec 32))) (c d : SignalCore), d = { c with v := d.v, landing := d.landing } →
      l.foldl (fun c q => c.setVec q.2.1 q.2.2) d = { c with v := (l.foldl (fun c q => c.setVec q.2.1 q.2.2) d).v, landing := (l.foldl (fun c q => c.setVec q.2.1 q.2.2) d).landing } := by
    intro l; induction l with
    | nil => intro c d h; simpa using h
    | cons a l ih =>
      intro c d h
      simp only [List.foldl_cons]
      apply ih
      rw [h]; rfl
  refine key _ c _ ?_
  rfl

end Sys2Proof.Machine
end

