-- ==== Sys2Proof/Tests/Slice0.lean ====
section
/-!
SUPPORT. Tests: for each statement for the provers a state and operands that meet its hypotheses (witness_<statement>), small checks of
single commands (test_…) against values worked out from the rules, and an ill-formed command for each check of Instr.wf (wf_…).
-/

namespace Sys2Proof.Tests
open Sys2Proof Sys2Proof.Machine

set_option Elab.async false

/-! ### Small states -/

/-- The state a command leaves. -/
def after (o : Host.Outcome State Fault Refusal) : State :=
  match o with
  | .next t => t
  | _ => {}

/-- An object table with the records given, as (index, subindex, record, value). -/
def tableOf (rs : List (Nat × Nat × Nat × Nat)) : Tab Nat := rs.foldl (fun t r => setRec t r.1 r.2.1 r.2.2.1 r.2.2.2) []

/-- A window word: start and length in ns, owner, class, the engines it names; its MaxPass is the largest. -/
def windowWord (start len owner cls engines : Nat) : Nat :=
  engines * 2 ^ 192 + cls * 2 ^ 90 + owner * 2 ^ 76 + start * 2 ^ 46 + len * 2 ^ 16 + 0xFF

/-- A list entry with a good complement: a window, a horizon and a MaxPass limit in cycles. -/
def goodEntry (window word horizon maxPass : Nat) : ListEntry :=
  let v := BitVec.ofNat 384 (word + horizon * 2 ^ 256 + maxPass * 2 ^ 256 * 2 ^ 64)
  { window, value := v, comp := ~~~v }

/-- An inference window of 1 ms from 1 µs on, for the context and the engine 0. -/
def word0 : Nat := windowWord 1000 1000000 5 1 1

/-- A version that holds that window, and the partition of two granules of context 5 on engine 0. -/
def version0 : Tab Nat :=
  tableOf [(0x3001, 0, 0, 1), (0x3002, 0, 0, word0 + (2 ^ 256 - 1 - word0) * 2 ^ 256)]

/-- Its list entry. -/
def entry0 : ListEntry := goodEntry 0 word0 1000000 100000

/-- The engine 0 holds its window open; everything else is as after reset. -/
def open0 : State :=
  { vers := { active := version0 }, chr := { islands := [(0, { list := [entry0], current := some entry0, lastWindow := some 0 })] } }

/-- The module runs, its host link up. -/
def running0 : State := { start := { powered := true, running := true }, host := { phase := .up, hostReady := true } }

/-! ### The queue and time -/

theorem witness_StepRunsTheFront : ({ pending := [.timeBaseTick] } : State).pending = [.timeBaseTick] ∧
    ({} : State).pending = [] ∧ ({} : State).host.writes = [] := by decide +kernel

theorem witness_StepKeepsMemory : ({} : State).mem.wf = true ∧ step {} = .next {} := ⟨by decide +kernel, rfl⟩

theorem witness_EveryCommandCompletes :
    ({ pending := [.timeBaseTick, .trstNAssert] } : State).pending = .timeBaseTick :: [.trstNAssert] := rfl

theorem test_rest_of_the_queue_waits :
    (after (step { pending := [.timeBaseTick, .trstNAssert] })).pending = [.trstNAssert] := by decide +kernel

theorem witness_TimeTick : ({} : State).time.increment.2 = 0 ∧
    ({} : State).time.units + ({} : State).time.incActive.toNat < 2 ^ 48 * secondUnits := by decide +kernel

theorem witness_TimeIncrementWrite :
    (~~~0x1479D4D84#64 = ~~~0x1479D4D84#64 ∧ 0x1479D4D84 ≤ (0x1479D4D84#64).toNat ∧ (0x1479D4D84#64).toNat ≤ 0x147BEDB72) ∧
    (0 : BitVec 64) ≠ ~~~0x1479D4D84#64 := by decide +kernel

/-- The last microsecond of the period of the version after reset. -/
def endOfPeriod : State :=
  { time := { acc := 9999000 * 2 ^ 32, stepPending := some 1 }, vers := { active := tableOf [(0x3003, 0, 0, 1000)] } }

theorem witness_TimeStepsAndSets :
    (({} : State).time.stepAwaits = false ∧ (0x640000#64).toInt.natAbs ≤ ({} : State).act 0x2007 0 0 * 65536 ∧
      ({} : State).act 0x2007 0 0 * 65536 < (0x7000000000000000#64).toInt.natAbs ∧ hasRanWindow ({} : State).vers.active = false) ∧
    ({ time := { stepPending := some 1 } } : State).time.stepAwaits = true ∧
    (endOfPeriod.time.stepPending = some 1 ∧ endOfPeriod.finalEclipse = true ∧ ({} : State).finalEclipse = false) ∧
    ((999999999 * 2 ^ 16 : BitVec 96).toNat / 65536 % 2 ^ 32 < 10 ^ 9 ∧ ({} : State).time.quality = .unset) ∧
    ((0 : BitVec 96).toNat / 65536 % 2 ^ 32 < 10 ^ 9 ∧ ({ time := { load := some (.absolute 0) } } : State).quiet = true ∧
      ({ time := { load := some (.step 1) } } : State).quiet = true) := by decide +kernel

/-- Link 63 is selected for SYNCE_CLK_OUT, in a state. -/
def synce (x : PortState) : State :=
  { (({} : State).setObj 0x2030 0 0 63) with ports := [(63, { state := x })], links := { synceLocked := true } }

theorem witness_HoldoverAndPads :
    (let s : State := { time := { quality := .tracking, sinceRefresh := 2 ^ 60 } }
     s.time.quality = .tracking ∧ s.obj 0x2004 0 0 * 781250 ≤ s.time.sinceRefresh ∧
      ({ time := { quality := .tracking } } : State).time.sinceRefresh < s.obj 0x2004 0 0 * 781250) ∧
    (let s : State := { time := { quality := .holdover, holdoverElapsed := 0xFFFFFFFF } }
     s.time.quality = .holdover ∧ s.obj 0x2005 0 0 ≤ s.time.holdoverElapsed.toNat ∧
      ({ time := { quality := .holdover } } : State).time.holdoverElapsed.toNat < s.obj 0x2005 0 0) ∧
    ({} : State).time.ref10mStart = none ∧
    (let s : State := { time := { seconds := 1, ref10mStart := some 0 } }
     s.time.ref10mStart = some 0 ∧ (s.time.units : Int) - (0 : Nat) - secondUnits + 32768 = 32768) ∧
    ((synce .up).synceOut = true ∧ (synce .down).synceOut = false) := by decide +kernel

theorem test_tick_carries : (after (exec .timeBaseTick { time := { acc := secondUnits - 1 } })).time.seconds = 1 := by decide +kernel

/-! ### Windows, periods and versions -/

/-- The instant at which the first window starts, one island, nothing emitted. -/
def edge0 : State := { vers := { active := version0 }, time := { acc := 1000 * 2 ^ 32 } }

/-- Its start edge has been emitted, the window is in the list of the engine 0, and none is open. -/
def edge1 : State := { edge0 with chr := { islands := [(0, { list := [entry0], emitted := 1 })] } }

/-- One nanosecond before the boundary, a lane latency of 2 µs, every edge of this period emitted. -/
def edgeEarly : State :=
  { vers := { active := version0 }, time := { acc := 9999999 * 2 ^ 32 },
    chr := { islands := [(0, { emitted := 2, latency := 2000000 })] } }

/-- The instant at which that window ends, open. -/
def edge2 : State :=
  { vers := { active := version0 }, time := { acc := 1001000 * 2 ^ 32 }
    chr := { islands := [(0, { list := [entry0], current := some entry0, lastWindow := some 0, emitted := 2, taken := 1 })] } }

/-- A boundary that has not been counted: a second after the GPS epoch. -/
def boundary0 : State := { start := { running := true }, time := { seconds := 315964820 } }

theorem witness_WindowEdges :
    (edge0.laneLost 0 = false ∧ edge0.chr.suspended = false ∧ nextEdge edge0.vers.active 0 (edge0.island 0).emitted = some 0 ∧
      reached edge0.intoUnits (edge0.island 0).latency.toNat (edgeInstant edge0.vers.active 0) = true) ∧
    (edgeEarly.laneLost 0 = false ∧ nextEdge edgeEarly.vers.active 0 (edgeEarly.island 0).emitted ≠ some 0 ∧
      edgeEarly.time.load = none ∧ edgeEarly.boundaryOf edgeEarly.nextVersion = true ∧
      nextEdge edgeEarly.nextVersion 0 (edgeEarly.island 0).emittedEarly = some 0 ∧
      reached edgeEarly.intoUnits (edgeEarly.island 0).latency.toNat (edgeInstant edgeEarly.nextVersion 0 + edgeEarly.periodFrames * 10 ^ 7) =
        true) ∧
    (0 < (edge1.island 0).emitted ∧ reached edge1.intoUnits (edge1.island 0).latency.toNat
        (edgeInstant edge1.nextVersion 0 + edge1.periodFrames * 10 ^ 7) = false) ∧
    (edge1.edgeArrives 0 (2 * 0) = true ∧ edge1.chr.suspended = false ∧ edge1.integ.fenced = false ∧
      (edge1.island 0).checked 0 = (some entry0, false) ∧ edge1.workEnds 0 = [] ∧ ∀ c ∈ edge1.admitted 0 entry0.win,
        (Tab.get {} (edge1.engine 0).bounds c.toNat).comp = ~~~(Tab.get {} (edge1.engine 0).bounds c.toNat).value) ∧
    edge0.edgeArrives 0 (2 * 0) = false ∧
    (edge2.edgeArrives 0 (2 * 0 + 1) = true ∧ (edge2.island 0).current = some entry0 ∧ entry0.window = 0) ∧
    (let s := edge2.setIsland 0 { edge2.island 0 with current := none }
     s.edgeArrives 0 (2 * 0 + 1) = true ∧ (s.island 0).current = none) ∧ edge1.edgeArrives 0 (2 * 0 + 1) = false := by decide +kernel

theorem test_edge_not_early : (after (exec (.edgeEmit 0 0) { vers := { active := version0 } })).chr.islands = [] := by decide +kernel

theorem test_edge_at_its_instant : ((after (exec (.edgeEmit 0 0) edge0)).island 0).emitted = 1 := by decide +kernel

theorem witness_PeriodBoundaries :
    ((1 : Nat) ∉ namedGroups open0.vers.active ∧ 1 ∉ open0.groupsWanted ∧
      ∀ k, k < 8 → (open0.engine (BitVec.ofNat 6 (8 * 1 + k))).arrays = [] ∧ (open0.engine (BitVec.ofNat 6 (8 * 1 + k))).vuPass = none) ∧
    ({ vers := { phase := .unconfirmed } } : State).deadlineNear = true ∧
    (boundary0.start.running = true ∧ boundary0.chr.periodCount ≠ boundary0.periodNow ∧ boundary0.integ.ledgers = [] ∧
      boundary0.revertDue = false ∧ boundary0.vers.phase ≠ .unconfirmed ∧ boundary0.vers.due = none ∧
      boundary0.integ.orderPending = none) := by decide +kernel

theorem witness_VersionsActivate :
    (let s : State := { boundary0 with vers := { due := some (.commit, 0) } }
     s.revertDue = false ∧ s.chr.periodCount ≠ s.periodNow ∧ 0 ≤ s.time.ticks ∧ s.integ.ledgers = [] ∧ s.integ.orderPending = none) ∧
    (let s : State := { boundary0 with vers := { phase := .unconfirmed } }
     s.vers.phase = .unconfirmed ∧ (s.deadlineLeft s.periodNow).any (fun left => decide (left ≤ 0)) = true) := by decide +kernel

theorem witness_VersionsKeepTime :
    catalogue.any (fun o => decide (0x2000 ≤ o.index ∧ o.index ≤ 0x2006) && o.cls == .rw) = true ∧
    (findObject 0x2007 0).isSome = true := by decide +kernel

/-- R350: stepping B0, function 5 of generation 3 in ACTIVE, not yet ready. -/
theorem test_hostStateBlock :
    ({ insts := [(5, { generation := 3, life := .active })] } : State).hostStateBlock (.inst 5) = 0x0200000500031000 ∧
    State.reset.hostStateBlock .provider = 0x0200FFFF00000000 := by decide +kernel
/-! ### Submission and completion -/

/-- A read is outstanding with tag 0. -/
def reading (p : ReadPurpose) : State := { running0 with host := { phase := .up, reads := [(0, some ⟨.provider, 0, 64, p, 0⟩)] } }

/-- An instance that polls at every slot: its ring enabled with 64 places, nothing fetched, a first period of 1 µs. -/
def polling : State :=
  { reading (.summary 0) with
    vers := { active := tableOf [(0x3020, 0, 0, 1 * 2 ^ 50 + 1 * 2 ^ 42 + 1 * 2 ^ 35)] }
    rw := tableOf [(0x3021, 0, 0, 6 * 2 ^ 59 + 6 * 2 ^ 54 + 2 ^ 52)]
    insts := [(0, { life := .active })] }

/-- The version whose window 0 is a poll slot. -/
def pollVersion : Tab Nat :=
  let w := windowWord 0 1000 0xFFF 1 1 + 2 ^ 89
  tableOf [(0x3001, 0, 0, 1), (0x3002, 0, 0, w + (2 ^ 256 - 1 - w) * 2 ^ 256)]

theorem witness_SubmissionCounters :
    (winPoll (windowOf pollVersion 0) = true ∧ winLength (windowOf pollVersion 0) ≠ 0 ∧ 0 < windowCount pollVersion) ∧
    (polling.findRead (.summary 0) = some (0, ⟨.provider, 0, 64, .summary 0, 0⟩) ∧ polling.due 0 = true ∧ polling.due 1 = false) ∧
    countBad (wrapDiff 24 0 64) 64 = false ∧ countBad (wrapDiff 24 0 65) 64 = true := by decide +kernel

theorem test_summary_of_64 : ((after (exec (.summaryLineRead 0 .good (64 * 2 ^ 24)) polling)).inst 0).ring.submit = 64 := by decide +kernel

theorem test_summary_of_65 : ((after (exec (.summaryLineRead 0 .good (65 * 2 ^ 24)) polling)).inst 0).ring.state = .ringError := by decide +kernel

/-- A batch of no steps of context 5, all of it done, with its ring enabled. -/
def doneBatch : State :=
  { polling with batches := [⟨7, .ring (.inst 0), 5, 0, 0, 9, false, 0, 0, 0, 0, 0, 0, [], 0, none, false, true, 0, false, 0⟩] }

theorem witness_HostRecords :
    (reading (.batch (.inst 3))).findRead (.batch (.inst 3)) = some (0, ⟨.provider, 0, 64, .batch (.inst 3), 0⟩) ∧
    (∃ b, doneBatch.oldestBatch 5 = some b ∧ doneBatch.batchDone b = true ∧ b.origin = .ring (.inst 0) ∧
      (doneBatch.ring (.inst 0)).state ≠ .ringError ∧
      ((doneBatch.ring (.inst 0)).written - (doneBatch.ring (.inst 0)).consumed).toNat < ringCompleteSize (doneBatch.ringRec (.inst 0))) ∧
    (bits (16 * 2 ^ 59 + 16 * 2 ^ 54 + 2 ^ 52) 51 0 = 0 ∧
      checkRing (({} : State).obj 0x3021 0 5) (16 * 2 ^ 59 + 16 * 2 ^ 54 + 2 ^ 52) = rsNone) ∧
    (checkRing (polling.obj 0x3021 0 0) (6 * 2 ^ 59 + 6 * 2 ^ 54) = rsNone ∧ bit (polling.obj 0x3021 0 0) 52 = true) ∧
    checkRing (({} : State).obj 0x3021 0 5) (5 * 2 ^ 59 + 6 * 2 ^ 54 + 2 ^ 52) ≠ rsNone ∧
    (let r := 6 * 2 ^ 59 + 16 * 2 ^ 54 + 2 ^ 52 + 0xFFFF * 2 ^ 36
     bit (({} : State).obj 0x3024 0 0) 52 = false ∧ bit r 52 = true ∧ bits r 35 0 = 0 ∧ bits r 66 64 = 0 ∧ bits r 51 36 = 0xFFFF ∧
      bits r 203 192 = 0 ∧ bits r 139 128 = 0 ∧ (6 ≤ bits r 63 59 ∧ bits r 63 59 ≤ 16) ∧ (6 ≤ bits r 58 54 ∧ bits r 58 54 ≤ 16)) :=
  ⟨by decide +kernel, ⟨_, rfl, by decide +kernel⟩, by decide +kernel, by decide +kernel, by decide +kernel, by decide +kernel⟩

theorem test_completion_is_posted : (after (exec (.completionRecordWrite 5) doneBatch)).host.writes.length = 1 := by decide +kernel

/-! ### Steps -/

/-- Buffer formats by their codes: BF16 0, FP32 9, bytes 0xB. -/
def moorWord (ctx state fmt backing offset size pitch rows : Nat) : Nat :=
  ctx * 2 ^ 246 + state * 2 ^ 243 + fmt * 2 ^ 234 + backing * 2 ^ 232 + offset * 2 ^ 219 + size * 2 ^ 205 + pitch * 2 ^ 192 +
  rows * 2 ^ 176 + 0xFF * 2 ^ 168

/-- A mooring pair. -/
def pairOf (w : Nat) : Mooring := { value := BitVec.ofNat 256 w, comp := ~~~(BitVec.ofNat 256 w) }

/-- A descriptor of engine 0 that names no buffer but those given. -/
def descWord (op a b out m n k : Nat) : BitVec 512 :=
  (BitVec.ofNat 256 (op * 2 ^ 248 + a * 2 ^ 232 + b * 2 ^ 224 + 0xFF * 2 ^ 216 + out * 2 ^ 208 + 0xFF * 2 ^ 200 + 0xFF * 2 ^ 192 +
    m * 2 ^ 147 + n * 2 ^ 137 + k * 2 ^ 124 + m * 2 ^ 108 + n * 2 ^ 92)) ++ (0 : BitVec 256)

/-- A LOAD, STORE or GATHER of one row of 64 bytes. -/
def moveWord (op a b out : Nat) : BitVec 512 := descWord op a b out 0 0 0 ||| BitVec.ofNat 512 (64 * 2 ^ 160 + 64 * 2 ^ 128 + 1 * 2 ^ 112)

/-- The partition of granules 0 and 1 of engine 0. -/
def part0 : Nat := 5 * 2 ^ 54 + 2 * 2 ^ 39 + 64 * 2 ^ 28

/-- A batch of ten steps of context 5 that the provider submitted. -/
def batch0 : Batch := ⟨0, .ring .provider, 5, 0, 10, 9, false, 0, 0, 0, 0, 0, 0, [], 0, none, false, true, 0, false, 0⟩

/-- A step of that batch. -/
def stepOf (d : BitVec 512) : Step := ⟨d, 0, 0, 0⟩

/-- The version with context 5, the provider's, of class INFERENCE, and its partition. -/
def version1 : Tab Nat :=
  setRec (setRec version0 0x3030 0 0 (5 * 2 ^ 54 + 2 ^ 52 + 2 ^ 51)) 0x3031 0 0 (part0 + (2 ^ 64 - 1 - part0) * 2 ^ 64)

/-- Context 5 on engine 0 with one step in its queue: buffers 0 and 1 of 32 × 32 BF16, 2 of 32 × 32 FP32 in host memory, 4 free. -/
def queued (d : BitVec 512) : State :=
  { open0 with
    chr := { open0.chr with gated := 0xFE }
    vers := { active := version1 }
    host := { phase := .up }
    batches := [batch0]
    engines := [(0, {
      bounds := [(5, ⟨BitVec.ofNat 64 part0, ~~~(BitVec.ofNat 64 part0)⟩)], granules := [(0, ⟨.active, 5⟩), (1, ⟨.active, 5⟩)]
      moorings := [(0, pairOf (moorWord 5 2 0 0 0 32 1 32)), (1, pairOf (moorWord 5 2 0 0 32 32 1 32)),
        (2, pairOf (moorWord 5 1 9 3 64 64 2 32))]
      contexts := [(5, { queue := [stepOf d] })] })] }

theorem witness_StepRoute :
    let s := queued (descWord 0 0xFF 0xFF 0xFF 0 0 0)
    s.routing 5 = some batch0 ∧ s.noWork = false ∧ s.galleryCheck 5 (descWord 1 0 1 2 32 32 32).toNat 0 = [] ∧
    (s.ectx 0 5).held < 64 ∧ s.routeInputs batch0 (descWord 1 0 1 2 32 32 32) 0 = (s, descWord 1 0 1 2 32 32 32, 0, []) ∧
    s.galleryCheck 5 (descWord 9 0 1 2 32 32 32).toNat 0 ≠ [] ∧
    64 ≤ ((s.setEctx 0 5 { queue := List.replicate 64 (stepOf 0) }).ectx 0 5).held ∧
    (s.setEctx 0 5 { queue := List.replicate 64 (stepOf 0) }).routing 5 = some batch0 := by decide +kernel

theorem test_route_appends :
    ((after (exec (.stepRoute 5 (descWord 1 0 1 2 32 32 32) 0) (queued (descWord 0 0xFF 0xFF 0xFF 0 0 0)))).ectx 0 5).queue.length = 2 := by
  decide +kernel

/-- A GATHER of one row of 16 FP32 values: its table is buffer 4, its index list buffer 5. -/
def gatherWord : BitVec 512 :=
  (moveWord 5 4 0xFF 2 ^^^ BitVec.ofNat 512 (0xFA * 2 ^ 448)) ||| BitVec.ofNat 512 (1 * 2 ^ 364 + 16 * 2 ^ 348 + 1 * 2 ^ 96)

/-- The table of four rows, in one segment of host memory at 0x1000. -/
def gathering : State :=
  (queued gatherWord).updEngine 0 (fun x => { x with
    moorings := x.moorings ++ [(4, pairOf (moorWord 5 2 0xB 0 256 2 1 2)), (5, pairOf (moorWord 5 2 0xB 0 258 1 1 1))]
    scratch := Tab.writeBytes [] (64 * 256)
      (leBytes 64 (4 * 2 ^ 480 + 9 * 2 ^ 476 + 16 * 2 ^ 463 + 1 * 2 ^ 452) ++ leBytes 16 (0x1000 * 2 ^ 64 + 3 * 2 ^ 30)) })

theorem witness_StepsIssue :
    (queued (descWord 0 0xFF 0xFF 0xFF 0 0 0)).issueOf 0 5 opNop = .issues (stepOf (descWord 0 0xFF 0xFF 0xFF 0 0 0)) ∧
    (queued (moveWord 3 0xFF 0xFF 2)).issueOf 0 5 opLoad = .issues (stepOf (moveWord 3 0xFF 0xFF 2)) ∧
    stepEmpty (moveWord 3 0xFF 0xFF 2).toNat = false ∧ stepEmpty (descWord 3 0xFF 0xFF 2 0 0 0).toNat = true ∧
    (queued (descWord 7 0 0xFF 0xFF 0 0 0)).issueOf 0 5 opRelease = .issues (stepOf (descWord 7 0 0xFF 0xFF 0 0 0)) ∧
    (queued (descWord 1 0 1 2 32 32 32)).issueOf 0 5 opProduct = .issues (stepOf (descWord 1 0 1 2 32 32 32)) ∧
    (queued (descWord 2 0 0xFF 2 32 32 0)).issueOf 0 5 opVector = .issues (stepOf (descWord 2 0 0xFF 2 32 32 0)) ∧
    (queued (descWord 6 0xFF 0xFF 4 0 0 0)).issueOf 0 5 opMoor = .issues (stepOf (descWord 6 0xFF 0xFF 4 0 0 0)) ∧
    (queued (descWord 6 0xFF 0xFF 4 0 0 0)).moorCheck 0 5 4 0 (moorWord 0 0 0 0 128 1 1 1) = [] ∧ (queued 0).linkUp = true ∧
    (queued 0).ideBlocked = false ∧ (∀ b ∈ (queued 0).batches, b.origin = .ring .provider) ∧
    (queued (moveWord 4 2 0xFF 0xFF)).issueOf 0 5 opStore = .issues (stepOf (moveWord 4 2 0xFF 0xFF)) ∧
    gathering.issueOf 0 5 opGather = .issues (stepOf gatherWord) ∧ stepEmpty gatherWord.toNat = false ∧
    (gathering.engine 0).gatherGood ((gathering.engine 0).part 5) gatherWord.toNat 0 = true ∧
    stepEmpty (moveWord 4 2 0xFF 0xFF).toNat = false ∧
    (queued 0).isPort (((queued 0).engine 0).entry part0 2) = false := by decide +kernel

theorem test_store_owes_one_line :
    ((after (exec (.store 0 5) (queued (moveWord 4 2 0xFF 0xFF)))).ectx 0 5).runs.map (fun r => r.writes.map (fun w => (w.start, w.bytes))) =
      [[(4096, 64)]] := by decide +kernel

/-- A step that has nothing left to do, which signals semaphore 3 of engine 1. -/
def finished (sts : List (BitVec 8)) : State :=
  (queued 0).setEctx 0 5 { runs := [{ step := stepOf (BitVec.ofNat 512 (3 * 2 ^ 321 + 1 * 2 ^ 320 + 1 * 2 ^ 314)), serial := 1, statuses := sts }] }

/-- A context that owes a signal to its partition on engine 1. -/
def owing : State :=
  let s := (queued 0).updEngine 1 (fun x => { x with
    bounds := [(5, ⟨BitVec.ofNat 64 (part0 + 2 ^ 48), ~~~(BitVec.ofNat 64 (part0 + 2 ^ 48))⟩)]
    granules := [(0, ⟨.active, 5⟩), (1, ⟨.active, 5⟩)] })
  s.setEctx 0 5 { signals := [⟨1, 3⟩] }

theorem witness_StepCommit :
    ((((finished []).ectx 0 5).runs.find? (fun r => r.complete && !((finished []).engine 0).stepBusy 5 r.serial &&
        !(finished []).portBusy 0 5 r.serial)).map (·.again) = some false) ∧
    ((((finished [stInvalid]).ectx 0 5).runs.find? (fun r => r.complete && !((finished [stInvalid]).engine 0).stepBusy 5 r.serial &&
        !(finished [stInvalid]).portBusy 0 5 r.serial)).map (fun r => decide (stInvalid ∈ r.statuses)) = some true) ∧
    (owing.ectx 0 5).signals = [⟨1, 3⟩] ∧ (1 : EngineId) ≠ 0 ∧ owing.resident 1 5 = true := by decide +kernel

theorem test_signal_reaches_its_engine :
    Tab.get 0 ((after (exec (.semaphoreSignal 0 5) owing)).ectx 1 5).semaphores 3 = 1 := by decide +kernel

/-! ### Passes, the tender, the scrubber -/

/-- The product of the two BF16 buffers has issued, both operands resident. -/
def issued : State := after (exec (.product 0 5) (queued (descWord 1 0 1 2 32 32 32)))

/-- Its run. -/
def run0 : Run := ((issued.ectx 0 5).runs.head?).getD { step := stepOf 0, serial := 0 }

/-- Its pass, started on cycle 100. -/
def pass0 : Pass :=
  { ((((issued.startSet 0 5 run0 false).map (·.2)).head?).getD ⟨0, 0, .single, 0, 0, 0, 0, false, false, false, false, 0, 0, 0, 0, 0, 0, 0, false, false⟩) with started := 100, origin := 100 }

/-- It is in flight on array A. -/
def passing : State :=
  (issued.setEctx 0 5 { issued.ectx 0 5 with runs := [{ run0 with waiting := [] }] }).updEngine 0 (fun x => x.setArray false { flight := [pass0] })

/-- The pass is discarded. -/
def discarding : State :=
  passing.updEngine 0 (fun x => x.setArray false { x.array false with flight := [{ pass0 with discard := true }] })

/-- The pass has been abandoned. -/
def abandonedPass : State := after (exec (.passAbandon 0 false .thermal) passing)

theorem witness_ArrayPasses :
    (issued.openWindow 0 = some entry0 ∧ issued.mayStart = true ∧ issued.engineStopped 0 = false ∧ issued.chr.gated.getLsbD 0 = false ∧
      winOwner entry0.win = 5 ∧ (issued.ectx 0 5).ready = some run0 ∧
      issued.startIndexGood 0 5 run0 (issued.startSet 0 5 run0 false) = true ∧
      issued.mayStartSet 0 5 run0 entry0 100 false (issued.startSet 0 5 run0 false) = true ∧ issued.lateWaits 0 = false ∧
      (issued.engine 0).pairsGood ((issued.engine 0).part 5) run0.step.descriptor.toNat = true ∧
      (issued.startSet 0 5 run0 false).map (fun q => q.2.kind) = [.single]) ∧
    (((passing.engine 0).array false).flight = [pass0] ∧
      ((passing.ectx 0 pass0.context).runs.find? (fun r => r.serial == pass0.serial)).isSome = true ∧ pass0.late = false ∧
      pass0.discard = false ∧ pass0.shadow = false ∧ pass0.paired = false ∧ pass0.sampled = false) ∧
    (((discarding.engine 0).array false).flight = [{ pass0 with discard := true }] ∧
      ((discarding.ectx 0 pass0.context).runs.find? (fun r => r.serial == pass0.serial)).isSome = true) ∧
    (((abandonedPass.engine 0).array false).reruns = [pass0] ∧ ((abandonedPass.engine 0).array false).health = .inService ∧
      abandonedPass.noWork = false ∧ abandonedPass.engineStopped 0 = false ∧ pass0.origin + (pass0.cycles : Int) ≤ 1000 ∧
      ((abandonedPass.engine 0).array false).freeAt ≤ 1000 ∧ ((abandonedPass.engine 0).array false).flight = [] ∧
      abandonedPass.demandAt 0 1000 + ((abandonedPass.engine 0).rerunDemand pass0).1 ≤ demandLimit96 ∧
      (abandonedPass.engine 0).firstBad ((abandonedPass.engine 0).passReads ((abandonedPass.engine 0).part 5)
        run0.step.descriptor.toNat pass0) = none) := by decide +kernel

theorem test_pass_of_32_by_32 : pass0.cycles = 192 ∧ pass0.interval = 32 := by decide +kernel

/-- A shadow of that pass waits on array B. -/
def shadowing : State :=
  passing.updEngine 0 (fun x => x.setArray true { x.array true with shadows := [{ pass0 with shadow := true }] })

/-- A SERVICE window on engine 1, and an arbitration slot of engine 0 whose results differ. -/
def arbitrating : State :=
  let l := goodEntry 1 (windowWord 2000000 1000000 0xFFE 1 2) 1000000 100000
  { queued 0 with
    chr := { islands := [(1, { list := [l], current := some l, lastWindow := some 1 })], gated := 0xFE }
    integ := { soundingSlots := [(0, some ⟨0, false, 0, [[1]], [[2]], [[1]], 32, 0⟩)] }
    time := { seconds := 86400 } }

theorem witness_Soundings :
    (((shadowing.engine 0).array true).shadows = [{ pass0 with shadow := true }] ∧ shadowing.openWindow 0 = some entry0 ∧
      ((shadowing.engine 0).array true).health = .inService ∧
      (((shadowing.ectx 0 pass0.context).runs.find? (fun r => r.serial == pass0.serial)).map (fun r =>
        decide (shadowing.demandAt 0 1000 + ((shadowing.engine 0).startDemand ((shadowing.engine 0).part 5) r.step.descriptor.toNat
          { pass0 with shadow := true } false).1 ≤ demandLimit96))) = some true ∧
      shadowing.mayStart = true ∧ shadowing.engineStopped 0 = false ∧ shadowing.dutyOf 0 = 64 ∧
      (shadowing.admitted 0 entry0.win).contains pass0.context = true ∧ entry0.fits pass0.cycles 1000 = true ∧
      ((shadowing.engine 0).array true).freeAt ≤ 1000 ∧ ((shadowing.engine 0).array true).reruns = [] ∧
      ((shadowing.engine 0).array true).drains = [] ∧ ((shadowing.engine 0).array true).flight = [] ∧
      (shadowing.engine 0).passBad ((shadowing.engine 0).part 5) run0.step.descriptor.toNat { pass0 with shadow := true } = false ∧
      shadowing.lateWaits 0 = false) ∧
    (Tab.get none arbitrating.integ.soundingSlots 0 = some ⟨0, false, 0, [[1]], [[2]], [[1]], 32, 0⟩ ∧
      groupOf (1 : EngineId) = groupOf 0 ∧ (1 : EngineId) ≠ 0 ∧ arbitrating.serviceOpen 1 = true ∧
      ((arbitrating.engine 1).array false).health = .inService ∧ arbitrating.engineStopped 1 = false ∧ arbitrating.mayStart = true ∧
      alter [[1]] none = ([[1]] : List (List W32)) ∧ alter [[1]] none ≠ ([[2]] : List (List W32))) ∧
    (0 + arbitrating.act 0xA031 0 0 ≤ arbitrating.time.seconds.toNat) := by decide +kernel

/-- The LOAD of buffer 2 has issued, with the fetches given to issue and outstanding. -/
def loadRun (owed sent : List Fetch) : Run :=
  { step := stepOf (moveWord 3 0xFF 0xFF 2), serial := 1, fetches := owed, fetching := sent, producing := true }

/-- A LOAD of one line of module memory has issued; the provider's region 0 lies there. -/
def loading : State :=
  let s := queued 0
  let s1 := { s with vers := { active := setRec (setRec s.vers.active 0x7011 0 0 1) 0x7010 0 0 (2 ^ 64 + (2 ^ 128 - 1 - 2 ^ 64) * 2 ^ 128) } }
  s1.setEctx 0 5 { runs := [loadRun [⟨64, 1, 0x1000, 64, 0, false, none, false, 0⟩] []] }

/-- The same where no window names the engine. -/
def loadingClosed : State := { loading with chr := {} }

/-- That line. -/
def line0 : Fetch := ⟨64, 1, 0x1000, 64, 0, false, none, false, 0⟩

/-- The line is outstanding, its memory zero. -/
def landing : State := loading.setEctx 0 5 { readLines := 1, runs := [loadRun [] [line0]] }

/-- A line of host memory is outstanding. -/
def arriving : State := (queued 0).setEctx 0 5 { readLines := 1, runs := [loadRun [] [⟨64, 3, 0x1000, 64, 0, false, none, false, 0⟩]] }

/-- The run of a STORE that owes a line to the host, and has one outstanding. -/
def storeRun : Run :=
  { step := stepOf (moveWord 4 2 0xFF 0xFF), serial := 1, writes := [⟨4096, 3, 0x1000, 64, false, 0, 0⟩],
    writing := [⟨4160, 3, 0x1040, 64, false, 0, 0⟩] }

/-- It has issued. -/
def storing : State := (queued 0).setEctx 0 5 { writeLines := 1, runs := [storeRun] }

theorem witness_TenderLines :
    ((((arriving.ectx 0 5).landingRun 0).map (fun q => (q.1.gather, q.2.kind, q.2.bytes, q.2.dropped))) = some (none, 3, 64, false) ∧
      arriving.pathOpen 0 3 0x1000 = true) ∧
    ((((landing.ectx 0 5).landingRun 0).map (fun q => (q.1.gather, q.2.kind, q.2.bytes, q.2.dropped))) = some (none, 1, 64, false) ∧
      landing.pathOpen 0 1 0x1000 = true ∧ (landing.memoryLine 0 5 line0).2 = ([], List.replicate 64 0) ∧
      (landing.memoryLine 0 5 line0).1.engines = landing.engines) ∧
    ((loading.ectx 0 5).fetchRun = some (loadRun [⟨64, 1, 0x1000, 64, 0, false, none, false, 0⟩] []) ∧ loading.noWork = false ∧
      loading.engineStopped 0 = false ∧ loading.fetchAdmitted 0 5 = true ∧ loading.lineRoom 0 5 ≠ 0 ∧
      loading.tileMayFill 0 5 (loadRun [⟨64, 1, 0x1000, 64, 0, false, none, false, 0⟩] []) ⟨64, 1, 0x1000, 64, 0, false, none, false, 0⟩ = true ∧
      loading.pathOpen 0 1 0x1000 = true ∧ (loading.requestLines 0 5 line0 1).2 = true ∧ loading.isRemote 1 0x1000 = false ∧
      loading.fetchAllowed 5 line0 = true ∧ (queued 0).fetchAllowed 5 line0 = false) ∧
    (loadingClosed.fetchAdmitted 0 5 = false ∧ (loadingClosed.ectx 0 5).fetchRun.isSome = true) ∧
    (((storing.ectx 0 5).runs.find? (fun r => !r.writes.isEmpty)).map (·.writes) = some [⟨4096, 3, 0x1000, 64, false, 0, 0⟩] ∧
      (storing.engine 0).writeNow part0 ⟨4096, 3, 0x1000, 64, false, 0, 0⟩ = ⟨4096, 3, 0x1000, 64, false, 0, 0⟩ ∧
      storing.noWork = false ∧ storing.engineStopped 0 = false ∧ storing.writeAdmitted 0 5 = true ∧
      (storing.engine 0).earlierOwes 5 storeRun = false ∧ storing.lineRoom 0 5 ≠ 0 ∧ storing.pathOpen 0 3 0x1000 = true ∧
      (storing.engine 0).firstBad [(4096, 64)] = none ∧ storing.host.phase = .up ∧
      (storing.sendWrites 0 5 [⟨4096, 3, 0x1000, 64, false, 0, 0⟩]).2 = true ∧ storing.linkUp = true ∧ storing.isRemote 3 0x1000 = false) ∧
    ((storing.ectx 0 5).runs.find? (fun r => !r.writing.isEmpty)).isSome = true := 
  ⟨by decide +kernel, by decide +kernel, by decide +kernel, by decide +kernel, by decide +kernel, by decide +kernel⟩

/-- A killed partition of granule 0 waits for the scrubber, or is under it, with a byte left in it and one beyond. -/
def scrubbing (started : Bool) : State :=
  ({} : State).updEngine 0 (fun x => { x with scrubs := [{ context := 5, first := 0, count := 1, started, ready := true }], scratch := [(5, 7), (32768, 9)] })

theorem test_scrub_clears : ((after (exec (.scrubComplete 0) (scrubbing true))).engine 0).scratch = [(32768, 9)] := by decide +kernel

/-- A buffer with a clean backing is read by an issued step. -/
def reread : State := (queued 0).setEctx 0 5 { runs := [loadRun [] []] }

/-- The log holds a step that wrote buffer 2. -/
def logged : State := (queued 0).setEctx 0 5 { log := [⟨stepOf (moveWord 3 0xFF 0xFF 2), 1, []⟩] }

/-- The run of a GATHER that has a line of 16 bytes landed and none of its row. -/
def poolRun : Run :=
  { step := stepOf gatherWord, serial := 1, gather := some { landed := [List.replicate 16 1] } }

/-- It has issued. -/
def pooling : State := gathering.setEctx 0 5 { runs := [poolRun] }

theorem witness_ScratchpadCare :
    (((scrubbing false).engine 0).scrubs.map (fun k => (k.started, k.ready)) = [(false, true)]) ∧
    ((scrubbing true).engine 0).scrubs.map (·.started) = [true] ∧ (({} : State).engine 0).lineContext 0 = none ∧
    ((reread.engine 0).lineContext 64 = some 5 ∧ (reread.engine 0).bufferOf ((reread.engine 0).part 5) 64 = some 2 ∧
      (reread.ectx 0 5).runs = [loadRun [] []] ∧ (loadRun [] []).sends = [] ∧
      (reread.engine 0).header ((reread.engine 0).part 5) (moveWord 3 0xFF 0xFF 2).toNat = none ∧
      mBacking ((reread.engine 0).entry ((reread.engine 0).part 5) 2) ≠ 0 ∧
      mDirty ((reread.engine 0).entry ((reread.engine 0).part 5) 2) = false) ∧
    ((logged.ectx 0 5).log.find? (fun l => l.serial == 1) = some ⟨stepOf (moveWord 3 0xFF 0xFF 2), 1, []⟩ ∧
      (logged.ectx 0 5).runs = [] ∧ logged.engineStopped 0 = false ∧ logged.noWork = false) ∧
    ((pooling.ectx 0 5).runs.find? (fun r => r.gather.isSome) = some poolRun ∧ pooling.engineStopped 0 = false ∧
      (List.replicate 16 (1 : Byte)).length <
        ceilDiv (storedBytes ((pooling.engine 0).table ((pooling.engine 0).part 5) gatherWord.toNat)) 64 * 64) ∧
    (ceilDiv (storedBytes ((pooling.engine 0).table ((pooling.engine 0).part 5) gatherWord.toNat)) 64 * 64 ≤
        (List.replicate 64 (1 : Byte)).length ∧
      (((pooling.engine 0).gatherItems ((pooling.engine 0).part 5) gatherWord.toNat)[0]?).isSome = true) := by decide +kernel

/-! ### Chains and the vector unit -/

/-- The product's tile is in the vector unit. -/
def staged : State := passing.updEngine 0 (fun x => { x with vu := { tilePass := some pass0, tile := [[1, 2], [3, 4]] } })

/-- It waits in array A's drain bank. -/
def drained : State :=
  passing.updEngine 0 (fun x => x.setArray false { drains := [⟨pass0, false, List.replicate 32 (List.replicate 32 one32)⟩] })

/-- A product whose chain, buffer 3, is a vector program of one instruction; the hold buffer is buffer 4, of 512-byte rows. -/
def chainWord : BitVec 512 := descWord 1 0 1 2 32 32 32 ^^^ BitVec.ofNat 512 (0xFC * 2 ^ 456)

/-- Its chain header. -/
def chainHeader : Nat := 2 ^ 510 + 2 ^ 499 + 0xFF * 2 ^ 484 + 0xFF * 2 ^ 476 + 0xFF * 2 ^ 468 + 4 * 2 ^ 460 + 0xFF * 2 ^ 452 + 0xFF * 2 ^ 444

/-- The run of that product. -/
def chainRun : Run := { run0 with step := stepOf chainWord, waiting := [] }

/-- Its tile waits in array A's drain bank. -/
def programmed : State :=
  let s := drained.updEngine 0 (fun x => { x with
    moorings := x.moorings ++ [(3, pairOf (moorWord 5 2 0xB 0 256 2 1 2)), (4, pairOf (moorWord 5 1 9 0 264 64 8 8))]
    scratch := Tab.writeBytes [] (64 * 256) (leBytes 64 chainHeader) })
  s.setEctx 0 5 { s.ectx 0 5 with runs := [chainRun] }

/-- Its held band waits, the one tile of it. -/
def bandHeld : State := programmed.setEctx 0 5 { programmed.ectx 0 5 with runs := [{ chainRun with heldTiles := [(0, 0)] }] }

theorem witness_StageRows :
    staged.noWork = false ∧ staged.engineStopped 0 = false ∧ (staged.engine 0).vu.tilePass = some pass0 ∧ pass0.discard = false ∧
    ((staged.engine 0).array false).drains = [] ∧
    ((staged.ectx 0 pass0.context).runs.find? (fun r => r.serial == pass0.serial)).isSome = true ∧
    hExact (((staged.engine 0).header ((staged.engine 0).part 5) (descWord 1 0 1 2 32 32 32).toNat).getD 0) = false := by decide +kernel

theorem witness_TileChains :
    (((drained.engine 0).array false).drains.map (·.pass) = [pass0] ∧ pass0.discard = false ∧ (drained.engine 0).vu.tilePass = none ∧
      (drained.engine 0).vuPass = none ∧
      (drained.ectx 0 5).runs.find? (fun r => r.serial == pass0.serial) = some { run0 with waiting := [] } ∧
      (drained.engine 0).outBlocked ((drained.engine 0).part 5) run0 pass0 = false ∧ pass0.key ∉ run0.tilesDone ∧ pass0.kind = .single ∧
      (drained.engine 0).header ((drained.engine 0).part 5) run0.step.descriptor.toNat = none ∧
      (drained.engine 0).pairsGood ((drained.engine 0).part 5) run0.step.descriptor.toNat = true ∧
      (drained.engine 0).firstBad ((drained.engine 0).chainReads ((drained.engine 0).part 5) run0.step.descriptor.toNat) = none) ∧
    ((programmed.ectx 0 5).runs.find? (fun r => r.serial == pass0.serial) = some chainRun ∧
      (programmed.engine 0).header ((programmed.engine 0).part 5) chainWord.toNat = some chainHeader ∧ hForm chainHeader = 1 ∧
      (programmed.engine 0).outBlocked ((programmed.engine 0).part 5) chainRun pass0 = false ∧
      (programmed.engine 0).pairsGood ((programmed.engine 0).part 5) chainWord.toNat = true ∧
      (programmed.engine 0).firstBad ((programmed.engine 0).chainReads ((programmed.engine 0).part 5) chainWord.toNat) = none ∧
      (((programmed.engine 0).array false).drains.map ((programmed.engine 0).drainTurn false)) = [true]) ∧
    ((bandHeld.engine 0).heldRun = some (5, { chainRun with heldTiles := [(0, 0)] }) ∧
      ((bandHeld.ectx 0 5).runs.find? (fun q => q.serial == chainRun.serial)).isSome = true ∧ dOp chainWord.toNat = opProduct ∧
      mStreamed ((bandHeld.engine 0).entry ((bandHeld.engine 0).part 5) (dOut chainWord.toNat)) = false ∧
      bandHeld.noWork = false ∧ bandHeld.engineStopped 0 = false) := by decide +kernel

/-- The word of a vector instruction on one register. -/
def vectorWord (op d a b : Nat) : BitVec 64 := BitVec.ofNat 64 (op * 2 ^ 58 + d * 2 ^ 52 + a * 2 ^ 46 + b * 2 ^ 40)

theorem witness_VectorRowsFrame : vectorOp (vectorWord 0 0 0 0) = 0 ∧ vectorOp (vectorWord 0x31 0 0 0) = 49 := by decide +kernel

theorem witness_VectorLanesAndSelects :
    ({} : State).noWork = false ∧ ({} : State).engineStopped 63 = false ∧ vSpan (vectorWord 0 63 62 61).toNat = 1 ∧
    vPred (vectorWord 0 63 62 61).toNat = 0 ∧ vD (vectorWord 0x10 8 62 61).toNat % 8 = 0 ∧ vD (vectorWord 0x10 63 62 61).toNat % 8 ≠ 0 ∧
    (programmed.engine 0).programContext = some (part0, chainWord.toNat, chainHeader) ∧
    (let w : BitVec 64 := vectorWord 0 62 1 0 + 1 * 2 ^ 29
     let one := fun (i : Nat) => vectorWord 0 ((62 + i) % 64) (1 + i) i
     vSpan w.toNat = 2 ∧ ∀ i : Fin 2, vSpan (one i.val).toNat = 1 ∧ vD (one i.val).toNat = (vD w.toNat + i.val) % 64 ∧
       vA (one i.val).toNat = (vA w.toNat + i.val) % 64 ∧ vB (one i.val).toNat = (vB w.toNat + i.val) % 64 ∧
       vRow (one i.val).toNat = vRow w.toNat) := by decide +kernel

theorem witness_VectorMemory :
    programmed.noWork = false ∧ programmed.engineStopped 0 = false ∧ vSpan (vectorWord 0x31 0 0 0).toNat = 1 ∧
    (programmed.engine 0).programContext = some (part0, chainWord.toNat, chainHeader) ∧
    rowAddr part0 ((programmed.engine 0).entry part0 (hHold chainHeader)) 0 0 0 = 64 * 264 := by decide +kernel

theorem test_vecAdd :
    Tab.get 0 ((after (exec (.vecAdd 0 (vectorWord 0 2 0 1)) (({} : State).updEngine 0 (fun x => { x with
      vu := { v := [(0, one32), (128, one32)] } })))).engine 0).vu.v 256 = 0x40000000 := by decide +kernel

theorem test_stv_writes_the_hold_buffer :
    ((after (exec (.stv 0 (vectorWord 0x31 0 0 0)) (programmed.updEngine 0 (fun x => { x with
      vu := { v := [(0, one32)] } })))).engine 0).word32 (64 * 264) = one32 := by decide +kernel


/-! ### The radio pipeline -/

/-- A cell of 24 PRBs, one stream each way, on link 0, with receiver chart 0 and eight iterations. -/
def cellWord : Nat := 24 * 2 ^ 236 + 2 ^ 230 + 2 ^ 224 + 2 ^ 70 + 2 ^ 40 + 8 * 2 ^ 34

/-- A PDU of one symbol and one PRB of a type, of eight bytes, with new data. -/
def pduWord (t symbol : Nat) : BitVec 512 :=
  BitVec.ofNat 512 (t * 2 ^ 508 + symbol * 2 ^ 504 + 2 ^ 500 + 2 ^ 482 + 2 * 2 ^ 412 + 2 ^ 409 + 8 * 2 ^ 388 + 512 * 2 ^ 378)

/-- A slot in progress with one PDU: symbol 0 downlink, symbol 13 uplink. -/
def plan0 (d : Pdu) : SlotPlan :=
  { slot := 900, sfn := 90, slotInFrame := 0, directions := 0x4000002, tag := 7, missing := false, pdus := [d] }

/-- One second after the GPS epoch, the cell's slots in progress given. -/
def radio0 (plans : List SlotPlan) : State :=
  { time := { seconds := 315964820, quality := .tracking }, host := { phase := .up, hostReady := true, radioReady := true }
    vers := { active := tableOf [(0x5000, 0, 0, 1), (0x5001, 0, 0, cellWord)] }
    rw := tableOf [(0x5010, 0, 0, 2 ^ 59), (0x5011, 1, 0, 0x1000), (0x5011, 2, 0, 4)], radio := { cells := [(0, { plans })] } }

/-- Its plan read is outstanding, that of slot 1,000: frame 100 of its numerology, slot 0. -/
def planRead : State :=
  let s := radio0 []
  { s with host := { s.host with reads := [(3, some { purpose := .plan 0 1000, source := .provider, address := 0, length := 8192 })] }
           radio := { s.radio with cells := [(0, { fetching := [1000] })] } }

/-- Link 0 is up. -/
def linkUp (s : State) : State := s.setPort 0 { s.port 0 with state := .up }

theorem witness_RadioSlotsDownlink :
    let s := radio0 []
    let c := radio0 [plan0 { record := pduWord 1 0, payload := some [] }]
    let p := plan0 { record := pduWord 1 0, payload := some [] }
    (s.hasCell 0 = true ∧ s.noWork = false ∧ s.time.quality ≠ .unset ∧ s.host.radioReady = true ∧
      planEnabled (s.obj 0x5010 0 (0 : CellId).toNat) = true ∧ (s.cell 0).fetching = [] ∧ (s.cell 0).lastSlot = none ∧
      s.ideBlocked = false ∧ s.host.reads.length < 1024 ∧
      slotAt (clNum (s.cellOf 0)) (s.now16 + ns16 (clPlanLead (s.cellOf 0))) = some 1000 ∧ s.host.phase = .up ∧
      ({ s with host := { s.host with phase := .inReset } } : State).host.phase ≠ .up) ∧
    ((planRead.findRead (.plan 0 1000)).map (·.1) = some 3 ∧ (planRead.cell 0).fetching = [1000] ∧
      1000 / slotsPerFrame (clNum (planRead.cellOf 0)) % 1024 = 100 ∧ 1000 % slotsPerFrame (clNum (planRead.cellOf 0)) = 0 ∧
      bits (100 * 2 ^ 502 + 1 * 2 ^ 460) 427 0 = 0 ∧ bits (100 * 2 ^ 502 + 1 * 2 ^ 460) 466 460 ≤ [pduWord 0 13].length) ∧
    ((c.cell 0).plans.find? (fun p => match p.pdus[0]? with | some d => d.live && !d.cplaneSent | none => false) = some p ∧
      c.radioRuns = true ∧ airStart (clNum (c.cellOf 0)) p.slot (pdStart (pduWord 1 0).toNat) ≤
        c.now16 + ns16 (clDlAdvanceMax (c.cellOf 0) + clCplaneLead (c.cellOf 0)) ∧
      c.linkUpFor (c.cellOf 0) = false ∧ (linkUp c).linkUpFor (c.cellOf 0) = true) ∧
    ((c.cell 0).plans.find? (fun p => 0 < 14 && !p.windowOpen.getLsbD 0 && !(p.dlStreams (c.cellOf 0) 0).isEmpty) = some p ∧
      airStart (clNum (c.cellOf 0)) p.slot 0 ≤ c.now16 + ns16 (clDlAdvanceMax (c.cellOf 0))) ∧
    ((c.cell 0).plans.find? (fun p => (p.dlStreams (c.cellOf 0) 0).contains 0 && !(p.dlSym 0 0).complete) = some p ∧
      (p.dlSym 0 0).judged = false ∧ p.windowOpen.getLsbD 0 = false ∧
      ({ p with windowOpen := 1 } : SlotPlan).windowOpen.getLsbD 0 = true ∧ ((p.setDlSym 0 0 { judged := true }).dlSym 0 0).judged = true) ∧
    ((c.cell 0).plans.find? (fun p => 0 < 14 && !p.judged.getLsbD 0 && !(p.dlStreams (c.cellOf 0) 0).isEmpty) = some p ∧
      c.dlDeadline (c.cellOf 0) p.slot 0 ≤ c.now16) := by decide +kernel

theorem witness_UplinkResults :
    let d : Pdu := { record := pduWord 0 13, cbTotal := 1 }
    let p0 : SlotPlan := { plan0 d with pdus := [] }
    let p1 : SlotPlan := { plan0 d with ul := [((32 * 13 + 0) * 512, true)] }
    let p2 := plan0 { d with tb := .crcPass }
    let prach := { plan0 { record := pduWord 7 13 } with directions := 0xA }
    (((radio0 [p0]).cell 0).plans.find? (fun p => 13 < 14 && !p.ulClosed.getLsbD 13 && planDirection p.directions.toNat 13 == 2) = some p0 ∧
      (radio0 [p0]).radioRuns = true ∧
      airStart (clNum ((radio0 [p0]).cellOf 0)) p0.slot (13 + 1) + ns16 (clUlArriveMax ((radio0 [p0]).cellOf 0)) ≤ (radio0 [p0]).now16) ∧
    (((radio0 [prach]).cell 0).plans.find? (fun p => 12 < 14 && !p.ulClosed.getLsbD 12 && planDirection p.directions.toNat 12 == 2) = some prach ∧
      pdType (pduWord 7 13).toNat = 7 ∧ 12 ≠ pdStart (pduWord 7 13).toNat + pdSymbols (pduWord 7 13).toNat - 1) ∧
    (((radio0 [p1]).cell 0).plans.find? (fun p => 13 < 14 && !p.ulClosed.getLsbD 13 && planDirection p.directions.toNat 13 == 2) = some p1 ∧
      d.live = true ∧ pdType d.record.toNat = 0 ∧ pdHas d.record.toNat 13 = true ∧
      p1.missingPrbs ((radio0 [p1]).cellOf 0) 13 d.record.toNat = [] ∧ pdStart d.record.toNat + pdSymbols d.record.toNat - 1 = 13 ∧
      p1.receiverIssued = false ∧ clReceiver ((radio0 [p1]).cellOf 0) ≠ 0 ∧ ∀ q ∈ ((radio0 [p1]).cell 0).plans, q.slot = p1.slot → q = p1) ∧
    (((radio0 [plan0 d]).cell 0).plans.find? (fun p => p.pdus.any (fun d => d.hasResult && !d.decided && decide (d.cbStarted < d.cbTotal ∨ d.cbTotal = 0))) =
        some (plan0 d) ∧
      airStart (clNum ((radio0 []).cellOf 0)) 900 14 + ns16 (clUlResultDeadline ((radio0 []).cellOf 0)) ≤ (radio0 []).now16) ∧
    (((radio0 [p2]).cell 0).plans.find? (fun p => match p.pdus[0]? with | some d => d.hasResult && d.decided && !d.resultWritten | none => false) =
        some p2 ∧ (radio0 [p2]).host.phase = .up) ∧
    (((radio0 [p0]).cell 0).plans.find? (fun p => p.finished ((radio0 [p0]).cellOf 0)) = some p0 ∧ (radio0 [p0]).obj 0x5011 1 0 ≠ 0 ∧
      ((radio0 [p0]).radio.ringWritten - (radio0 [p0]).radio.ringConsumed.setWidth 32).toNat < 2 ^ (radio0 [p0]).obj 0x5011 2 0) := by
  decide +kernel

/-- A window of class RAN that names every unit is open on the units of a coding kind; the cell's only PDU is of a type. -/
def coding (kind t : Nat) : State :=
  let e := goodEntry 0 (windowWord 1000 1000000 0 0 1) 1000000 100000
  { radio0 [plan0 { record := pduWord t 0, payload := some [1], cbTotal := 1 }] with
    chr := { islands := [((unitId kind 0).toNat, { list := [e], current := some e })] } }

/-- A code block of Z = 2. -/
def block0 : CodeBlock := { cell := 0, pdu := 0, index := 0, baseGraph2 := true, z := 2, k := 20, e := 8, ncb := 32 }

/-- The code block of the PUSCH of eight bytes: base graph 2, Z = 14. -/
def block1 : CodeBlock := { block0 with z := 14, k := 140, ncb := 700 }

/-- Whether the unit 0 of a kind may start on its only PDU of a type. -/
def mayCode (kind t c : Nat) : Bool :=
  (((coding kind t).blockPdu block0 (fun d => pdType d.record.toNat == t && !d.decided && d.cbStarted == 0 && d.payload.isSome)).isSome &&
    (coding kind t).mayStartUnit (unitId kind 0) c 0)

/-- An operation that ended late. -/
def op0 : CodingOp :=
  { kind := .ldpcEncode, block := block0, slot := 900, cycles := 1, ends := 1, late := true, limit := 0, input := [], result := [5], used := 0, good := true }

theorem witness_CodingOperations :
    (mayCode 8 1 (encodeC block0) = true ∧ mayCode 9 2 (polarDecodeC 32) = true ∧ mayCode 9 3 (polarEncodeC 32) = true ∧
      mayCode 9 4 (polarEncodeC 32) = true ∧ mayCode 0xA 1 (dftC 12) = true ∧ mayCode 0xA 0 (interpolationC 4095) = true ∧
      mayCode 0xB 7 (prachC 63 (prachLength 0)) = true ∧ mayCode 7 0 (decodeC block0 8 46) = true) ∧
    ((coding 7 0).blockPdu block0 (fun d => pdType d.record.toNat == 0 && !d.decided && decide (d.cbStarted < d.cbTotal))).isSome = true ∧
    ((coding 7 0).openWindow (ldUnit 0)).isSome = true ∧ pdNewData (pduWord 0 0).toNat = true ∧
    blockFits block1 (pduWord 0 0).toNat = true ∧ (coding 7 0).earlierBlock block1 900 = false ∧
    (let pos := receivedPositions block1 (segmentation 8 (pdRate (pduWord 0 0).toNat)).bits 0 2
     let tab := combineLlrs [] true pos (List.replicate 8 1)
     let rows := rowsUsed block1 ((List.range 700).filter (fun k => pos.contains k || Tab.get 0 tab k ≠ 0)).length
     iterationLimit block1 rows 100000 (clMaxIterations ((coding 7 0).cellOf block1.cell)) = some 8 ∧
     (coding 7 0).mayStartUnit (ldUnit 0) (decodeC block1 8 rows) 0 = true) ∧
    (let s := (coding 8 1).setUnit (leUnit 0) { ops := [op0] }
     (s.unit (leUnit 0)).ops = [op0] ∧ (s.unit (leUnit 0)).stopped = false ∧ s.noWork = false ∧ op0.kind ≠ .prach) ∧
    (let s := (coding 0xB 7).setUnit (pcUnit 0) { ops := [{ op0 with kind := .prach }] }
     (s.unit (pcUnit 0)).stopped = false ∧ s.noWork = false ∧ s.host.phase = .up ∧
      ((s.cell 0).plans.find? (fun p => p.slot == op0.slot)).isSome = true ∧
      ((s.cell 0).plans.find? (fun p => p.slot == op0.slot)).bind (fun p => p.pdus[0]?.map (fun d => (d.cbDone + 1).toNat)) =
        some (clUlStreams (s.cellOf 0)) ∧
      block0.ncb.toNat ≤ 1024) := by decide +kernel

theorem test_late_coding_marks_its_slot :
    (((after (exec (.codingOpComplete (leUnit 0)) ((coding 8 1).setUnit (leUnit 0) { ops := [op0] }))).cell 0).plans.map (·.statuses)) =
      [[stOverrun]] := by decide +kernel

/-! ### Signal cores -/

/-- A job of kernel 8 with a budget of 4,200 cycles, and the machine in which signal core 47 runs it. -/
def job0 : Job :=
  { request := { kernel := 8, units := 1, cell := 0, slotLow := 7, pdu := 0, args := 0, owner := 5 }, budget := 4200, xIn := [], yIn := [] }
def onCore (c : SignalCore) : State := { cores := [(47, { c with job := some job0 })] }

/-- A word of a class and an operation with operand bits. -/
def scWord (cls op low : Nat) : BitVec 32 := BitVec.ofNat 32 (cls * 2 ^ 28 + op * 2 ^ 22 + low)

/-- What remains of issuesWord on such a machine. -/
theorem issues_on (c : SignalCore) (word : BitVec 32) (cls op : Nat) (sources : List Nat) (check : Nat)
    (h : c.stopped = false ∧ c.program = [] ∧ scReserved word.toNat = false ∧ scClass word.toNat = cls ∧ scOp word.toNat = op ∧
      c.rep = none ∧ c.held = [] ∧ c.issueAt sources + check ≤ 4200) :
    (onCore c).issuesWord 47 word cls op sources check := by
  obtain ⟨h1, h2, h3, h4, h5, h6, h7, h8⟩ := h
  exact ⟨rfl, h1, .inl h2, h3, h4, h5, h6, h7, job0, rfl, h8⟩

/-- The rows of the scalar, address and transfer classes issue; a source that is not ready holds its reader. -/
theorem witness_SignalScalarRows :
    (onCore {}).issuesWord 47 (scWord 4 0 0) 4 0 [keyScalar 0, keyScalar 0] 1 ∧
    (onCore { ready := [(keyScalar 15, 9)] }).issuesWord 47 (scWord 4 9 0x3C000) 4 9 [keyScalar 15, keyScalar 0] 1 ∧
    (onCore {}).issuesWord 47 (scWord 4 1 1023) 4 1 [keyScalar 0] 1 ∧ (onCore {}).issuesWord 47 (scWord 4 11 262143) 4 11 [] 1 ∧
    (onCore {}).issuesWord 47 (scWord 4 10 0) 4 10 [keyScalar 0, keyScalar 0] 1 ∧ (onCore {}).issuesWord 47 (scWord 3 0 65535) 3 0 [] 1 ∧
    (onCore {}).issuesWord 47 (scWord 3 1 0x3CFFFF) 3 1 [] 1 ∧ (onCore {}).issuesWord 47 (scWord 3 2 0x1CFFFF) 3 2 [] 1 ∧
    (onCore {}).issuesWord 47 (scWord 3 3 15) 3 3 [keyScalar 15] 1 ∧ (onCore {}).issuesWord 47 (scWord 7 0 (0x12 * 1024)) 7 0 [] 1 ∧
    (onCore {}).issuesWord 47 (scWord 7 1 (0x0A * 1024)) 7 1 [keyScalar 0] 1 := by
  refine ⟨?_, ?_, ?_, ?_, ?_, ?_, ?_, ?_, ?_, ?_, ?_⟩ <;> exact issues_on _ _ _ _ _ _ (by decide +kernel)

theorem witness_SignalVectorRows :
    (onCore {}).issuesWord 47 (scWord 0 0 0) 0 0 [keyVec 0, keyVec 0] 1 ∧
    (onCore {}).issuesWord 47 (scWord 0 4 0x3FC000) 0 4 [keyAccumulate 3, keyVec 7, keyVec 7] 1 ∧
    (onCore {}).issuesWord 47 (scWord 0 5 0) 0 5 [keyAccumulate 0, keyVec 0] 1 ∧
    (onCore {}).issuesWord 47 (scWord 1 1 0x300000) 1 1 [] 1 ∧ (onCore {}).issuesWord 47 (scWord 1 2 0) 1 2 [keyVec 0] 1 ∧
    (onCore {}).issuesWord 47 (scWord 1 3 0x300000) 1 3 [keyAcc 3] 1 ∧ (onCore {}).issuesWord 47 (scWord 1 0 (39 * 2048)) 1 0 [keyAcc 0] 1 ∧
    (onCore {}).issuesWord 47 (scWord 5 0 0x70000) 5 0 [keyVec 7] 1 ∧ (onCore {}).issuesWord 47 (scWord 5 6 0) 5 6 [] 1 ∧
    (onCore {}).issuesWord 47 (scWord 5 7 0) 5 7 [keyVec 0, keyVec 0] 1 ∧ (onCore {}).issuesWord 47 (scWord 2 0 0xF000) 2 0 [] 1 ∧
    (onCore {}).issuesWord 47 (scWord 2 1 0xF000) 2 1 [keyVec 0] 1 ∧ (onCore {}).issuesWord 47 (scWord 2 2 0x7000) 2 2 [] 1 ∧
    (onCore {}).issuesWord 47 (scWord 8 0 0xC0000) 8 0 [keyAccumulate 0] 1 ∧ ((onCore {}).core 47).accTrap = false ∧
    ((onCore { accTrap := true }).issuesWord 47 (scWord 0 1 0) 0 1 [keyAccumulate 0, keyVec 0, keyVec 0] 1 ∧
      ((onCore { accTrap := true }).core 47).accTrap = true) := by
  refine ⟨?_, ?_, ?_, ?_, ?_, ?_, ?_, ?_, ?_, ?_, ?_, ?_, ?_, ?_, rfl, ?_, rfl⟩ <;> exact issues_on _ _ _ _ _ _ (by decide +kernel)

theorem witness_SignalControlRows :
    ((onCore {}).issuesWord 47 (scWord 6 0 0x3FFF) 6 0 [] 3 ∧ ({} : SignalCore).condition 0 = true ∧ ({} : SignalCore).condition 1 = false) ∧
    ((onCore {}).issuesWord 47 (scWord 6 1 0x3FFF) 6 1 [] 3 ∧ ((onCore {}).core 47).link = none) ∧
    ((onCore { link := some 5 }).issuesWord 47 (scWord 6 2 0) 6 2 [] 3 ∧ ((onCore { link := some 5 }).core 47).link = some 5) ∧
    ((onCore {}).issuesWord 47 (scWord 6 3 4095) 6 3 [] 2 ∧
      (onCore { s := [(15, 65535)] }).issuesWord 47 (scWord 6 3 0x3FF000) 6 3 [keyScalar 15] 2 ∧
      (onCore {}).issuesWord 47 (scWord 6 3 0x1F000) 6 3 [] 2) ∧
    ((onCore {}).issuesWord 47 (scWord 6 4 4096) 6 4 [] (1 + 4096) ∧ (onCore {}).issuesWord 47 (scWord 6 4 0) 6 4 [] (1 + 0)) ∧
    ((onCore {}).issuesWord 47 (scWord 6 5 0) 6 5 [] 1 ∧ ((onCore {}).core 47).job = some job0 ∧ job0.late = false ∧ job0.rerun = false) ∧
    (onCore { inHandler := true }).issuesWord 47 (scWord 6 6 0) 6 6 [] 3 ∧
    ((onCore {}).issuesWord 47 (scWord 6 7 0) 6 7 [] 1 ∧ ((onCore {}).core 47).inHandler = false) ∧
    (onCore {}).issuesWord 47 (scWord 6 8 0) 6 8 [] 1 ∧
    ((onCore { link := some 0 }).issuesWord 47 (scWord 6 1 0) 6 1 [] 3 ∧ ((onCore { link := some 0 }).core 47).link ≠ none) := by
  refine ⟨⟨?_, rfl, rfl⟩, ⟨?_, rfl⟩, ⟨?_, rfl⟩, ⟨?_, ?_, ?_⟩, ⟨?_, ?_⟩, ⟨?_, rfl, rfl, rfl⟩, ?_, ⟨?_, rfl⟩, ?_, ⟨?_, by decide +kernel⟩⟩ <;>
    exact issues_on _ _ _ _ _ _ (by decide +kernel)

theorem test_movi_sign_extends :
    ((after (exec (.movi 47 (scWord 4 11 262143)) (onCore {}))).core 47).scalar 0 = 0xFFFFFFFF := by decide +kernel

theorem test_cmul_readable_after_two :
    Tab.get 0 ((after (exec (.cmul 47 (scWord 0 0 0)) (onCore { elapsed := 5 }))).core 47).ready (keyAcc 0) = 7 := by decide +kernel

/-- The image's table: kernel 8 with entry 3, base 100 and 16 per unit, at most 4 units. -/
def kernelRecord : Nat := 8 * 2 ^ 120 + 3 * 2 ^ 106 + 100 * 2 ^ 90 + 16 * 2 ^ 74 + 4 * 2 ^ 58

/-- Core 0 in a state, its window of context 5 open. -/
def coreIs (c : SignalCore) : State :=
  let e := goodEntry 0 (windowWord 1000 1000000 5 0 1) 1000000 100000
  { time := { quality := .tracking }, host := { radioReady := true }, start := { kernels := [(0, BitVec.ofNat _ kernelRecord)] }
    cores := [(0, c)], chr := { islands := [((coreUnit 0).toNat, { list := [e], current := some e })] } }

/-- The image's table with another kernel. -/
def withKernel (k : Nat) : State := { coreIs {} with start := { kernels := [(0, BitVec.ofNat _ (kernelRecord - 8 * 2 ^ 120 + k * 2 ^ 120))] } }

theorem witness_SignalJobs :
    let q := job0.request
    ((coreIs {}).kernel q.kernel = some kernelRecord ∧ (coreIs {}).noWork = false ∧ ((coreIs {}).core 0).stopped = false ∧
      ((coreIs {}).core 0).health = .inService ∧ ((coreIs {}).core 0).loaded = none ∧ ((coreIs {}).core 0).busyHalf &&& 2 = 0 ∧
      ((coreIs {}).core 0).nextHigh = false ∧ ((coreIs { nextHigh := true }).core 0).busyHalf &&& 1 = 0 ∧
      q.units.toNat ≤ kernelMaxUnits kernelRecord) ∧
    (let s := coreIs { loaded := some job0 }
     (s.core 0).loaded = some job0 ∧ job0.poisoned = false ∧ ((s.coreWindow 0 q.owner).any (fun l => l.fits job0.budget 0)) = true ∧
      s.kernel job0.request.kernel = some kernelRecord ∧ (s.core 0).health = .inService ∧
      s.mayStart = true ∧ (s.core 0).job = none ∧ (s.island (coreUnit 0)).waitsForLate = false) ∧
    (((coreIs { done := [job0] }).core 0).done = [job0] ∧ job0.request.kernel = 0x08 ∧ (coreIs {}).kernel 0x0B = none) ∧
    (((withKernel 0x0B).kernel 0x0B).isSome = true ∧ ((withKernel 0x05).kernel 0x05).isSome = true ∧
      ((withKernel 0x0C).kernel 0x0C).isSome = true) ∧
    (let s := { onCore {} with chr := {} }
     (0 : Fin 48) ≠ 47 ∧ (s.core 47).job = some job0 ∧ job0.rerun = false ∧ (s.island (coreUnit 0)).current = none ∧
      (s.core 47).health = .inService) ∧
    (let s := (coreIs {}).setCore 47 { abandoned := some job0 }
     (s.core 47).job = none ∧ (s.core 47).abandoned = some job0 ∧
      ((s.openWindow (coreUnit 0)).any (fun l => winOwner l.win == job0.request.owner.toNat && decide (job0.budget ≤ l.maxPass))) = true ∧
      s.mayStart = true ∧ (s.core 0).health = .inService ∧ s.kernel job0.request.kernel = some kernelRecord ∧ (s.core 0).job = none ∧ (s.core 0).busyHalf = 0 ∧ (s.core 0).stopped = false) ∧
    ((coreIs { health := .reloading }).core 0).health = .reloading ∧ ((coreIs {}).core 0).health ≠ .reloading := by decide +kernel

/-! ### Ports -/

/-- Port p in a state, the module running. -/
def portIs (p : Fin 84) (x : Port) : State := { running0 with ports := [(p.val, x)] }

/-- A frame of a C-plane message, and one of a management descriptor queued at time zero. -/
def frame0 : Frame := { bytes := [1, 2, 3], origin := .cplane 0 9 }
def mgmtFrame : Frame := { bytes := [], origin := .mgmt 4 false }

/-- An LLDP frame of 60 bytes, 64 with its FCS. -/
def lldpFrame : List Byte := [0x01, 0x80, 0xC2, 0, 0, 0x0E, 0, 0, 0, 0, 0, 0, 0x88, 0xCC] ++ List.replicate 46 0

/-- Management queue enabled, its receive ring one record at 0x10000. -/
def mgmtOn (s : State) : State := { s with rw := tableOf [(0x6040, 8, 0, 1), (0x6040, 1, 0, 0x10000)] }

/-- Port 83 with a gate list of two entries of 2,500 ticks, one second past the period. -/
def gating (time : TimeBase) : State :=
  { time, vers := { active := tableOf [(0x3000, 0, 0, 1), (0x6011, 0, 83, 2 * 2 ^ 53 + 5000 * 2 ^ 23), (0x6010, 83, 0, 0xFF000000 + 2500),
                                      (0x6010, 83, 1, 0xFF000000 + 2500)] } }

/-- A descriptor of 60 bytes for link 63, queue 5, with a tag. -/
def txDesc : BitVec 256 := BitVec.ofNat 256 (60 * 2 ^ 178 + 63 * 2 ^ 171 + 5 * 2 ^ 168 + 9 * 2 ^ 135)

theorem witness_PortLinksAndFrames :
    (((portIs 63 { state := .down }).port 63).state = .down ∧ ((portIs 63 { state := .down }).port 63).stopped = false ∧
      (portIs 63 { state := .down }).start.running = true) ∧
    ((portIs 83 {}).port 83).state ≠ .down ∧ ((portIs 63 { state := .up }).port 63).state = .up ∧ ((portIs 0 {}).port 0).state ≠ .up ∧
    (let s := mgmtOn (portIs 83 { state := .up })
     (s.port 83).state = .up ∧ s.integ.fenced = false ∧ ([0] : List Byte).length + 4 < 64 ∧ s.rxRefusal 83 lldpFrame = none ∧
      s.macsecOn 83 = false ∧ classify (s.portMac 83) lldpFrame = .lldp ∧ s.obj 0x6040 8 0 = 1 ∧ s.host.phase = .up ∧
      (s.mgmt.rxWritten - s.mgmt.rxConsumed).toNat < 2 ^ s.obj 0x6040 2 0) ∧
    (let s := { portIs 63 { state := .up, queues := [(7, [frame0])] } with time := { quality := .tracking } }
     Tab.get [] (s.port 63).queues 7 = frame0 :: [] ∧ (∀ r, r < 8 → 7 < r → Tab.get [] (s.port 63).queues r = []) ∧
      s.mayTransmit 63 7 = true ∧ s.gated 63 7 = false ∧ bit (s.shaper 63 7) 19 = false ∧ s.macsecOn 63 = false ∧
      frame0.origin = .cplane 0 9) ∧
    ((portIs 64 { state := .up }).port 64).state = .up ∧
    (∀ r, r < 8 → Tab.get [] ((portIs 0 {}).port 0).queues r = []) := by decide +kernel

theorem witness_GatesAndKeys :
    (let s := gating { acc := 0 }
     let late := gating { acc := 3200 * 2 ^ 32 }
     s.gateCount 83 = 2 ∧ s.chr.suspended = false ∧ s.liveEntry 83 1 2 = 1 ∧ s.gateStart 83 1 = 2500 ∧ 2500 < s.periodTicks ∧
      s.time.intoPeriod s.periodFrames * 1000 + twoCyclesPs 83 < s.gateStart 83 1 * 1280 ∧
      late.gateStart 83 1 * 1280 ≤ late.time.intoPeriod late.periodFrames * 1000 + twoCyclesPs 83) ∧
    ({} : State).gateCount 83 = 0 ∧
    (let r : BitVec 512 := BitVec.ofNat 512 (83 * 2 ^ 505 + 16 * 2 ^ 500 + 3 * 2 ^ 498 + 2 ^ 497 + 5 * 2 ^ 224 + 2 ^ 32)
     bits r.toNat 511 505 = 83 ∧ bits r.toNat 504 500 ≤ 16 ∧ bits r.toNat 496 480 = 0 ∧ bits r.toNat 31 0 = 0 ∧ bits r.toNat 95 32 ≠ 0) ∧
    84 ≤ bits (BitVec.ofNat 512 (84 * 2 ^ 505)).toNat 511 505 ∧ 16 < bits (BitVec.ofNat 512 (17 * 2 ^ 500)).toNat 504 500 ∧
    bits (0 : BitVec 512).toNat 95 32 = 0 := by decide +kernel

theorem witness_ManagementQueue :
    (let s0 := mgmtOn (portIs 63 { state := .up })
     let s := { s0 with mgmt := { txCount := 1 }, vers := { active := tableOf [(0x6000, 0, 7, 2 ^ 63 + 2 ^ 62 + 2 ^ 61), (0x6001, 0, 63, 1518 * 2 ^ 48)] } }
     s.obj 0x6040 8 0 = 1 ∧ s.linkUp = true ∧ s.integ.fenced = false ∧ s.mgmt.txFetched ≠ s.mgmt.txCount ∧
      bits txDesc.toNat 177 171 = 63 ∧ s.txRefusal txDesc.toNat (lldpFrame.take (bits txDesc.toNat 191 178)) = none) ∧
    (let o : TxOpen := ⟨4, 63, 9, none⟩
     let s : State := { portIs 63 { queues := [(5, [mgmtFrame])] } with mgmt := { txOpen := [o] }, time := { acc := 100000000 * 2 ^ 32 } }
     s.mgmt.txOpen.find? (fun o => ((s.port 63).queues.flatMap (fun q => (q.2.filter (fun f => decide (f.queuedAt + 100000000 ≤ s.ns))).filterMap
      Frame.serial)).contains o.serial) = some o) ∧
    ({} : State).obj 0x6040 8 0 = 0 ∧ 1 < (2 : BitVec 8).toNat := by decide +kernel

theorem test_runt_dropped :
    Tab.get 0 ((after (exec (.frameRx 83 [0] true 0) (portIs 83 { state := .up }))).port 83).stats 5 = 1 := by decide +kernel

theorem test_lldp_reaches_the_ring :
    (after (exec (.frameRx 83 lldpFrame true 0) (mgmtOn (portIs 83 { state := .up })))).host.writes.map (fun w => (w.address, w.bytes.length)) =
      [(0x10000, 124)] := by decide +kernel

/-! ### Memory -/

/-- The segment address of channel 47's first segment, and one with bad symbols, lost, or held. -/
def segment0 : Nat := (({} : State).segmentAddress 47 0).getD 0
def marked (m : SegMark) : State := { mem := { marks := [(segment0 / 256, m)] } }
def failedChannel : State := ({} : State).setChannel 47 { state := .failed }

/-- A write of the segment's last byte, held. -/
def partialWrite : MemWrite := { offset := 255, data := [7], poison := false, requester := 0, cls := 0, inst := none }
def heldMark (m : SegMark) : State :=
  (marked m).setChannel 47 { queue := [{ segment := 0, bytes := [(255, some 7)], poison := false, waiting := 1, merging := true }] }

theorem witness_SegmentAccesses :
    (({} : State).segmentAddress 47 (31 * 1048576 - 1)).isSome = true ∧ ({} : State).segmentAddress 47 (31 * 1048576) = none ∧
    (({} : State).channel 47).state ≠ .failed ∧ (({} : State).channel 47).held 0 = none ∧
    ({} : State).segmentAddress 47 0 = some segment0 ∧ Tab.get .good ({} : State).mem.marks ((segment0 + 64 * 3) / 256) = .good ∧
    ((marked .lost).segmentAddress 47 0 = some segment0 ∧ Tab.get .good (marked .lost).mem.marks ((segment0 + 64 * 3) / 256) = .lost) ∧
    (failedChannel.segmentAddress 47 0 = some segment0 ∧ (failedChannel.channel 47).state = .failed) ∧
    (partialWrite.inst = none ∧ partialWrite.data.length < 256 ∧ partialWrite.offset.toNat + partialWrite.data.length ≤ 256 ∧
      (List.replicate 256 (0 : Byte)).length = 256 ∧ ({} : State).mirrorOf segment0 = none) ∧
    ((((heldMark .good).channel 47).held 0).map (·.merging) = some true ∧ ((heldMark .good).channel 47).state ≠ .failed ∧
      (heldMark .good).segmentAddress 47 0 = some segment0 ∧ Tab.get .good (heldMark .good).mem.marks (segment0 / 256) = .good ∧
      (heldMark .good).mirrorOf segment0 = none) ∧
    ((((heldMark .lost).channel 47).held 0).map (·.merging) = some true ∧ (heldMark .lost).segmentAddress 47 0 = some segment0 ∧
      Tab.get .good (heldMark .lost).mem.marks (segment0 / 256) = .lost) := by decide +kernel

/-- A region of 64 MiB of Lantern L0, being cleared. -/
def clearing0 : State :=
  let r := 2 ^ 64
  { vers := { active := tableOf [(0x7011, 0, 0, 1), (0x7010, 0, 0, r + (2 ^ 128 - 1 - r) * 2 ^ 128)] }, mem := { regions := [(0, { phase := .clearing })] } }

/-- Far port 0 is up, with 256 MiB; context 5 of engine 0 waits for its first line. -/
def farWaits : State :=
  ({ mem := { farPorts := [(0, { state := .up, mapped := 1 })] } } : State).setEctx 0 5
    { runs := [{ step := ⟨0, 0, 0, 0⟩, serial := 1, fetching := [{ line := 0, kind := 1, source := 0x010000000000, bytes := 64 }] }] }

theorem witness_MemoryFailures :
    (({} : State).channel 0).state ≠ .failed ∧ (({} : State).channel 0).replays + 1 < 3 ∧
    (let s := ({} : State).setChannel 0 { replays := 2 }
     3 ≤ (s.channel 0).replays + 1 ∧ (s.channel 0).state ≠ .failed) ∧
    (let s := fun (m : SegMark) => (marked m).setObj 0x7031 0 0 24
     (∀ m ∈ [.good, .errors [0], .errors [0, 1, 2]], ((s m).segmentAddress 47 ((s m).channel 47).patrol = some segment0 ∧
      ((s m).channel 47).state = .inService ∧ (s m).obj 0x7031 0 0 ≠ 0 ∧ Tab.get .good (s m).mem.marks (segment0 / 256) = m)) ∧
      ([0, 1, 2] : List Nat).eraseDups.length ≤ 3 ∧ 2 ≤ ([0, 1, 2] : List Nat).eraseDups.length ∧ ([0] : List Nat).eraseDups.length ≤ 1) ∧
    (clearing0.regionServed 0 = some (2 ^ 64) ∧ (Tab.get {} clearing0.mem.regions 0).phase = .clearing) ∧
    (Tab.get {} ({} : State).mem.regions 4095).phase ≠ .clearing ∧
    (farWaits.farReads 0 (farWaits.ectx 0 5) = [(1, 0x010000000000, 0)] ∧ farWaits.elapsed 0 (farWaits.act 0x7042 0 0) = false ∧
      ({ farWaits with time := { ticks := 1562500 } } : State).elapsed 0 (farWaits.act 0x7042 0 0) = true) ∧
    (Tab.get {} farWaits.mem.farPorts 0).state = .up ∧ (Tab.get {} farWaits.mem.farPorts 1).state ≠ .up := by decide +kernel

theorem test_lost_reads_ones :
    (((after (exec (.segmentRead 47 0 3 0 0 false) (marked .lost))).channel 47).lastReply.map (fun r => (r.poison, r.status, r.data.head?))) =
      some (true, stDataLost, some 0xFF) := by decide +kernel

theorem test_partial_write_is_held :
    ((after (exec (.segmentWrite 47 0 partialWrite) {})).channel 47).queue.map (·.bytes) = [[(255, some 7)]] := by decide +kernel

theorem witness_DieToDie :
    (Tab.get {} ({} : State).d2d 2).dead = false ∧ (Tab.get {} ({} : State).d2d 2).lost = false ∧
    (let s : State := { d2d := [(2, { lost := true })], time := { ticks := 781250 } }
     (Tab.get {} s.d2d 2).lost = true ∧ (Tab.get {} s.d2d 2).dead = false ∧ s.elapsed (Tab.get {} s.d2d 2).lostAt 1000 = true ∧
      ({ s with time := { ticks := 781249 } } : State).elapsed (Tab.get {} s.d2d 2).lostAt 1000 = false) := by decide +kernel

/-- R293's worked example: the line at X = 0x0012_3456_78C0 with all 24 channels of L0 working lies in MC21, in segment 12,725,829. -/
theorem test_device_places :
    ({} : State).segmentAddress 21 12725829 = some 0x001234567800 ∧ devicePlace 0xC871D3C0 = .data 12725829 0xC0 ∧
    devicePlace 0xC871DF98 = .check 12725829 0 ∧ devicePlace 8184 = .reserved := by decide +kernel

/-- R294: data of zeros has check bytes of zeros; the generator over that field is x^4 + 15 x^3 + 54 x^2 + 120 x + 64. -/
theorem test_check_bytes :
    checkBytes (List.replicate 256 0) = List.replicate 8 0 ∧ outerGenerator = [15, 54, 120, 64] := by decide +kernel

/-! ### The fabric -/

/-- Region 0, the provider's: 64 MiB of Lantern L0. -/
def region0 : Nat := 2 ^ 64 + (2 ^ 128 - 1 - 2 ^ 64) * 2 ^ 128

/-- Module 9 with one peer, module 7 of incarnation 3, on fabric port 0, region 0 exported; timers of 1 µs. -/
def fabTable : Tab Nat :=
  tableOf [(0x8000, 0, 0, 9), (0x8011, 0, 0, 1), (0x8010, 0, 0, 7 * 2 ^ 112 + 2 ^ 92), (0x7011, 0, 0, 1), (0x7010, 0, 0, region0),
           (0x8050, 1, 0, 1), (0x8050, 2, 0, 1), (0x8050, 3, 0, 1), (0x8050, 4, 0, 1), (0x8051, 1, 0, 64)]
def fab (ticks : Nat) (x : Peer) : State :=
  { time := { ticks }, vers := { active := fabTable }, fabric := { peers := [(0, { x with remoteIncarnation := 3 })] }
    rw := tableOf [(0x8030, 0, 0, 2 ^ 63)], ports := [(64, { state := .up })] }

/-- The header of a packet of that peer to this module: kind, opcode, PSN, address, lines and the ACK and retry flags in `low`. -/
def packet (kind op psn address low : Nat) : BitVec 384 :=
  BitVec.ofNat 384 (2 ^ 380 + kind * 2 ^ 376 + op * 2 ^ 368 + 7 * 2 ^ 352 + 9 * 2 ^ 336 + 3 * 2 ^ 320 + psn * 2 ^ 272 + address * 2 ^ 160 +
    2 ^ 25 + low)

theorem valid_from (s : State) (p : BitVec 12) (h : Header) (kind : Nat)
    (g : h.version = 1 ∧ h.kind = kind ∧ h.dest = s.moduleId ∧ s.noWork = false ∧ s.peerOf h.source = some p ∧
      BitVec.ofNat 16 h.sourceInc = (s.peer p).remoteIncarnation ∧ (s.peer p).liveness ≠ .dead) : s.validFrom p h kind := g
theorem next_in_order (s : State) (p : BitVec 12) (h : Header)
    (g : h.destInc = s.fabric.incarnation.toNat ∧ h.ackValid = false ∧ ((s.peer p).stream h.cls).expect = h.psn ∧
      ((s.peer p).stream h.cls).bitmap = [] ∧ ((s.peer p).stream h.cls).notifies = [] ∧ ((s.peer p).stream h.cls).applied = []) :
    s.nextInOrder p h := g

/-- Every byte of the first line reads as it was written. -/
theorem plain_line : ∀ i, i < 64 → (fab 0 {}).plainByte (0 + i) := by
  intro i hi
  refine ⟨0, ?_⟩
  revert i
  decide +kernel

theorem witness_FabricRequests :
    (∀ op, op < 7 → 1 ≤ op → (fab 0 {}).validFrom 0 (Header.decode (packet 0 op 0 0 0)) 0) ∧
    (∀ op, op < 7 → 1 ≤ op → (fab 0 {}).nextInOrder 0 (Header.decode (packet 0 op 0 0 0))) ∧
    ((Header.decode 0).version ≠ 1 ∧ (Header.decode (packet 0 1 0 0 0 ^^^ 1#384 <<< 336)).dest ≠ (fab 0 {}).moduleId) ∧
    (fab 0 {}).exportedAt (Header.decode (packet 0 1 0 (2 ^ 26) 0)) = none ∧ (fab 0 {}).exportedAt (Header.decode (packet 0 3 0 (2 ^ 36) 0)) = none ∧
    ((fab 0 { streams := [(0, { expect := 5 })] }).peer 0).stream 0 = { expect := 5 } ∧ ({ expect := 5 } : Stream).seen 4 = true ∧
    (∀ op, op < 7 → 1 ≤ op → (fab 0 {}).exportedAt (Header.decode (packet 0 op 0 0 0)) = some 0) ∧
    (fab 0 {}).exportedAt (Header.decode (packet 0 2 0 (2 ^ 26 - 64) 0)) = some (2 ^ 26 - 64) ∧ (fab 0 {}).fabric.mirrorWaiting = [] ∧
    (Header.decode (packet 0 3 0 0 0)).retry = false ∧ (Header.decode (packet 0 3 0 0 1024)).retry = true ∧
    (∀ i, i < (([7] : List Byte).take (64 * (Header.decode (packet 0 2 0 0 0)).lines)).length → (fab 0 {}).plainByte (0 + i)) := by
  refine ⟨?_, ?_, ?_, ?_, ?_, ?_, ?_, ?_, ?_, ?_, ?_, ?_, ?_⟩
  · intro op h1 h2; apply valid_from; revert op; decide +kernel
  · intro op h1 h2; apply next_in_order; revert op; decide +kernel
  all_goals first | decide +kernel | exact fun i hi => plain_line i (Nat.lt_of_lt_of_le hi (by decide +kernel))

theorem test_fetch_add_wraps :
    Tab.readBytes (after (exec (.fetchAdd (packet 0 3 0 0 0 ||| BitVec.ofNat 384 (2 ^ 96)))
      { fab 0 {} with mem := { near := Tab.writeBytes [] 0 (List.replicate 8 0xFF) } })).mem.near 0 8 = List.replicate 8 0 := by decide +kernel

theorem test_bad_packets_only_counted :
    (after (exec (.fabricRead 0) (fab 0 {}))).fabric.stats = [(1, 1)] := by decide +kernel

/-- A READ toward that peer, of the operation port of context 5 on engine 0. -/
def readOp : FabricOp := { request := 4, opcode := 1, cls := 0, use := .port 0 5 1 0, issuedAt := 0, acked := true, sent := true, lines := 1 }

theorem witness_FabricAnswers :
    ((fab 0 {}).validFrom 0 (Header.decode (packet 2 0 0 0 512)) 2 ∧ (fab 0 {}).validFrom 0 (Header.decode (packet 3 0 0 0 0)) 3 ∧
      (fab 0 {}).validFrom 0 (Header.decode (packet 4 0 0 0 0)) 4 ∧
      (fab 0 { ops := [readOp] }).validFrom 0 (Header.decode (packet 1 1 0 0 0 ||| BitVec.ofNat 384 (4 * 2 ^ 224))) 1) ∧
    ((Header.decode (packet 2 0 0 0 512)).ackValid = true ∧ (Header.decode (packet 2 0 0 0 512)).operand1 = 0 ∧
      (Header.decode (packet 2 0 0 0 512)).operand2 = 0 ∧ ((fab 0 {}).peer 0).ops = [] ∧ (Header.decode (packet 3 0 0 0 0)).ackValid = false) ∧
    ((Header.decode (packet 1 1 0 0 0 ||| BitVec.ofNat 384 (4 * 2 ^ 224))).status = stDone ∧
      ((fab 0 { ops := [readOp] }).peer 0).answered (Header.decode (packet 1 1 0 0 0 ||| BitVec.ofNat 384 (4 * 2 ^ 224))) = some readOp ∧
      readOp.use = .port 0 5 1 0 ∧ (fab 0 {}).fabric.fences = [] ∧ (fab 0 {}).engines = []) := by
  refine ⟨⟨?_, ?_, ?_, ?_⟩, ?_, ?_⟩
  · apply valid_from; decide +kernel
  · apply valid_from; decide +kernel
  · apply valid_from; decide +kernel
  · apply valid_from; decide +kernel
  · decide +kernel
  · decide +kernel

/-- A packet of PSN 6 that waits for its acknowledgement. -/
def unacked : Peer := { streams := [(0, { unacked := [⟨6, 0, [], 0, 0⟩] })] }

/-- The FENCE record of context 5 is next, and that READ is open. -/
def fencing : State :=
  (fab 0 { ops := [readOp] }).setEctx 0 5 { runs := [{ step := ⟨0, 0, 0, 0⟩, serial := 1, records := [BitVec.ofNat 512 (7 * 2 ^ 504)] }] }

/-- It waits. -/
def fenced (ticks : Nat) : State :=
  { fab ticks {} with fabric := { fences := [{ engine := 0, context := 5, serial := 1, result := 0, issuedAt := 0, counted := [(0, 0)] }] } }

theorem witness_FabricTimersAndFences :
    ((((fab 0 unacked).peer 0).stream 0).unacked.find? (fun k => k.psn == 6) = some ⟨6, 0, [], 0, 0⟩ ∧
      (fab 781 unacked).elapsed 0 ((fab 0 {}).act 0x8050 1 0) = false ∧ (fab 782 unacked).elapsed 0 ((fab 0 {}).act 0x8050 1 0) = true ∧
      (fab 782 unacked).noWork = false ∧ (fab 782 unacked).choosePort 0 0 (some 0) = some 0) ∧
    (let s := fab 782 { ops := [readOp] }
     (s.peer 0).ops.find? (fun o => o.sent && o.acked && o.request == 4 && opReplies o.opcode.toNat &&
        s.elapsed o.issuedAt (s.act 0x8050 1 0)) = some readOp ∧ ((s.peer 0).stream readOp.cls).unacked.length < s.classWindow readOp.cls ∧
      s.choosePort 0 readOp.cls none = some 0 ∧
      (s.peer 0).ops.find? (fun o => o.request == 4 && opReplies o.opcode.toNat && s.elapsed o.issuedAt (s.act 0x8050 3 0)) = some readOp) ∧
    (peerSpray ((fab 0 {}).act 0x8010 0 0) ≠ 0 ∧ (fab 781 {}).elapsed ((fab 0 {}).peer 0).lastSent ((fab 0 {}).act 0x8050 2 0) = false ∧
      (fab 782 {}).elapsed ((fab 0 {}).peer 0).lastSent ((fab 0 {}).act 0x8050 2 0) = true ∧ (fab 782 {}).sprayPorts 0 ≠ [] ∧
      ((fab 0 {}).peer 0).liveness = .up ∧ (fab 3124 {}).elapsed 0 (4 * (fab 0 {}).act 0x8050 2 0) = false ∧
      (fab 3125 {}).elapsed 0 (4 * (fab 0 {}).act 0x8050 2 0) = true ∧ (fab 781 {}).elapsed 0 ((fab 0 {}).act 0x8050 3 0) = false ∧
      (fab 782 {}).elapsed 0 ((fab 0 {}).act 0x8050 3 0) = true ∧ ((fab 782 {}).peer 0).ops = [] ∧ (fab 782 {}).act 0x8041 0 0 = 0 ∧
      ∀ q ∈ (fab 782 {}).fabric.peers, ∀ t ∈ q.2.streams, t.2.applied = []) ∧
    (0 < ({ vers := { active := tableOf [(0x8041, 0, 0, 1)] } } : State).act 0x8041 0 0 ∧ ({} : State).act 0x8041 0 0 ≤ 0) ∧
    (((fencing.ectx 0 5).portRun.map (·.records)) = some [BitVec.ofNat 512 (7 * 2 ^ 504)] ∧ prOp (BitVec.ofNat 512 (7 * 2 ^ 504)) = opFence ∧
      fencing.engineStopped 0 = false ∧ fencing.fabric.fences = [] ∧ fencing.openOps 0 5 ≠ []) ∧
    (((fenced 781).fabric.fences.find? (fun f => f.engine == 0 && f.context == 5)).map (·.result) = some 0 ∧
      (fenced 781).elapsed 0 ((fenced 781).act 0x8050 4 0) = false ∧ (fenced 782).elapsed 0 ((fenced 782).act 0x8050 4 0) = true) := by
  decide +kernel

/-- The product whose chain sends its tile: the send table is buffer 6, with one slot at the peer's region 0 and its credit at address 0. -/
def sendHeader : Nat := (chainHeader ^^^ (0xFF * 2 ^ 444)) + 6 * 2 ^ 444 + 2 ^ 492
def sending (q : SendState) : State :=
  let s := programmed.updEngine 0 (fun x => { x with
    moorings := x.moorings ++ [(6, pairOf (moorWord 5 2 0xB 0 300 2 2 1))]
    scratch := Tab.writeBytes (Tab.writeBytes [] (64 * 256) (leBytes 64 sendHeader)) (64 * 300)
      (leBytes 64 0 ++ leBytes 32 (7 * 2 ^ 240 + 4096 * 2 ^ 32 + 1 * 2 ^ 24)) })
  let t := s.setEctx 0 5 { s.ectx 0 5 with runs := [{ chainRun with tilesDone := [pass0.key], sends := [(0, q)] }] }
  let v := setRec (setRec (setRec t.vers.active 0x8000 0 0 9) 0x8011 0 0 1) 0x8010 0 0 (7 * 2 ^ 112 + 2 ^ 92)
  let v2 := setRec (setRec v 0x7011 0 0 1) 0x7010 0 0 region0
  { t with
    fabric := (fab 0 {}).fabric, ports := (fab 0 {}).ports
    rw := tableOf [(0x8021, 0, 0, 1), (0x8020, 0, 0, 7 * 2 ^ 112 + 7 * 2 ^ 96 + 2 ^ 71)]
    vers := { t.vers with active := v2 } }

theorem witness_Sends :
    (let s := sending { live := true }
     let entry := (s.engine 0).sendEntry ((s.engine 0).part 5) chainWord.toNat 0
     let r : Run := { chainRun with tilesDone := [pass0.key], sends := [(0, { live := true })] }
     ((s.engine 0).sendNext 5 0).map (fun v => (v.1, v.2.1, v.2.2.key)) = some (r, { live := true }, pass0.key) ∧ s.writeAdmitted 0 5 = true ∧
      s.noWork = false ∧ s.engineStopped 0 = false ∧
      0 < min ((s.engine 0).tileLineCount ((s.engine 0).part 5) chainWord.toNat pass0 - 0) (s.lineRoom 0 5) ∧ r.poisonTiles = [] ∧
      s.pathOpen 0 2 (sdAddress entry) = true ∧
      (s.engine 0).firstBad ((s.engine 0).tileRanges ((s.engine 0).part 5) chainWord.toNat pass0) = none ∧
      s.granted (s.ctxSource 5) (sdAddress entry) false = true ∧ s.regionAllows 5 (sdCredit entry) 16 true = true ∧
      (s.sendCredit 0 5 entry).2.2 = (1, []) ∧ gaModule (sdAddress entry) ≠ s.moduleId ∧ s.livePeer (gaModule (sdAddress entry)) = some 0 ∧
      sdNotify entry = 0) ∧
    (let s := sending { live := true, active := true, issued := 64 }
     (((s.engine 0).sendRuns 5 0).find? (fun v => v.2.active && v.2.packets == 0)).map (·.2) = some { live := true, active := true, issued := 64 } ∧
      ((sending { live := true, active := true, issued := 1 }).engine 0).tileLineCount part0 chainWord.toNat pass0 ≤ 64 ∧
      1 < ((sending { live := true, active := true, issued := 1 }).engine 0).tileLineCount part0 chainWord.toNat pass0) ∧
    ((((sending { live := true, waiting := true }).engine 0).sendWaiting 5 0).map (·.2) = some { live := true, waiting := true } ∧
      ((sending { live := true, waiting := true }).sendCredit 0 5
        (((sending {}).engine 0).sendEntry (((sending {}).engine 0).part 5) chainWord.toNat 0)).2.2 = (1, []) ∧
      (let s := sending { live := true, waiting := true }
       (({ s with mem := { s.mem with near := Tab.writeBytes s.mem.near 8 [1] } }).sendCredit 0 5
        (((sending {}).engine 0).sendEntry (((sending {}).engine 0).part 5) chainWord.toNat 0)).2.2 = (0, [])) ∧
      ({ fab 1562499 {} with vers := {} }).elapsed 0 ((sending {}).act 0x4033 0 0) = false ∧
      ({ fab 1562500 {} with vers := {} }).elapsed 0 ((sending {}).act 0x4033 0 0) = true) := by
  decide +kernel

/-! ### Instances and the host link -/

/-- Instance 1023 in a state, and a flush read of it outstanding. -/
def instIs (x : Inst) : State := { running0 with insts := [(1023, x)] }
def flushing (life : Lifecycle) : State :=
  { instIs { life } with host := { phase := .up, reads := [(0, some ⟨.inst 1023, 0, 64, .flush (.inst 1023), 0⟩)] } }

theorem witness_InstanceLifecycle :
    (((instIs {}).inst 1023).life ≠ .resetting ∧ ((instIs {}).inst 1023).life ≠ .resetStalled) ∧
    ((instIs { life := .resetStalled, flushDone := true }).inst 1023).life = .resetStalled ∧
    ((instIs { life := .resetting, flushDone := true }).inst 1023).scrubsLeft = 0 ∧
    ((instIs { life := .resetting, flushDone := true }).inst 1023).flushDone = true ∧
    ((instIs { life := .active }).inst 1023).life = .active ∧ ((instIs {}).inst 1023).life ≠ .active ∧
    (let s := (instIs { life := .quiesced }).setObj 0x3021 0 1023 (2 ^ 52)
     (s.inst 1023).life = .quiesced ∧ ringEnabled (s.obj 0x3021 0 (1023 : InstanceId).toNat) = true) ∧
    ringEnabled ((instIs { life := .quiesced }).obj 0x3021 0 (1023 : InstanceId).toNat) = false ∧
    (((instIs { life := .quiescing, flushDone := true }).inst 1023).life = .quiescing ∧
      ((instIs { life := .quiescing, flushDone := true }).inst 1023).ring.slots = 0) ∧
    (((instIs { life := .quiescing, ring := { slots := 1 } }).inst 1023).ring.slots ≠ 0 ∧
      ((instIs { life := .quiescing, ring := { slots := 1 } }).inst 1023).importing = none) ∧
    ((flushing .resetting).findRead (.flush (.inst 1023)) = some (0, ⟨.inst 1023, 0, 64, .flush (.inst 1023), 0⟩) ∧
      ((flushing .resetting).inst 1023).importing = none ∧ (flushing .resetting).elapsed 0 100 = false ∧
      ({ flushing .resetting with time := { ticks := 78125 } } : State).elapsed 0 100 = true) ∧
    (instIs {}).importGood 1023 [] = false ∧
    ((instIs {}).importGood 1023 [2 ^ 440] = true ∧ ({ instIs {} with host := {} } : State).linkUp = false) := by decide +kernel

theorem test_reset_advances_generation :
    ((after (exec (.instanceReset 1023) (instIs { generation := 0xFFFF }))).inst 1023).generation = 0 := by decide +kernel

theorem witness_HostLinkAndResets :
    (running0.host.vfEnable = false ∧ running0.host.numVFs = 0 ∧ running0.host.numVFs ≠ 1 ∧
      ({ running0 with host := { vfEnable := true } } : State).host.vfEnable = true) ∧
    (running0.linkUp = true ∧ ({} : State).linkUp = false) ∧
    (let s : State := { running0 with host := { phase := .training } }
     s.start.running = true ∧ s.host.perst = false ∧ s.host.phase ≠ .inReset ∧ s.linkUp = false) ∧
    (({} : State).start.running = false ∧ ({ host := { perst := true } } : State).host.perst = true ∧ running0.host.perst = false) ∧
    Tab.get none running0.host.reads (16383 : BitVec 14).toNat = none ∧
    (Tab.get none (reading .radioConsumed).host.reads 0 = some ⟨.provider, 0, 64, .radioConsumed, 0⟩ ∧
      (reading .radioConsumed).elapsed 0 (readTimeoutUs (reading .radioConsumed).host.timeoutCode) = false ∧
      ({ reading .radioConsumed with time := { ticks := 7812500 } } : State).elapsed 0 (readTimeoutUs 0) = true) ∧
    (running0.ideBlocked = false ∧ 131071 < barSize .provider ∧ barMapped .provider 131071 = false ∧ barMapped .provider 7 = true ∧
      16383 < barSize (.inst 0) ∧ barMapped (.inst 0) 0x3007 = true ∧ barMapped (.inst 0) 0x3008 = false) ∧
    ((Tab.get {} running0.host.vectors (vectorKey .provider 63)).pending = false ∧
      (Tab.get {} ({ running0 with host := { phase := .up, vectors := [(63, { pending := true })] } } : State).host.vectors
        (vectorKey .provider 63)).pending = true) ∧
    (2 ^ 30 < dirtyPages ((2 ^ 30 + 1) * 2 ^ 33) ∧ bits 1 21 0 ≠ 0 ∧ dirtyHostBase (2048 * 2 ^ 192) % 4096 ≠ 0) ∧
    (let r := 2 ^ 63 + 2 ^ 22
     dirtyPages r ≤ 2 ^ 30 ∧ bits r 21 0 = 0 ∧ dirtyHostBase r % 4096 = 0 ∧ dirtyIova r % 4096 = 0 ∧ dirtyDeviceBase r % 4096 = 0 ∧
      dirtyEnabled (running0.obj 0x9030 0 15) = false ∧ dirtyEnabled r = true ∧
      dirtyEnabled ((running0.setObj 0x9030 0 15 r).obj 0x9030 0 (15 : BitVec 4).toNat) = true ∧
      (Tab.get {} running0.host.dirty 15).harvesting = false) ∧
    ((Tab.get {} running0.host.ide 4).secure = false ∧
      (Tab.get {} ({ host := { ide := [(4, { secure := true })] } } : State).host.ide 4).secure = true) ∧
    (let s : State := { running0 with host := { phase := .up, flit := true, ide := [(4, { keys := [(0, 1)] })] }, keeper := { doe := { session := .opened } } }
     s.linkUp = true ∧ s.host.flit = true ∧ s.keeper.doe.session = .opened ∧ (Tab.get {} s.host.ide 4).keys ≠ []) := by decide +kernel

theorem witness_noRingOwedReads : ∀ f, ((reading .radioConsumed).ring f).left = 0 := fun f => by cases f <;> rfl

theorem test_late_completion_dropped : (after (exec (.hostReadCompletion 16383 .good []) running0)).host.lateDropped = 1 := by decide +kernel

/-! ### The object dictionary and its orders -/

/-- The window, the control cores and the module serve the administrator. -/
theorem pf_served : running0.pfServed := ⟨rfl, rfl, rfl⟩

theorem ofLeBytes_leBytes (n x : Nat) : ofLeBytes (leBytes n x) = x % 256 ^ n := by
  induction n generalizing x with
  | zero => simp [leBytes, ofLeBytes, Nat.mod_one]
  | succ n ih =>
    have h := Nat.mod_mul (x := x) (a := 256) (b := 256 ^ n)
    rw [show (256 : Nat) ^ (n + 1) = 256 * 256 ^ n from Nat.pow_succ'.trans rfl, h]
    simp only [leBytes, ofLeBytes, ih, BitVec.toNat_ofNat]

theorem leBytes_length (n x : Nat) : (leBytes n x).length = n := by
  induction n generalizing x with
  | zero => rfl
  | succ n ih => simp [leBytes, ih]

theorem bits_above (a b m hi lo : Nat) (hb : b < 2 ^ m) (h : m ≤ lo) (hl : lo ≤ hi) :
    bits (a * 2 ^ m + b) hi lo = bits a (hi - m) (lo - m) := by
  obtain ⟨d, rfl⟩ := Nat.exists_eq_add_of_le h
  unfold bits
  rw [Nat.shiftRight_eq_div_pow, Nat.shiftRight_eq_div_pow, Nat.pow_add, ← Nat.div_div_eq_div_mul, Nat.mul_comm a,
    Nat.mul_add_div (Nat.two_pow_pos m), Nat.div_eq_of_lt hb, Nat.add_zero, show m + d - m = d by omega,
    show hi + 1 - (m + d) = hi - m + 1 - d by omega]

theorem bits_below (a b m hi lo : Nat) (h : hi < m) (hl : lo ≤ hi) : bits (a * 2 ^ m + b) hi lo = bits b hi lo := by
  have e : a * 2 ^ m = 2 ^ lo * (a * 2 ^ (m - (hi + 1)) * 2 ^ (hi + 1 - lo)) := by
    rw [show (2 : Nat) ^ m = 2 ^ lo * (2 ^ (hi + 1 - lo) * 2 ^ (m - (hi + 1))) by rw [← Nat.pow_add, ← Nat.pow_add]; congr 1; omega]
    simp only [Nat.mul_assoc, Nat.mul_comm, Nat.mul_left_comm]
  unfold bits
  rw [Nat.shiftRight_eq_div_pow, Nat.shiftRight_eq_div_pow, e, Nat.mul_add_div (Nat.two_pow_pos lo), Nat.add_comm, Nat.add_mul_mod_self_right]

/-- An EXPEL order with one signature, the first of its module's life, for the module of a serial number. -/
def orderHigh : Nat := 2 ^ 24 + 2 ^ 16 + 2 ^ 8
def orderFor (n : Nat) : Nat := (orderHigh * 2 ^ 128 + n) * 2 ^ 8032 + 2 ^ 7968

theorem order_low (n hi lo : Nat) (h : hi < 8032) (hl : lo ≤ hi) : bits (orderFor n) hi lo = bits (2 ^ 7968) hi lo :=
  bits_below _ _ _ _ _ h hl

theorem order_high (n hi lo : Nat) (hn : n < 2 ^ 128) (h : 8160 ≤ lo) (hl : lo ≤ hi) :
    bits (orderFor n) hi lo = bits orderHigh (hi - 8160) (lo - 8160) := by
  unfold orderFor
  rw [bits_above _ _ _ _ _ (by decide +kernel) (by omega) hl, bits_above _ _ _ _ _ hn (by omega) (by omega), Nat.sub_sub, Nat.sub_sub]

theorem order_serial (n : Nat) (hn : n < 2 ^ 128) : bits (orderFor n) 8159 8032 = n := by
  unfold orderFor
  rw [bits_above _ _ _ _ _ (by decide +kernel) (by omega) (by omega), show 8159 - 8032 = 127 by rfl, show 8032 - 8032 = 0 by rfl,
    bits_below _ _ _ _ _ (by omega) (by omega)]
  unfold bits
  rw [Nat.shiftRight_zero, Nat.mod_eq_of_lt hn]

/-- The module holds a key and a quorum of none. -/
def keyed : State := { running0 with integ := { managerKeys := [1] } }

theorem order_good : keyed.orderGood (orderFor Config.serialNumber.toNat) = true := by
  have hn : Config.serialNumber.toNat < 2 ^ 128 := Config.serialNumber.isLt
  simp only [State.orderGood, orderFormed, order_serial _ hn, Bool.and_eq_true, decide_eq_true_eq, beq_self_eq_true, and_true]
  simp (disch := omega) only [orVersion, orKind, orSignatures, orSequence, orKeyDigest, orSlot, order_low, order_high _ _ _ hn]
  refine ⟨⟨⟨⟨?_, ?_⟩, ?_⟩, ?_⟩, Nat.zero_le _⟩ <;> decide +kernel

theorem order_fits (n : Nat) (hn : n < 2 ^ 128) : orderFor n < 256 ^ 1024 := by
  have h : orderHigh * 2 ^ 128 + n < 2 ^ 159 := by unfold orderHigh; omega
  have g : (orderHigh * 2 ^ 128 + n) * 2 ^ 8032 + 2 ^ 7968 < 2 ^ 159 * 2 ^ 8032 + 2 ^ 159 * 2 ^ 8032 :=
    Nat.add_lt_add (Nat.mul_lt_mul_of_pos_right h (Nat.two_pow_pos _)) (by decide +kernel)
  exact Nat.lt_of_lt_of_le g (by decide +kernel)

/-- The order as its 1,024 bytes. -/
theorem an_order : ∃ order : List Byte, order.length = 1024 ∧ keyed.orderGood (ofLeBytes order) = true ∧ orKind (ofLeBytes order) = 1 := by
  have hn : Config.serialNumber.toNat < 2 ^ 128 := Config.serialNumber.isLt
  have hr := Nat.mod_eq_of_lt (order_fits _ hn)
  refine ⟨leBytes 1024 (orderFor Config.serialNumber.toNat), leBytes_length _ _, ?_⟩
  rw [ofLeBytes_leBytes, hr]
  refine ⟨order_good, ?_⟩
  rw [orKind, order_high _ _ _ hn (by omega) (by omega)]
  decide +kernel

/-- A request block of the physical function. -/
def block (op copy index sub offset length : Nat) : BitVec 512 :=
  BitVec.ofNat 512 (op * 2 ^ 504 + copy * 2 ^ 502 + index * 2 ^ 480 + sub * 2 ^ 472 + offset * 2 ^ 416 + length * 2 ^ 384)

theorem witness_HostOrders :
    running0.pfServed ∧ ((leBytes 1024 (2 ^ 8176)).length = 1024 ∧ orKind (ofLeBytes (leBytes 1024 (2 ^ 8176))) = 1 ∧
      orKind (ofLeBytes (leBytes 1024 (2 ^ 8177))) = 2 ∧ orKind (ofLeBytes (leBytes 1024 (3 * 2 ^ 8176))) = 3) ∧
    ((16383 * 4096 : BitVec 32).toNat % 4096 = 0 ∧ (16383 * 4096 : BitVec 32).toNat + 4096 ≤ 16384 * 4096) := by
  refine ⟨pf_served, ?_, by decide +kernel⟩
  simp only [leBytes_length, ofLeBytes_leBytes]
  decide +kernel

/-- Versions in each phase, with the numbers of a running machine. -/
def versIs (v : Versions) : State :=
  { running0 with vers := { v with stagingNo := 2, stagingNoC := ~~~2, activeNo := 1, activeNoC := ~~~1 } }

theorem witness_VersionOrders :
    ((versIs {}).vers.stagingNoC = ~~~(versIs {}).vers.stagingNo ∧ (versIs {}).vers.stagingNo = 2 ∧ (versIs {}).vers.stagingNo ≠ 3 ∧
      (versIs {}).vers.phase = .confirmed ∧ (versIs {}).vers.due = none ∧ (versIs {}).versionFault (versIs {}).vers.staging = none) ∧
    ((versIs { staging := setRec [] 0x3001 0 0 1 }).versionFault (versIs { staging := setRec [] 0x3001 0 0 1 }).vers.staging).isSome = true ∧
    (versIs { phase := .pending }).vers.phase ≠ .confirmed ∧ (versIs { due := some (.revert, 0) }).vers.due ≠ none ∧
    ((versIs {}).vers.activeNoC = ~~~(versIs {}).vers.activeNo ∧ (versIs {}).vers.activeNo = 1 ∧ (versIs {}).vers.previousValid = false) ∧
    ((versIs { previousValid := true }).vers.phase ≠ .pending ∧ (versIs { previousValid := true }).vers.previousValid = true ∧
      (versIs { previousValid := true }).vers.previousRejected = false ∧
      (versIs { previousValid := true, previousRejected := true }).vers.previousRejected = true) ∧
    ((versIs { phase := .unconfirmed, deadline := 1 }).deadlinePassed = false ∧
      (versIs { phase := .unconfirmed, deadline := 1 }).deadlineLeft running0.chr.periodCount ≠ none ∧
      (versIs { phase := .unconfirmed, deadline := 1 }).vers.slotOrder ≠ none ∧ (versIs { phase := .unconfirmed }).deadlinePassed = true ∧
      (versIs { phase := .unconfirmed, deadline := 0x80000000 }).deadlineLeft running0.chr.periodCount = none) := by
  decide +kernel

/-- Slot 0 runs; the slots' states by their codes: CONFIRMED 1, TRIAL 2. -/
def slotsAre (a b : ImageSlot) : State := { running0 with start := { running := true, bootedSlot := 0, images := [(0, a), (1, b)] } }

theorem witness_ModuleOrders :
    running0.start.resetDue = none ∧ (((slotsAre {} {}).start.image 0).stateCode ≠ 2 ∧ ((slotsAre {} {}).start.image 1).stateCode ≠ 2) ∧
    ((slotsAre {} { state := 2 }).start.image 1).stateCode = 2 ∧
    (((slotsAre {} {}).start.image (slotsAre {} {}).otherSlot).written = false ∧
      ((slotsAre {} { written := true }).start.image (slotsAre {} {}).otherSlot).stateCode = 0 ∧
      ((slotsAre {} { written := true }).start.image (slotsAre {} {}).otherSlot).written = true) ∧
    ((slotsAre { state := 2 } {}).start.bootedSlot.toNat = 0 ∧ ((slotsAre { state := 2 } {}).start.image 0).stateCode = 2 ∧
      (slotsAre { state := 2 } {}).start.recovery = false ∧ ((slotsAre { state := 1 } {}).start.image 0).stateCode = 1 ∧
      fuseCounter (slotsAre { state := 1 } {}).start.fuses < ihSecurityVersion ({ content := [(1018, 5)] } : ImageSlot).header ∧
      ihSecurityVersion ({ content := [(1018, 0)] } : ImageSlot).header ≤ fuseCounter 1) ∧
    ((List.replicate 4096 (0 : Byte)).length % 4096 = 0 ∧ 16383 * 4096 + 4096 ≤ 16384 * 4096) ∧
    (({} : State).start.integratorLocked = false ∧ ({ start := { integratorLocked := true } } : State).start.integratorLocked = true) ∧
    ((∃ order : List Byte, order.length = 1024 ∧ keyed.orderGood (ofLeBytes order) = true ∧ orKind (ofLeBytes order) = 1) ∧
      keyed.orderGood 0 = false ∧ keyed.integ.managerKeys ≠ []) ∧
    (let s := (running0.setObj 0xA061 1 0 1).setObj 0xA061 2 0 1
     s.integ.managerKeys = [] ∧ quorumFits s.stagedQuorum s.stagedKeys.length = true) ∧
    ((running0.setCore 47 { health := .quarantined }).core 47).health = .quarantined ∧
    (controlGood 0 (2 ^ 256) = false ∨ controlGood 0 0 = true) := by
  refine ⟨by decide +kernel, by decide +kernel, by decide +kernel, by decide +kernel, by decide +kernel, by decide +kernel, by decide +kernel,
    ⟨an_order, by decide +kernel, by decide +kernel⟩, by decide +kernel, by decide +kernel, by decide +kernel⟩

theorem witness_DictionaryRequests :
    (running0.pfServed ∧ rqOpcode (block 1 0 0 0 0 0).toNat = 1 ∧ rqOpcode (block 2 0 0 0 0 0).toNat = 2 ∧
      bits (block 1 0 0 0 0 0 ||| 1).toNat 319 0 ≠ 0 ∧ blockFault .pf (block 1 0 0 0 0 0).toNat = rsNone ∧
      blockFault .pf (block 2 0 0 0 0 0).toNat = rsNone ∧ findObject 0 0 = none) ∧
    (let s : State := { running0 with host := { phase := .up, hostReady := true, vfEnable := true, numVFs := 1024 } }
     s.reaches (.vf 1023) = true ∧ s.serving = true ∧ s.start.recovery = false ∧ blockFault (.vf 1023) (block 1 0 0x3000 0 0 0).toNat = rsNone ∧
      blockFault (.vf 1023) (block 2 0 0x3000 0 0 0).toNat = rsNone ∧ (findObject 0x3000 0).any (fun o => o.who == .admin) = true ∧
      (s.inst 1023).life ≠ .resetting ∧ (s.inst 1023).life ≠ .resetStalled) ∧
    ((findObject 0x1000 2).any (fun o => o.cls != .wo && o.index != 0x9040 && readFits o (running0.objectSize none o 2 0) 0 8) = true ∧
      blockFault .pf (block 1 0 0x1000 2 0 8).toNat = rsNone ∧ rqCopy (block 1 0 0x1000 2 0 8).toNat = 0 ∧
      rqIndirect (block 1 0 0x1000 2 0 8).toNat = false) ∧
    (let r := (block 2 0 0x9050 0 0 1).toNat + 2 ^ 501
     blockFault .pf r = rsNone ∧ rqIndirect r = true ∧ rqLength r ≠ 0 ∧ rqOpcode r = 2 ∧
      (findObject (rqIndex r) (rqSub r)).any (fun o => running0.accessFault .pf r o == rsNone) = true) ∧
    (let r := (block 2 0 0x9050 0 0 1).toNat
     rqCopy r = 0 ∧ rqIndirect r = false ∧ blockFault .pf r = rsNone ∧ rqIndex r = 0x9050 ∧ rqSub r = 0 ∧ rqOffset r = 0 ∧ rqLength r = 1) ∧
    ((running0.inst (BitVec.ofNat 10 (running0.obj 0x9040 1 0))).life ≠ .quiesced ∧
      (({ running0 with insts := [(0, { life := .quiesced })] } : State).inst (BitVec.ofNat 10 (running0.obj 0x9040 1 0))).life = .quiesced) := by
  refine ⟨⟨pf_served, ?_⟩, ?_, ?_, ?_, ?_, ?_⟩ <;> decide +kernel

theorem witness_RefusedWhilePending :
    ((versIs { phase := .pending }).vers.phase = .pending ∧ rqOpcode (block 2 1 0x3000 0 0 4).toNat = 2 ∧ rqCopy (block 2 1 0x3000 0 0 4).toNat = 1 ∧
      blockFault .pf (block 2 1 0x3000 0 0 4).toNat = rsNone ∧
      (findObject 0x3000 0).any (fun o => o.cls == .stage && o.admits .pf) = true) ∧
    (versIs { phase := .pending }).pfServed ∧ (versIs { phase := .unconfirmed }).vers.phase = .unconfirmed := by
  refine ⟨by decide +kernel, ⟨by decide +kernel, by decide +kernel, by decide +kernel⟩, rfl⟩

/-! ### The keeper line and attestation -/

/-- The line is up: address number 1, of a prefix of no bits, port 6666, a neighbour, and session 3 open under the identity 7. -/
def neighbour0 : BitVec 128 := 0xFE80#128 <<< 112 ||| 1#128
def keeping (x : Session) : State :=
  { running0 with keeper := { phase := .up, inForce := tableOf [(0xE010, 0, 0, 1), (0xE012, 0, 0, 6666)], neighbours := [(neighbour0, 2)]
                              sessions := [(3, x)] } }
def session3 : Session := { phase := .opened, spdmId := 7, anyRequest := true, lastSequence := 5 }

/-- Every address of the port has been found duplicated. -/
def homeless : State :=
  { running0 with keeper := { phase := .up, duplicate := [linkLocal] } }

theorem own_address : addressOf 1 ∈ (keeping session3).ownAddresses := by
  have h : (keeping session3).keeperObject 0xE010 = 1 := by decide +kernel
  have h2 : (keeping session3).keeper.duplicate = [] := rfl
  simp [State.ownAddresses, h, h2]

theorem no_address (d : BitVec 128) : d ∉ homeless.ownAddresses := by
  have h : homeless.keeperObject 0xE010 = 0 := by decide +kernel
  have h2 : homeless.keeper.duplicate = [linkLocal] := rfl
  simp [State.ownAddresses, h, h2]

/-- A Keeper frame that carries a secured message of four bytes, the session's identity. -/
def securedFrame : List Byte := [0x11, 0x00, 0x04] ++ List.replicate 13 0 ++ [7, 0, 0, 0]

theorem witness_KeeperRequests :
    (running0.start.running = true ∧ running0.keeper.phase ≠ .up ∧ ({} : State).start.running = false) ∧
    ((keeping session3).keeper.phase = .up ∧ (keeping session3).keeperServes = true ∧ (6666 : BitVec 16).toNat = (keeping session3).keeperObject 0xE012 ∧
      (6667 : BitVec 16).toNat ≠ (keeping session3).keeperObject 0xE012 ∧ addressOf 1 ∈ (keeping session3).ownAddresses) ∧
    (16 ≤ securedFrame.length ∧ bits (ofBeBytes (securedFrame.take 16)) 127 124 = 1 ∧
      keeperHeaderGood (ofBeBytes (securedFrame.take 16)) (securedFrame.length - 16) = true ∧
      bits (ofBeBytes (securedFrame.take 16)) 123 120 = 1 ∧
      (keeping session3).sessionNamed (ofLeBytes ((securedFrame.drop 16).take 4)) = some 3) ∧
    ((keeping session3).nextHop neighbour0 = some neighbour0 ∧ (neighbour0, 2#48) ∈ (keeping session3).keeper.neighbours ∧ neighbour0 ≠ 0 ∧
      (keeping session3).keeper.waiting = []) ∧
    ((∀ d, d ∉ homeless.ownAddresses) ∧ homeless.keeper.phase = .up ∧ homeless.keeperServes = true) ∧
    (({ keeping session3 with time := { ticks := 46875000000 } } : State).session 3 = session3 ∧
      session3.lastValid + session3.idleLimit.toNat * 781250000 = 46875000000 ∧ session3.phase ≠ .closed) ∧
    ((keeping session3).reaches (.keeper 3) = true ∧ (keeping session3).serving = true ∧ ((keeping session3).session 3).anyRequest = true ∧
      BitVec.ofNat 16 (rqSequence (5 * 2 ^ 448)) = session3.lastSequence ∧ BitVec.ofNat 16 (rqSequence (4 * 2 ^ 448)) ≠ session3.lastSequence + 1 ∧
      BitVec.ofNat 16 (rqSequence (6 * 2 ^ 448)) = session3.lastSequence + 1 ∧ (keeping session3).start.recovery = false ∧
      blockFault (.keeper 3) (2 ^ 504 + 6 * 2 ^ 448) = rsNone ∧ findObject (rqIndex (2 ^ 504)) (rqSub (2 ^ 504)) = none) := by
  refine ⟨by decide +kernel, ⟨by decide +kernel, by decide +kernel, by decide +kernel, by decide +kernel, own_address⟩, by decide +kernel,
    by decide +kernel, ⟨no_address, by decide +kernel, by decide +kernel⟩, by decide +kernel, by decide +kernel⟩

theorem witness_Attestation :
    (running0.linkUp = true ∧ running0.serving = true ∧ running0.keeper.doe.version = false) ∧
    (({ running0 with keeper := { doe := { algorithms := true } } } : State).keeper.doe.algorithms = true ∧
      ({ running0 with keeper := { doe := { algorithms := true } } } : State).keeper.doe.session = .closed ∧
      ({ running0 with keeper := { doe := { algorithms := true, session := .opened } } } : State).keeper.doe.session ≠ .closed) ∧
    ((keeping { phase := .exchanged }).keeperUp = true ∧ (keeping { phase := .exchanged }).keeperServes = true ∧
      ((keeping { phase := .exchanged }).session 3).phase = .exchanged) ∧ ({} : State).linkUp = false := by decide +kernel

theorem test_resent_request_not_served :
    Tab.get 0 (after (exec (.securedRequest 3 (BitVec.ofNat 512 (5 * 2 ^ 448)) [] true) (keeping session3))).keeper.stats 5 = 1 := by decide +kernel

/-! ### Integrity, power and temperature -/

/-- An ERROR record is held at a time, with the ring enabled or not. -/
def record0 : EventRecord :=
  { time := 0, code := 0x0103, unit := 0, status := 0, severity := 2, context := none, instanceId := none, repeats := 0, temperature := 0,
    voltage := 0, load := 0, detail := 0, raisedAt := 0 }
def holding (ticks enable written : Nat) : State :=
  { running0 with time := { ticks }, integ := { holding := [record0], ringWritten := BitVec.ofNat 64 written }
                  rw := tableOf [(0xA010, 4, 0, enable)] }

theorem witness_LogWrites :
    (({} : State).integ.holding[(0 : BitVec 16).toNat]? = none ∧ (holding 781249 0 0).integ.holding[(0 : BitVec 16).toNat]? = some record0 ∧
      (holding 781249 0 0).time.ticks < record0.raisedAt + 781250 ∧ record0.raisedAt + 781250 ≤ (holding 781250 0 0).time.ticks) ∧
    ((holding 781250 0 0).obj 0xA010 4 0 ≠ 1 ∧ (holding 781250 1 0).obj 0xA010 4 0 = 1 ∧
      ((holding 781250 1 0).integ.ringWritten - (holding 781250 1 0).integ.ringConsumed).toNat < 2 ^ (holding 781250 1 0).obj 0xA010 2 0 ∧
      2 ^ (holding 781250 1 (2 ^ 40)).obj 0xA010 2 0 ≤ ((holding 781250 1 (2 ^ 40)).integ.ringWritten - (holding 781250 1 (2 ^ 40)).integ.ringConsumed).toNat) := by
  decide +kernel

theorem test_event_counted_in_ring : (after (exec (.eventRecordWrite 0) (holding 781250 1 0))).integ.ringWritten = 1 := by decide +kernel

/-- A second has passed since the last decay, and every threshold is 1 or more. -/
def decaying : State :=
  { running0 with time := { ticks := 781250000 }
                  rw := tableOf ((List.range 16).map (fun k => (0xA004, 0, k, 1))) }

/-- The increment's pairs are both broken. -/
def brokenTime : State := { ({} : State) with time := { incActiveC := 0, incPrevC := 0 } }

theorem witness_HealthAndSweep :
    ((0 : Nat) < ({} : State).integ.decayTicks + 781250000 ∧ decaying.integ.decayTicks + 781250000 ≤ decaying.time.ticks ∧
      (∀ q ∈ decaying.integ.health, q.2.flagged = false ∧ q.2.own = false) ∧
      ∀ k, k < 16 → (decayed (Tab.get {} decaying.integ.health k).score (decayMultiplier (decaying.obj 0xA002 0 0))).toNat <
        decaying.obj 0xA004 0 k * 65536) ∧
    (({} : State).time.increment.2 = 0 ∧ brokenTime.time.increment.2 = 2 ∧ brokenTime.chr.islands = [] ∧ brokenTime.engines = [] ∧
      (∀ n, (Tab.get {} brokenTime.insts n).generationC = ~~~(Tab.get {} brokenTime.insts n).generation) ∧
      brokenTime.act 0x7011 0 0 = 0 ∧ brokenTime.integ.ledgers = [] ∧ brokenTime.vers.activeNoC = ~~~brokenTime.vers.activeNo ∧
      brokenTime.vers.stagingNoC = ~~~brokenTime.vers.stagingNo ∧ brokenTime.vers.previousNoC = ~~~brokenTime.vers.previousNo) :=
  ⟨by decide +kernel, by decide +kernel, by decide +kernel, rfl, rfl, fun _ => (by decide +kernel : (0xFFFF : BitVec 16) = ~~~0), by decide +kernel, rfl, by decide +kernel,
    by decide +kernel, by decide +kernel⟩

/-- A SERVICE window is open on engine 1; the next segment's number is given. -/
def testing (at' : Nat) : State :=
  let l := goodEntry 1 (windowWord 2000000 1000000 0xFFE 1 2) 1000000 100000
  { running0 with chr := { islands := [(1, { list := [l], current := some l, lastWindow := some 1 })], selfTests := [(2, at')] } }

theorem witness_SelfTestAndHeartbeat :
    (({} : State).openWindow (engineUnit 0) = none ∧ ((testing 0).openWindow (engineUnit 1)).any (fun l => winOwner l.win == ownerService &&
        l.fits 1024 0 && decide (arraysOf (winEngines l.win) = [(1, false), (1, true)])) = true ∧
      (testing 0).nextSegment [(1, false), (1, true)] 0 3 = some (1, false, 0) ∧
      (testing 15).nextSegment [(1, false), (1, true)] 15 3 = some (1, true, 15) ∧ (testing 0).arbiterWaits 1 = false ∧
      (testing 0).engineStopped 1 = false ∧ (testing 0).mayStart = true ∧ (((testing 0).engine 1).array false).flight = [] ∧
      (((testing 0).engine 1).array false).freeAt ≤ 0 ∧ (((testing 0).engine 1).array true).sparedRow = 0xFF ∧
      (((testing 0).engine 1).array true).testRows = []) ∧
    (running0.start.running = true ∧ running0.integ.fenced = false ∧ ({} : State).start.running = false) := by decide +kernel

theorem test_first_faulty_row_takes_the_spare :
    (((after (exec (.selfTestSegment 1 true (some 3) 0) (testing 15))).engine 1).array true).sparedRow = 3 := by decide +kernel

theorem witness_PowerAndTemperature :
    (({} : State).start.running = false ∧ running0.start.running = true ∧ running0.power.rails = [] ∧ running0.power.tripped 7 = false ∧
      ({ power := { sensors := (List.range 59).map (fun k => (k, { trip := true })) } } : State).power.tripped 7 = true) ∧
    (({} : State).power.overFor < 10000 ∧ (10000 ≤ ({ power := { overFor := 10000 } } : State).power.overFor ∧
      ({ power := { overFor := 10000 } } : State).power.overRaised = false)) ∧
    (({} : State).sensing = false ∧ running0.sensing = true ∧ (29439 : BitVec 16).toInt < 29440 ∧ 29440 ≤ (29440 : BitVec 16).toInt ∧
      (List.replicate 59 (29440 : BitVec 16))[58]? = some 29440) ∧
    ((Tab.get ({} : Sensor) ({} : State).power.sensors 58).tripSamples < 1000 ∧
      1000 ≤ (Tab.get ({} : Sensor) ({ power := { sensors := [(58, { tripSamples := 1000 })] } } : State).power.sensors 58).tripSamples) := by
  decide +kernel

theorem test_power_sample_sums :
    (after (exec (.powerSample (List.replicate 10 (1000, 3))) running0)).power.p10 = 30000 := by decide +kernel

/-! ### Reset, start-up and boundary scan -/

/-- The rails are up; a reset is due. -/
def dueReset (ticks : Nat) (whole : Bool) : State :=
  { time := { ticks }, start := { powered := true, running := true, resetDue := some (whole, 5) } }

theorem witness_ResetsBegin :
    (({} : State).start.powered = false ∧ (dueReset 4 true).start.powered = true ∧ (dueReset 4 true).start.modRst = false) ∧
    (({} : State).start.resetDue = none ∧ (dueReset 4 true).start.resetDue = some (true, 5) ∧ (dueReset 4 true).time.ticks < 5 ∧
      5 ≤ (dueReset 5 true).time.ticks ∧ (dueReset 5 false).start.resetDue = some (false, 5)) := by decide +kernel

theorem witness_ResetReleased :
    ((dueReset 0 true).start.powered = true ∧ (dueReset 0 true).start.modRst = false ∧
      ({ start := { powered := true, modRst := true } } : State).start.modRst = true ∧
      ({ start := { thermalBefore := true } } : State).start.powered = false) ∧
    (((({} : State).start.image 0).stateCode ≠ 1 ∧ (({} : State).start.image 0).stateCode ≠ 2) ∧
      ((slotsAre { state := 1 } { state := 2, attempts := 2 }).start.image 1).stateCode = 2 ∧
      ((slotsAre { state := 1 } { state := 2, attempts := 2 }).start.image 1).attempts = 2 ∧
      ((slotsAre { state := 1 } { state := 2, attempts := 2 }).start.image 0).stateCode = 1 ∧
      ((slotsAre { state := 1 } { state := 2, attempts := 1 }).start.image 1).attempts ≠ 2 ∧
      ((slotsAre { state := 1 } { state := 1 }).start.image 1).stateCode = 1) := by decide +kernel

theorem test_trial_is_tried_first : (slotsAre { state := 1 } { state := 2 }).bootOrder = [1, 0] := by decide +kernel

theorem witness_TestPort :
    ((List.replicate 3312 true).length = 3312 ∧ ({ start := { powered := true } } : State).start.powered = true ∧
      ({ start := { powered := true } } : State).start.testEn = false ∧ ({ start := { powered := true, testEn := true } } : State).start.testEn = true ∧
      ({} : State).start.powered = false) :=
  ⟨List.length_replicate, rfl, rfl, rfl, rfl⟩

theorem witness_IdcodeReads : ({ start := { powered := true } } : State).start.powered = true := rfl

theorem test_idcode_low_bits :
    (after (exec .idcode { start := { powered := true } })).tap.out.take 8 = [true, true, true, false, false, true, true, true] := by decide +kernel

/-- R459's example: FH3 in the 2×200 division with LinkEnable 0x02 carries FH3.1 on its lanes 2 and 3, and no other lane is used. -/
theorem test_lanes_of_a_division :
    (let s : State := { vers := { active := tableOf [(0x6000, 0, 3, 2 ^ 62 + 2 ^ 55)] } }
     ∀ l : Fin 8, s.laneServes 3 l = if l = 2 ∨ l = 3 then some 25 else none) := by decide +kernel

/-! ### Ill-formed commands, one for each check of Instr.wf -/

/-- A word of no opcode of its row: a stage's of 0, a vector instruction's and a signal core's of all ones. -/
theorem wf_refuses_opcodes :
    (∀ row ∈ [Instr.scale, .bias, .colscale, .residual, .act, .gatepair, .norm, .softmax, .online, .merge, .convert, .quant],
      (row 0 0).wf = false) ∧
    (∀ row ∈ [Instr.vecAdd, .vecSub, .vecMul, .fma, .max, .min, .abs, .vecNeg, .mov, .sel, .adds, .muls, .ceq, .cne, .clt, .cle, .cgt, .cge, .sfu,
        .vecRsum, .rmax, .vecBcast, .rnd, .qnt, .cvti, .ldv, .stv, .sadd, .smul, .smov, .sfrom], (row 0 (~~~0)).wf = false) ∧
    (∀ row ∈ [Instr.cmul, .cmac, .cmulj, .cmacj, .cmsu, .csq, .accrd, .accz, .accld, .arsum, .ld, .st, .ld2, .setp, .addp, .setm, .movps, .scAdd,
        .addi, .scSub, .scAnd, .scOr, .scXor, .shl, .shr, .sar, .scMul, .cmp, .movi, .conj, .scNeg, .shift, .scBcast, .rot, .scRsum, .zero, .addv,
        .branch, .call, .ret, .loop, .rep, .scEnd, .eret, .scBreak, .scNop, .mfc, .mtc, .macld], (row 0 (~~~0)).wf = false) := by decide +kernel

/-- Sizes and values outside what the rules give them. -/
theorem wf_refuses_sizes :
    (Instr.planReadComplete 0 .good 0 (List.replicate 129 0)).wf = false ∧
    (Instr.ldpcDecode 0 { block0 with z := 385 } [] 0).wf = false ∧ (Instr.ldpcEncode 0 { block0 with z := 1 } 0).wf = false ∧
    (Instr.segmentWrite 0 0 { partialWrite with data := [1, 2] }).wf = false ∧ (Instr.fabricWrite 0 [1]).wf = false ∧
    (Instr.replyRx 0 (List.replicate 4160 0)).wf = false ∧ (Instr.dictionaryRead .pf (block 2 0 0 0 0 0) .good).wf = false ∧
    (Instr.dictionaryWrite .pf (block 1 0 0 0 0 0) [] .good true).wf = false ∧ (Instr.stageReset .pf 0).wf = false ∧
    (Instr.securedRequest 0 0 [] true).wf = false ∧ (Instr.managerKeysApply .pf 2 true).wf = false ∧
    (Instr.imageWrite .pf 1 []).wf = false ∧ (Instr.powerSample []).wf = false ∧ (Instr.temperatureSample []).wf = false ∧
    (Instr.snapshotNow .pf 0).wf = false ∧ (∀ row ∈ [Instr.extest, .samplePreload, .extestPulse, .extestTrain], (row [] []).wf = false) := by
  decide +kernel

/-- Data of more bytes than a signal core's memory or a frame holds. -/
theorem wf_refuses_lengths (xs : List Byte) (h : 65536 < xs.length) :
    (Instr.jobInputDma 0 job0.request xs [] false).wf = false ∧ (Instr.frameRx 0 xs true 0).wf = false ∧
    (Instr.mgmtTxDescriptor 0 xs).wf = false :=
  ⟨decide_eq_false (fun g => by omega), decide_eq_false (by omega), decide_eq_false (by omega)⟩

theorem test_long_data : 65536 < (List.replicate 65537 (0 : Byte)).length := by rw [List.length_replicate]; decide

/-- A start-up report that names no far port. -/
theorem wf_refuses_reports (r : StartupReport) (h : r.farCapacity = []) :
    (Instr.modRstNRelease r).wf = false ∧ (Instr.resetBegin r).wf = false := by
  have g : r.wf = false := by simp [StartupReport.wf, h]
  exact ⟨g, g⟩

theorem wf_accepts : (Instr.cmul 0 0).wf = true ∧ (Instr.vecAdd 0 0).wf = true ∧ (Instr.scale 0 (BitVec.ofNat 32 (2 ^ 26))).wf = true := by
  decide +kernel

/-- No row of the table has bits. -/
theorem test_no_row_has_bits : decodeTableWord 32 0 = none := rfl

end Sys2Proof.Tests
end

section
/-!
SUPPORT. The time base on one write of TimeIncrement and on the ticks that follow it (R47, R50, R51, R55).
-/

namespace Sys2Proof.Machine

/-! ### Complement pairs (R403) -/

/-- A word stored beside its complement is a good pair. -/
@[simp] theorem pairGood_complement (v : W64) : pairGood 64 v.toNat (~~~v).toNat = true := by
  have hv : v.toNat < 2 ^ 64 := v.isLt
  simp only [pairGood, compl, BitVec.toNat_not, beq_iff_eq]
  omega

/-! ### One tick (R47) -/

/-- Below the overflow of Seconds the increment is added to the whole time, whether or not the accumulator wraps. -/
theorem TimeBase.advance_units (t : TimeBase) (inc : Nat) (h : t.units + inc < 2 ^ 48 * secondUnits) :
    (t.advance inc).units = t.units + inc := by
  unfold TimeBase.advance
  split
  · simp only [TimeBase.units]; omega
  · have one : (1 : BitVec 48).toNat = 1 := rfl
    simp only [TimeBase.units, secondUnits, BitVec.toNat_add, one] at *
    omega

/-- The PPS output follows the time and does not move it. -/
@[simp] theorem TimeBase.ppsTick_units (t : TimeBase) (width inc : Nat) (wrapped : Bool) :
    (t.ppsTick width inc wrapped).units = t.units := by
  unfold TimeBase.ppsTick
  split
  · rfl
  · split <;> rfl

/-- The counters of a tick do not move the time. -/
@[simp] theorem TimeBase.holdoverTick_units (t : TimeBase) : t.holdoverTick.units = t.units := by
  unfold TimeBase.holdoverTick
  dsimp only
  split
  · split <;> rfl
  · rfl

/-- A tick whose active pair is good advances the time by the active increment. -/
theorem timeBaseTick_units (s : State) (good : pairGood 64 s.time.incActive.toNat s.time.incActiveC.toNat = true)
    (h : s.time.units + s.time.incActive.toNat < 2 ^ 48 * secondUnits) :
    ∃ u, exec .timeBaseTick s = .next u ∧ u.time.units = s.time.units + s.time.incActive.toNat := by
  have hi : s.time.increment = (s.time.incActive.toNat, 0) := by rw [TimeBase.increment, if_pos good]
  refine ⟨effTimeBaseTick s, rfl, ?_⟩
  simp only [effTimeBaseTick, hi, if_true, TimeBase.holdoverTick_units, TimeBase.ppsTick_units]
  exact TimeBase.advance_units _ _ h

/-! ### TimeQuality (R55) -/

/-- A change of TimeQuality is that field and an event. -/
theorem setQuality_only (s : State) (q : TimeQuality) :
    EventOnly { s with time := { s.time with quality := q } } (s.setQuality q) := by
  unfold State.setQuality
  split
  next h => subst h; exact EventOnly.rfl' s
  next => exact raise_only _ _

/-- What a change of TimeQuality makes of the time base. -/
@[simp] theorem setQuality_time (s : State) (q : TimeQuality) : (s.setQuality q).time = { s.time with quality := q } := by
  rw [(setQuality_only s q).eq]

/-! ### The write (R50) -/

/-- A write with the exact complement of a value in range rewrites both copies, starts the holdover timers anew, and lets TimeQuality
follow the refresh; beside the time base it raises at most an event. -/
theorem timeIncrementWrite_accepted (s : State) (v : W64) (lo : 0x1479D4D84 ≤ v.toNat) (hi : v.toNat ≤ 0x147BEDB72) :
    ∃ t, exec (.timeIncrementWrite v (~~~v)) s = .next t ∧
      t.time = { (s.time.accept v).refresh with quality := s.time.qualityAfterRefresh } ∧ EventOnly { s with time := t.time } t := by
  have hr : incrementInRange v.toNat = true := decide_eq_true ⟨lo, hi⟩
  have hw : s.writeIncrement v (~~~v) =
      ({ s with time := (s.time.accept v).refresh }.setQuality s.time.qualityAfterRefresh, rsNone) := by
    simp [State.writeIncrement, hr]
  have only := setQuality_only { s with time := (s.time.accept v).refresh } s.time.qualityAfterRefresh
  rw [← setQuality_time] at only
  exact ⟨_, congrArg (Host.Outcome.next ∘ Prod.fst) hw, setQuality_time _ _, only⟩

/-- A write with a wrong complement, or out of range, is refused and changes nothing. -/
theorem timeIncrementWrite_refused (s : State) (v c : W64) (h : c ≠ ~~~v ∨ v.toNat < 0x1479D4D84 ∨ 0x147BEDB72 < v.toNat) :
    exec (.timeIncrementWrite v c) s = .next s := by
  refine congrArg Host.Outcome.next (?_ : (s.writeIncrement v c).1 = s)
  unfold State.writeIncrement
  split
  next => rfl
  next hc =>
    have hv : v.toNat < 0x1479D4D84 ∨ 0x147BEDB72 < v.toNat := h.resolve_left hc
    have hr : incrementInRange v.toNat = false := decide_eq_false (by omega)
    rw [if_pos hr]

end Sys2Proof.Machine

open Sys2Proof Sys2Proof.Machine

/-- Settles O6: an accepted write leaves a good pair of the new value, so the next tick advances by it; every other write is refused. -/
theorem timeIncrementWrite : Obligations.TimeIncrementWrite := by
  refine fun s value comp => ⟨?_, timeIncrementWrite_refused s value comp⟩
  rintro rfl lo hi
  obtain ⟨t, ht, time, only⟩ := timeIncrementWrite_accepted s value lo hi
  refine ⟨t, ht, only.eq, ?_⟩
  have tick := timeBaseTick_units t
  rw [time] at tick ⊢
  exact ⟨rfl, rfl, rfl, rfl, rfl, tick (pairGood_complement value)⟩

end

section
/-!
SUPPORT. Operations that leave the time base as it was: one equation per operation, in the order of the model, up to the period boundary,
the automatic revert and the orders of the configuration versions (R49).
-/

namespace Sys2Proof.Machine

/-! ### Shapes of an operation -/

theorem time_ite {c : Prop} [Decidable c] {a b : State} {t : TimeBase} (ha : a.time = t) (hb : b.time = t) :
    (if c then a else b).time = t := by
  split <;> assumption

theorem time_iteFst {α : Type} {c : Prop} [Decidable c] {a b : State × α} {t : TimeBase} (ha : a.1.time = t) (hb : b.1.time = t) :
    (if c then a else b).1.time = t := by
  split <;> assumption

theorem time_fst {α : Type} {q : State × α} {s : State} {v : α} (h : q = (s, v)) : s.time = q.1.time := by rw [h]

/-- A fold whose step keeps the time base keeps it. -/
theorem time_foldl {α : Type} {f : State → α → State} (hf : ∀ s x, (f s x).time = s.time) (xs : List α) (s : State) :
    (xs.foldl f s).time = s.time := by
  induction xs generalizing s with
  | nil => rfl
  | cons x xs ih => exact (ih _).trans (hf s x)

section
variable {a0} {a1} {a3} {a4} {a5} {a6} {a7} {a8} {a9} {a10} {a11} {a12} {a13} {a14} {a15} {a16} {a17} {a18} {a19} {a20} {a21} {a22} {a23}
  {a24} {a25} {a26} {a27} {t : TimeBase}

/-- A record update has the time base it is given. Stated over variables, so that no other field is compared to see it. -/
theorem time_mk :
    (State.mk a0 a1 t a3 a4 a5 a6 a7 a8 a9 a10 a11 a12 a13 a14 a15 a16 a17 a18 a19 a20 a21 a22 a23 a24 a25 a26 a27).time = t := rfl

end

variable (s : State)

/-! ### Posted writes, host reads and events (R345, R347, R396) -/

@[simp] theorem State.discardPost_time (w) : (s.discardPost w).time = s.time := by
  unfold State.discardPost
  split <;> rfl

@[simp] theorem State.post_time (w) : (s.post w).time = s.time := by
  unfold State.post
  split
  · rfl
  · simp

@[simp] theorem State.translate_time (f address) : (s.translate f address).time = s.time := by
  unfold State.translate
  split <;> rfl

@[simp] theorem State.issueRead_time (f address length p) : (s.issueRead f address length p).time = s.time := by
  unfold State.issueRead
  refine time_ite rfl ?_
  dsimp only
  split
  · rfl
  · exact State.translate_time _ _ _

@[simp] theorem State.readCount_time (address length p) : (s.readCount address length p).time = s.time := by
  unfold State.readCount
  split
  · rfl
  · simp

@[simp] theorem State.readHostCounts_time : s.readHostCounts.time = s.time := by
  simp [State.readHostCounts, apply_ite State.time]

@[simp] theorem State.raiseIf_time (c e) : (s.raiseIf c e).time = s.time := by rw [(raiseIf_only s c e).eq]

@[simp] theorem State.raiseStatuses_time (sts c) : (s.raiseStatuses sts c).time = s.time := by rw [(raiseStatuses_only s sts c).eq]

@[simp] theorem State.noteWrap_time (area unit diff) : (s.noteWrap area unit diff).time = s.time := State.raiseIf_time s _ _

@[simp] theorem State.unmapped_time (address u) : (s.unmapped address u).time = s.time := raise_time s _

@[simp] theorem State.memEvent_time (c t kind symbols u cls) : (s.memEvent c t kind symbols u cls).time = s.time := raise_time s _

@[simp] theorem State.remoteEvent_time (m st applied) : (s.remoteEvent m st applied).time = s.time := raise_time s _

@[simp] theorem State.peerEvent_time (p) : (s.peerEvent p).time = s.time := raise_time s _

/-! ### Counters (R445 to R452) -/

@[simp] theorem State.countEngine_time (e place n) : (s.countEngine e place n).time = s.time := rfl

@[simp] theorem State.progEvent_time (host v) : (s.progEvent host v).time = s.time := rfl

@[simp] theorem State.progEngine_time (e c code amount address) : (s.progEngine e c code amount address).time = s.time := rfl

@[simp] theorem State.countRouted_time (e c lines) : (s.countRouted e c lines).time = s.time :=
  (time_foldl (fun s _ => s.progEvent_time _ _) _ _).trans (s.count_time _ _)

@[simp] theorem State.countLines_time (e c place code lines) : (s.countLines e c place code lines).time = s.time := by
  unfold State.countLines
  split
  · exact (time_foldl (fun s _ => s.progEngine_time _ _ _ _ _) _ _).trans (s.countEngine_time _ _ _)
  · rw [State.countRouted_time]
    exact (time_foldl (fun s _ => s.progEngine_time _ _ _ _ _) _ _).trans (s.countEngine_time _ _ _)

/-! ### Batches, engines and what stops them (R44, R45, R129, R423) -/

@[simp] theorem State.updEngine_time (e f) : (s.updEngine e f).time = s.time := rfl

@[simp] theorem State.setEctx_time (e c v) : (s.setEctx e c v).time = s.time := rfl

@[simp] theorem State.noteBatch_time (id st) : (s.noteBatch id st).time = s.time := rfl

@[simp] theorem State.endBatch_time (id st) : (s.endBatch id st).time = s.time := rfl

@[simp] theorem State.endBatches_time (ids st) : (s.endBatches ids st).time = s.time :=
  time_foldl (fun s _ => s.endBatch_time _ _) _ _

@[simp] theorem State.keepStatuses_time (c r) : (s.keepStatuses c r).time = s.time := by
  unfold State.keepStatuses
  split
  · exact time_foldl (fun s _ => s.noteBatch_time _ _) _ _
  · simp

@[simp] theorem State.keepContext_time (e c) : (s.keepContext e c).time = s.time :=
  time_foldl (fun s _ => s.keepStatuses_time _ _) _ _

@[simp] theorem State.keepEngine_time (e) : (s.keepEngine e).time = s.time :=
  time_foldl (fun s _ => s.keepContext_time _ _) _ _

@[simp] theorem State.killPartition_time (e c st owner) : (s.killPartition e c st owner).time = s.time := by
  unfold State.killPartition
  split
  · rfl
  · simp

@[simp] theorem State.killOn_time (e c st owner) : (s.killOn e c st owner).time = s.time :=
  (State.killPartition_time _ _ _ _ _).trans (s.countLines_time _ _ _ _ _)

@[simp] theorem State.killContext_time (c st owner) : (s.killContext c st owner).time = s.time :=
  time_foldl (fun s _ => s.killOn_time _ _ _ _) _ _

@[simp] theorem State.stopEngine_time (e) : (s.stopEngine e).time = s.time := by
  simp [State.stopEngine]

@[simp] theorem State.stopGroup_time (g) : (s.stopGroup g).time = s.time := by
  unfold State.stopGroup
  exact time_mk.trans (time_foldl (fun s _ => s.stopEngine_time _) _ _)

@[simp] theorem State.selfFence_time : s.selfFence.time = s.time := by
  unfold State.selfFence
  refine time_ite rfl ?_
  refine time_mk.trans ((State.endBatches_time _ _ _).trans ?_)
  exact (time_foldl (fun s _ => s.keepEngine_time _) _ _).trans (raise_time s _)

/-! ### Virtual functions: stale requests, flushes and resets (R354, R355) -/

@[simp] theorem State.countStale_time (f) : (s.countStale f).time = s.time := by
  unfold State.countStale
  split <;> rfl

@[simp] theorem State.flushInst_time (n) : (s.flushInst n).time = s.time := by
  unfold State.flushInst
  refine time_ite rfl (time_ite ?_ ?_) <;> simp

@[simp] theorem State.resetInst_time (n) : (s.resetInst n).time = s.time := by
  unfold State.resetInst
  refine time_ite rfl ((State.flushInst_time _ _).trans ?_)
  rw [State.setInst_time, State.setObj_time]
  exact time_mk.trans (time_foldl (fun s _ => s.killContext_time _ _ _) _ _)

@[simp] theorem State.resetAll_time : s.resetAll.time = s.time :=
  time_foldl (fun s _ => s.resetInst_time _) _ _

/-! ### Packets and operations of the fabric (R321 to R328, R337, R354) -/

@[simp] theorem State.enqueue_time (p q bytes origin) : (s.enqueue p q bytes origin).time = s.time := rfl

@[simp] theorem State.queuePacket_time (p n queueCls h payload) : (s.queuePacket p n queueCls h payload).time = s.time := by
  unfold State.queuePacket
  split
  · rfl
  · simp

@[simp] theorem State.sendUnnumbered_time (p queueCls h payload) : (s.sendUnnumbered p queueCls h payload).time = s.time := by
  unfold State.sendUnnumbered
  split
  · rfl
  · simp

@[simp] theorem State.sendReset_time (p) : (s.sendReset p).time = s.time := s.sendUnnumbered_time _ _ _ _

@[simp] theorem State.sendAck_time (p cls) : (s.sendAck p cls).time = s.time := s.sendUnnumbered_time _ _ _ _

@[simp] theorem State.dropStaleOps_time (p cls) : (s.dropStaleOps p cls).time = s.time := by
  unfold State.dropStaleOps
  exact time_ite rfl ((time_foldl (fun s _ => s.countStale_time _) _ _).trans (s.setPeer_time _ _))

@[simp] theorem State.sendRequest_time (p h payload) : (s.sendRequest p h payload).1.time = s.time := by
  unfold State.sendRequest
  refine time_iteFst rfl ?_
  split
  · rfl
  · exact s.queuePacket_time _ _ _ _ _

@[simp] theorem State.pump_time (p cls n) : (s.pump p cls n).time = s.time := by
  induction n generalizing s with
  | zero => rfl
  | succ n ih =>
    rw [State.pump]
    dsimp only
    split
    · simp
    · split
      · simp
      next h => rw [ih, State.setPeer_time, time_fst h, State.sendRequest_time, State.dropStaleOps_time]

@[simp] theorem State.issueOp_time (p o) : (s.issueOp p o).1.time = s.time := by
  unfold State.issueOp
  exact time_iteFst rfl ((State.pump_time _ _ _ _).trans (time_mk.trans (s.setPeer_time _ _)))

@[simp] theorem State.settleStream_time (p cls) : (s.settleStream p cls).time = s.time := by
  unfold State.settleStream
  exact time_ite rfl ((State.sendAck_time _ _ _).trans (s.setPeer_time _ _))

@[simp] theorem State.settleStreams_time : s.settleStreams.time = s.time :=
  time_foldl (fun _ _ => time_foldl (fun s _ => s.settleStream_time _ _) _ _) _ _

/-! ### Memory and its mirrors (R291 to R301, R341, R342, R359) -/

@[simp] theorem State.cacheMark_time (i device index) : (s.cacheMark i device index).time = s.time := rfl

@[simp] theorem State.markDevice_time (address) : (s.markDevice address).time = s.time := by
  refine time_foldl (fun s i => ?_) _ _
  refine time_ite ?_ rfl
  split
  · rfl
  · exact time_ite rfl (State.post_time _ _)

@[simp] theorem State.memError_time (c place) : (s.memError c place).time = s.time := rfl

@[simp] theorem State.putNear_time (address bytes mark) : (s.putNear address bytes mark).time = s.time := rfl

@[simp] theorem State.ackWrites_time (c t count status mirrored) : (s.ackWrites c t count status mirrored).time = s.time := by
  unfold State.ackWrites
  split <;> rfl

@[simp] theorem State.releaseMirror_time (segment) : (s.releaseMirror segment).time = s.time := by
  unfold State.releaseMirror
  split
  · rfl
  · dsimp only
    split <;> rfl

@[simp] theorem State.breakMirror_time (record) : (s.breakMirror record).time = s.time := by
  unfold State.breakMirror
  exact time_ite rfl ((time_foldl (fun s _ => s.releaseMirror_time _) _ _).trans ((raise_time _ _).trans time_mk))

@[simp] theorem State.pumpMirrors_time (n) : (s.pumpMirrors n).time = s.time := by
  induction n generalizing s with
  | zero => rfl
  | succ n ih =>
    rw [State.pumpMirrors]
    dsimp only
    split
    · rfl
    · split
      · rfl
      · refine time_ite ?_ ?_
        · rw [ih, State.breakMirror_time, raise_time]
        · exact (ih _).trans (time_mk.trans (s.issueOp_time _ _))

@[simp] theorem State.mirrorWrite_time (address length poison) : (s.mirrorWrite address length poison).time = s.time := by
  unfold State.mirrorWrite
  split
  · rfl
  · simp

@[simp] theorem State.commitSegment_time (c t address h) : (s.commitSegment c t address h).time = s.time := by
  simp [State.commitSegment]

@[simp] theorem State.refuseSegment_time (c t h) : (s.refuseSegment c t h).time = s.time := by
  simp [State.refuseSegment]

/-- The decoder: a segment that is lost marks it and raises an event; one of four or more erroneous symbols takes open values. -/
@[simp] theorem State.decodeSegment_time (c t address u cls) : (s.decodeSegment c t address u cls).1.time = s.time := by
  unfold State.decodeSegment
  split
  · rfl
  · simp
  · simp
  · refine time_iteFst rfl (time_iteFst ?_ (time_iteFst ?_ (time_iteFst ?_ rfl))) <;> simp

@[simp] theorem State.mergeSegment_time (c t address h u) : (s.mergeSegment c t address h u).time = s.time := by
  unfold State.mergeSegment
  dsimp only
  split <;> simp

@[simp] theorem State.writeInSegment_time (address bytes poison u cls) :
    (s.writeInSegment address bytes poison u cls).1.time = s.time := by
  unfold State.writeInSegment
  split
  · simp
  · refine time_iteFst ?_ (time_iteFst ?_ ?_) <;> simp

@[simp] theorem State.writeFar_time (address bytes poison u) : (s.writeFar address bytes poison u).1.time = s.time := by
  unfold State.writeFar
  split
  · simp
  · exact time_iteFst rfl ((State.mirrorWrite_time _ _ _ _).trans (time_mk.trans (s.markDevice_time _)))

@[simp] theorem State.writeSpan_time (address bytes poison u cls n) :
    (s.writeSpan address bytes poison u cls n).1.time = s.time := by
  induction n generalizing s address bytes with
  | zero => rfl
  | succ n ih =>
    rw [State.writeSpan]
    exact time_iteFst rfl ((ih _ _ _).trans (time_iteFst (s.writeInSegment_time _ _ _ _ _) (s.writeFar_time _ _ _ _)))

@[simp] theorem State.writeBytes_time (address bytes poison u cls) : (s.writeBytes address bytes poison u cls).1.time = s.time :=
  s.writeSpan_time _ _ _ _ _ _

@[simp] theorem State.readNearLine_time (c t address u cls) : (s.readNearLine c t address u cls).1.time = s.time := by
  unfold State.readNearLine
  refine time_iteFst rfl (time_iteFst rfl ?_)
  dsimp only
  split <;> simp

@[simp] theorem State.readLine_time (address u cls) : (s.readLine address u cls).1.time = s.time := by
  unfold State.readLine
  split
  · exact s.readNearLine_time _ _ _ _ _
  · split
    · simp
    · exact time_iteFst rfl (time_iteFst (raise_time s _) rfl)

@[simp] theorem State.readLines_time (address u cls n) : (s.readLines address u cls n).1.time = s.time := by
  induction n generalizing s address with
  | zero => rfl
  | succ n ih => exact (ih _ _).trans (s.readLine_time _ _ _)

@[simp] theorem State.readSpan_time (address length u cls) : (s.readSpan address length u cls).1.time = s.time := by
  unfold State.readSpan
  exact time_iteFst rfl (s.readLines_time _ _ _ _)

/-! ### Lines that arrive, and targets that acknowledge (R144, R148, R149) -/

@[simp] theorem State.landTile_time (e c serial tile) : (s.landTile e c serial tile).time = s.time := by
  unfold State.landTile
  exact time_ite rfl rfl

@[simp] theorem State.landLine_time (e c r f st bytes) : (s.landLine e c r f st bytes).time = s.time := by
  unfold State.landLine
  dsimp only
  refine time_ite (s.setEctx_time _ _ _) (time_ite (s.setEctx_time _ _ _) (time_ite ?_ (time_ite ?_ ?_)))
  · exact (State.landTile_time _ _ _ _ _).trans (s.setEngine_time _ _)
  · exact (raise_time _ _).trans ((State.countEngine_time _ _ _ _).trans (s.setEctx_time _ _ _))
  · exact (State.raiseIf_time _ _ _).trans ((State.landTile_time _ _ _ _ _).trans (s.setEngine_time _ _))

@[simp] theorem State.landSource_time (e c kind source st bytes) : (s.landSource e c kind source st bytes).time = s.time := by
  unfold State.landSource
  split <;> simp

@[simp] theorem State.ackTarget_time (e c kind target st) : (s.ackTarget e c kind target st).time = s.time := by
  unfold State.ackTarget
  dsimp only
  split <;> rfl

/-! ### The operation port and fences (R330 to R332, R336) -/

@[simp] theorem State.portResult_time (e c serial result st bytes) :
    (s.portResult e c serial result st bytes).time = s.time := by
  unfold State.portResult
  refine time_ite ?_ rfl
  rw [State.setEctx_time]
  exact time_iteFst rfl (s.writeBytes_time _ _ _ _ _)

@[simp] theorem State.returnLines_time (e c n) : (s.returnLines e c n).time = s.time := rfl

@[simp] theorem State.applyNotify_time (address value u cls) : (s.applyNotify address value u cls).time = s.time :=
  s.writeBytes_time _ _ _ _ _

@[simp] theorem State.applyAtomic_time (op address x y u cls) : (s.applyAtomic op address x y u cls).1.time = s.time := by
  simp [State.applyAtomic, apply_ite State.time]

@[simp] theorem State.issueDrawn_time (e c p o) : (s.issueDrawn e c p o).1.time = s.time := by
  unfold State.issueDrawn
  split
  · rfl
  next h => exact (time_fst h).trans (s.issueOp_time p o)

/-- A record of the port: applied at once in this module, or issued toward another one. -/
@[simp] theorem State.issueRecord_time (e c serial r) : (s.issueRecord e c serial r).1.time = s.time := by
  unfold State.issueRecord
  refine time_iteFst ?_ ?_
  · split
    · simp
    · refine time_iteFst ?_ (time_iteFst ?_ ?_) <;> simp
  · split <;> simp

@[simp] theorem State.pumpPort_time (e c n) : (s.pumpPort e c n).time = s.time := by
  induction n generalizing s with
  | zero => rfl
  | succ n ih =>
    rw [State.pumpPort]
    split
    · rfl
    · split
      · rfl
      · refine time_ite rfl ?_
        split
        · rfl
        next h => rw [ih, State.setEctx_time, time_fst h, State.issueRecord_time]

@[simp] theorem State.pumpPorts_time : s.pumpPorts.time = s.time := by
  refine time_foldl (fun _ _ => time_foldl (fun s _ => ?_) _ _) _ _
  split
  · rfl
  · simp

@[simp] theorem State.finishFence_time (f missing) : (s.finishFence f missing).time = s.time :=
  (State.portResult_time _ _ _ _ _ _ _).trans time_mk

@[simp] theorem State.settleFences_time : s.settleFences.time = s.time :=
  time_foldl (fun s _ => s.finishFence_time _ _) _ _

/-! ### How an operation of the fabric ends (R324, R332, R337, R339, R341) -/

@[simp] theorem State.stopSend_time (e c serial destination sts) : (s.stopSend e c serial destination sts).time = s.time := rfl

@[simp] theorem State.sendEnded_time (e c serial destination notify st) :
    (s.sendEnded e c serial destination notify st).time = s.time := by
  unfold State.sendEnded
  exact time_ite rfl rfl

@[simp] theorem State.mirrorEnded_time (record o st) : (s.mirrorEnded record o st).time = s.time := by
  unfold State.mirrorEnded
  refine (State.settleStreams_time _).trans ((State.pumpMirrors_time _ _).trans ?_)
  split
  · rfl
  · exact time_ite (s.breakMirror_time _) ((State.releaseMirror_time _ _).trans time_mk)

@[simp] theorem State.completeOp_time (p o reported value mask data) :
    (s.completeOp p o reported value mask data).time = s.time := by
  unfold State.completeOp
  refine (State.pumpPorts_time _).trans ((State.settleFences_time _).trans ?_)
  split
  · exact time_ite (time_foldl (fun s _ => s.landSource_time _ _ _ _ _ _) _ _) (time_foldl (fun s _ => s.ackTarget_time _ _ _ _ _) _ _)
  · simp
  · simp
  · simp

@[simp] theorem State.loseOpAs_time (p o st applied) : (s.loseOpAs p o st applied).time = s.time := by
  unfold State.loseOpAs
  have noted : ∀ x, ((s.setPeer p x).remoteEvent (gaModule o.address.toNat) st applied).time = s.time := fun x =>
    (State.remoteEvent_time _ _ _ _).trans (s.setPeer_time p x)
  exact (State.completeOp_time _ _ _ _ _ _ _).trans (time_ite ((State.fabricStat_time _ _).trans (noted _)) (noted _))

@[simp] theorem State.loseOp_time (p o) : (s.loseOp p o).time = s.time := s.loseOpAs_time _ _ _ _

@[simp] theorem State.loseOps_time (p) : (s.loseOps p).time = s.time :=
  time_foldl (fun s _ => s.loseOp_time _ _) _ _

@[simp] theorem effPeerDead_time (p) : (effPeerDead p s).time = s.time := by
  unfold effPeerDead
  refine time_ite rfl ((State.settleStreams_time _).trans ((time_foldl (fun s _ => s.breakMirror_time _) _ _).trans ?_))
  simp

/-! ### The audit of the ledgers (R401, R402) -/

@[simp] theorem State.poolStops_time (p) : (s.poolStops p).time = s.time := by
  unfold State.poolStops
  refine time_ite (s.stopGroup_time _) (time_ite s.selfFence_time (time_ite (s.stopEngine_time _)
    (time_ite (s.setInst_time _ _) (time_ite ?_ ?_))))
  · exact time_foldl (fun s _ => s.setPort_time _ _) _ _
  · exact effPeerDead_time s _

@[simp] theorem State.auditPool_time (p) : (s.auditPool p).time = s.time := by
  unfold State.auditPool
  dsimp only
  simp [apply_ite State.time]

@[simp] theorem State.auditLedgers_time : s.auditLedgers.time = s.time := by
  unfold State.auditLedgers
  exact time_ite rfl (time_foldl (fun s _ => time_ite rfl (s.auditPool_time _)) _ _)

/-! ### Groups (R26, R27) -/

@[simp] theorem State.ungateFor_time (t) : (s.ungateFor t).time = s.time := rfl

@[simp] theorem State.fillGroupPools_time (g) : (s.fillGroupPools g).time = s.time := rfl

@[simp] theorem State.ungateGroups_time (t) : (s.ungateGroups t).time = s.time :=
  (time_foldl (fun s _ => s.fillGroupPools_time _) _ _).trans (s.ungateFor_time _)

@[simp] theorem effGroupGate_time (g) : (effGroupGate g s).time = s.time := by
  unfold effGroupGate
  exact time_ite rfl rfl

@[simp] theorem State.regateGroups_time (t) : (s.regateGroups t).time = s.time :=
  time_foldl (fun s _ => effGroupGate_time s _) _ _

/-! ### The activation of a version (R77, R98, R129, R308, R339, R342) -/

@[simp] theorem State.dropContext_time (c) : (s.dropContext c).time = s.time :=
  (State.killContext_time _ _ _ _).trans (s.endBatches_time _ _)

@[simp] theorem State.activateIslands_time (t) : (s.activateIslands t).time = s.time :=
  time_foldl (fun s _ => s.setIsland_time _ _) _ _

@[simp] theorem State.loseSynce_time : s.loseSynce.time = s.time := rfl

@[simp] theorem State.activatePorts_time (t) : (s.activatePorts t).time = s.time := by
  unfold State.activatePorts
  exact (State.loseSynce_time _).trans time_mk

@[simp] theorem State.activateLatencies_time (t) : (s.activateLatencies t).time = s.time :=
  time_foldl (fun s _ => time_ite rfl (time_mk.trans (s.setObj_time _ _ _ _))) _ _

@[simp] theorem State.activateRegions_time (old new) : (s.activateRegions old new).time = s.time := rfl

@[simp] theorem State.dropPeers_time (t) : (s.dropPeers t).time = s.time := by
  refine time_foldl (fun s _ => ?_) _ _
  split
  · rfl
  · simp

@[simp] theorem State.activatePeers_time (old new) : (s.activatePeers old new).time = s.time := rfl

@[simp] theorem State.activateMirrors_time (old new) : (s.activateMirrors old new).time = s.time := by
  unfold State.activateMirrors
  exact (time_foldl (fun s _ => s.releaseMirror_time _) _ _).trans time_mk

@[simp] theorem State.takeOver_time (t) : (s.takeOver t).time = s.time := by
  simp [State.takeOver, time_foldl]

@[simp] theorem State.activateCommit_time : s.activateCommit.time = s.time := by
  unfold State.activateCommit
  exact time_mk.trans (s.takeOver_time _)

@[simp] theorem State.activateRevert_time : s.activateRevert.time = s.time := by
  unfold State.activateRevert
  exact time_mk.trans (s.takeOver_time _)

@[simp] theorem State.activateDue_time : s.activateDue.time = s.time := by
  unfold State.activateDue
  refine time_ite s.activateRevert_time ?_
  split
  · refine time_ite rfl ?_
    split <;> simp
  · rfl

/-! ### The period boundary and the automatic revert (R97, R383, R422, R451, R455) -/

@[simp] theorem State.snapshots_time : s.snapshots.time = s.time := by
  unfold State.snapshots
  exact time_ite rfl rfl

@[simp] theorem State.applyControls_time : s.applyControls.time = s.time := rfl

@[simp] theorem State.storeSettings_time : s.storeSettings.time = s.time := rfl

@[simp] theorem State.expelNow_time : s.expelNow.time = s.time := by
  unfold State.expelNow
  rw [State.storeSettings_time, raise_time, State.resetAll_time]

@[simp] theorem State.readmitNow_time : s.readmitNow.time = s.time := by
  unfold State.readmitNow
  rw [State.storeSettings_time, raise_time]
  refine (time_foldl (fun s q => ?_) _ _).trans time_mk
  rw [State.sendReset_time, State.setPeer_time, State.loseOps_time]

@[simp] theorem State.ordersDue_time : s.ordersDue.time = s.time := by
  unfold State.ordersDue
  split
  · exact time_ite rfl (time_ite s.expelNow_time s.readmitNow_time)
  · rfl

@[simp] theorem State.noteRadioReady_time : s.noteRadioReady.time = s.time := rfl

@[simp] theorem State.beginPeriod_time : s.beginPeriod.time = s.time := by
  unfold State.beginPeriod
  exact time_mk

theorem effPeriodBoundary_time : (effPeriodBoundary s).time = s.time := by
  unfold effPeriodBoundary
  refine time_ite rfl ?_
  simp [apply_ite State.time]

theorem effAutoRevert_time : (effAutoRevert s).time = s.time := by
  unfold effAutoRevert
  exact time_ite s.activateRevert_time rfl

/-! ### The orders of a version (R381, R385) -/

@[simp] theorem State.noteNumber_time (r) : (s.noteNumber r).time = s.time := by
  unfold State.noteNumber
  split <;> simp

@[simp] theorem State.commitVersion_time (version) : (s.commitVersion version).1.time = s.time := by
  unfold State.commitVersion
  refine time_iteFst (s.noteNumber_time _) (time_iteFst rfl ?_)
  split
  · exact time_mk
  · exact (State.ungateGroups_time _ _).trans time_mk

@[simp] theorem State.revertVersion_time (version) : (s.revertVersion version).1.time = s.time := by
  have noted := s.noteNumber_time s.vers.activeRead
  unfold State.revertVersion
  refine time_iteFst noted (time_iteFst ?_ (time_iteFst noted (time_iteFst noted ?_)))
  · exact (State.regateGroups_time _ _).trans (time_mk.trans noted)
  · exact (State.ungateGroups_time _ _).trans (time_mk.trans noted)

@[simp] theorem State.confirmVersion_time (version flashGood) : (s.confirmVersion version flashGood).1.time = s.time := by
  have noted := s.noteNumber_time s.vers.activeRead
  unfold State.confirmVersion
  have wrapped := ((s.noteNumber s.vers.activeRead).noteWrap_time 0x10 controlUnit s.vers.slotOrder).trans noted
  refine time_iteFst noted (time_iteFst ?_ (time_iteFst noted (time_iteFst (time_mk.trans wrapped) (time_mk.trans wrapped))))
  exact (State.noteWrap_time _ _ _ _).trans noted

@[simp] theorem State.configCommand_time (v flashGood) : (s.configCommand v flashGood).1.time = s.time := by
  unfold State.configCommand
  refine time_iteFst rfl ?_
  split <;> simp

/-! ### A WRITE of ConfigCommand (R367, R368, R381) -/

theorem findObject_mem {index sub : Nat} {o : ObjInfo} (h : findObject index sub = some o) : o ∈ catalogue :=
  List.mem_of_find?_eq_some h

theorem findObject_index {index sub : Nat} {o : ObjInfo} (h : findObject index sub = some o) : o.index = index := by
  have := List.find?_some h
  simp only [Bool.and_eq_true, beq_iff_eq] at this
  exact this.1

/-- ConfigCommand is a command: a write of it stores nothing. -/
theorem configCommand_wo : ∀ o ∈ catalogue, o.index = 0x100A → o.cls = .wo := by decide +kernel

/-- The fields of a request block from Length up (R368), the lowest at bit 0. -/
def State.writeFields (s : State) (who : Requester) (index sub offset length : Nat) : Nat :=
  2 * 2 ^ 120 + b2n (!ofSession who && decide (inlineLimit who < length)) * 2 ^ 117 + index * 2 ^ 96 + sub * 2 ^ 88 +
  (s.nextSequence who).toNat * 2 ^ 64 + offset * 2 ^ 32 + length

theorem State.writeBlock_eq (who : Requester) (index sub offset length : Nat) :
    s.writeBlock who index sub offset length = s.writeFields who index sub offset length * 2 ^ 384 := by
  simp only [State.writeBlock, State.writeFields, Nat.add_mul, Nat.mul_assoc, ← Nat.pow_add, Nat.reduceAdd]

theorem State.writeBlock_shift (who : Requester) (index sub offset length k : Nat) :
    s.writeBlock who index sub offset length >>> (384 + k) = s.writeFields who index sub offset length >>> k := by
  rw [Nat.shiftRight_add, State.writeBlock_eq, Nat.shiftRight_eq_div_pow _ 384, Nat.mul_div_cancel _ (Nat.two_pow_pos 384)]

section
variable (who : Requester) {index sub offset length : Nat}
  (hi : index < 2 ^ 16) (hs : sub < 2 ^ 8) (ho : offset < 2 ^ 32) (hl : length < 2 ^ 32)
include hi hs ho hl

theorem rqOpcode_writeBlock : rqOpcode (s.writeBlock who index sub offset length) = 2 := by
  have hq := (s.nextSequence who).isLt
  have hb : b2n (!ofSession who && decide (inlineLimit who < length)) ≤ 1 := by unfold b2n; split <;> decide
  rw [rqOpcode, bits, show 504 = 384 + 120 from rfl, State.writeBlock_shift, Nat.shiftRight_eq_div_pow, State.writeFields]
  omega

theorem rqIndex_writeBlock : rqIndex (s.writeBlock who index sub offset length) = index := by
  have hq := (s.nextSequence who).isLt
  rw [rqIndex, bits, show 480 = 384 + 96 from rfl, State.writeBlock_shift, Nat.shiftRight_eq_div_pow, State.writeFields]
  omega

end

theorem State.command_configCommand_time (offset data flashGood) : (s.command 0x100A offset data flashGood).1.time = s.time :=
  s.configCommand_time _ _

theorem State.writeObject_configCommand_time (who r data flashGood) {o : ObjInfo} (index : o.index = 0x100A) (cls : o.cls = .wo) :
    (s.writeObject who o r data flashGood).1.time = s.time := by
  have done := fun bytes => s.command_configCommand_time (rqOffset r) bytes flashGood
  unfold State.writeObject
  rw [index, cls]
  refine time_iteFst rfl (time_iteFst rfl (time_iteFst rfl (time_iteFst rfl (time_iteFst ?_ ?_)))) <;> exact done _

/-- A WRITE of ConfigCommand is refused, or is one of the orders of a version. -/
theorem State.serveRequest_configCommand_time (who data dma flashGood) {r : Nat} (write : rqOpcode r = 2) (index : rqIndex r = 0x100A) :
    (s.serveRequest who r data dma flashGood).1.time = s.time := by
  unfold State.serveRequest
  refine time_iteFst rfl (time_iteFst rfl ?_)
  split
  · rfl
  next o found =>
    have hi : o.index = 0x100A := (findObject_index found).trans index
    have hc : o.cls = .wo := configCommand_wo o (findObject_mem found) hi
    rw [write]
    exact time_iteFst rfl (time_iteFst rfl (s.writeObject_configCommand_time _ _ _ _ hi hc))

/-! ### Requests of any requester (R367, R371, R394) -/

@[simp] theorem State.countRequest_time (refused) : (s.countRequest refused).time = s.time := rfl

@[simp] theorem State.answerWindow_time (who sequence a inl) : (s.answerWindow who sequence a inl).time = s.time := rfl

@[simp] theorem State.startUnserved_time (who sequence) : (s.startUnserved who sequence).time = s.time := by
  unfold State.startUnserved
  exact time_ite time_mk time_mk

@[simp] theorem State.keeperOut_time (q) : (s.keeperOut q).time = s.time := rfl

@[simp] theorem State.keeperTransmit_time (dest q) : (s.keeperTransmit dest q).time = s.time := by
  unfold State.keeperTransmit
  split
  · simp
  · exact time_ite (s.keeperOut_time _) (time_ite time_mk ((State.keeperOut_time _ _).trans time_mk))

@[simp] theorem State.sendSecured_time (x data) : (s.sendSecured x data).time = s.time := s.keeperTransmit_time _ _

theorem State.windowRequest_time {who r data dma flashGood} (served : (s.serveRequest who r data dma flashGood).1.time = s.time) :
    (s.windowRequest who r data dma flashGood).time = s.time := by
  unfold State.windowRequest
  refine time_ite rfl (time_ite (s.startUnserved_time _ _) ?_)
  rw [State.answerWindow_time]
  have counted := fun b => (State.countRequest_time _ b).trans served
  exact time_ite ((State.post_time _ _).trans (counted _)) (counted _)

theorem State.securedRequest_time {k r data flashGood}
    (served : ∀ s : State, (s.serveRequest (.keeper k) r data .good flashGood).1.time = s.time) :
    (s.securedRequest k r data flashGood).time = s.time := by
  unfold State.securedRequest
  refine time_ite rfl (time_ite (s.keeperStat_time _) (time_ite ?_ (time_ite ?_ ?_)))
  · simp
  · simp
  · have counted := fun x b => (State.countRequest_time _ b).trans ((served (s.setSession k x)).trans (s.setSession_time k x))
    rw [State.sendSecured_time]
    exact time_ite ((State.setSession_time _ _ _).trans (counted _ _)) (counted _ _)

/-- A request whose service keeps the time base, from whatever state, keeps it. -/
theorem effRequest_time {who opcode r data dma flashGood}
    (served : ∀ (s : State) (dma : ReadResult), (s.serveRequest who r data dma flashGood).1.time = s.time) :
    (effRequest who opcode r data dma flashGood s).time = s.time := by
  unfold effRequest
  refine time_ite rfl ?_
  split
  · exact s.securedRequest_time (fun s => served s .good)
  · exact s.windowRequest_time (served s dma)

/-- An order of a version, by whichever requester. -/
theorem State.order_configCommand_time (who : Requester) {data : List Byte} (flashGood : Bool) (h : data.length < 2 ^ 32) :
    (s.order who 0x100A 0 0 data flashGood).time = s.time :=
  effRequest_time s (fun s' dma => s'.serveRequest_configCommand_time who data dma flashGood
    (rqOpcode_writeBlock s who (by decide) (by decide) (by decide) h) (rqIndex_writeBlock s who (by decide) (by decide) (by decide) h))

end Sys2Proof.Machine

open Sys2Proof Sys2Proof.Machine

/-- Settles O12: an order is a WRITE of ConfigCommand, and neither it nor an activation has an operation that writes the time base. -/
theorem versionsKeepTime : Obligations.VersionsKeepTime := by
  refine ⟨by decide +kernel, ⟨_, rfl, rfl⟩, fun s who n i hi => ?_⟩
  simp only [List.mem_cons, List.not_mem_nil, or_false] at hi
  have h8 : ∀ x, (leBytes 8 x).length < 2 ^ 32 := fun _ => (by decide : 8 < 2 ^ 32)
  obtain rfl | rfl | rfl | rfl := hi
  · exact ⟨_, rfl, s.order_configCommand_time who _ (h8 _)⟩
  · exact ⟨_, rfl, s.order_configCommand_time who _ (h8 _)⟩
  · exact ⟨_, rfl, effPeriodBoundary_time s⟩
  · exact ⟨_, rfl, effAutoRevert_time s⟩

end

section
/-!
SUPPORT. The test access port under IDCODE (R468, R470).
-/

namespace Sys2Proof.Machine

/-- While the rails are up, the port takes the instruction and nothing else of the module changes. -/
theorem State.loadTap_powered {s : State} (powered : s.start.powered = true) (t : Tap) : s.loadTap t = { s with tap := t } :=
  if_pos powered

/-- IDCODE selects its register, whose bits are shifted out, and the pads are left to the part. -/
theorem exec_idcode_powered {s : State} (powered : s.start.powered = true) :
    exec .idcode s = .next { s with
      tap := { s.tap with instruction := 0x01, out := (List.range 32).map (bit idcodeValue), drive := s.padsIdle } } :=
  congrArg Host.Outcome.next (State.loadTap_powered powered _)

/-- A register shifted out lowest bit first has its bit k at place k. -/
theorem shiftOut_getElem? {n k : Nat} (x : BitVec n) (hk : k < n) :
    ((List.range n).map (bit x.toNat))[k]? = some (x.getLsbD k) := by
  rw [List.getElem?_map, List.getElem?_range hk]
  rfl

end Sys2Proof.Machine

open Sys2Proof Sys2Proof.Machine

/-- Settles O60: the port shifts out the register bit by bit, and the register's four fields are those of stepping B0. -/
theorem idcodeReads : Obligations.IdcodeReads := by
  intro s powered
  have fields : (0x292005E7#32).extractLsb 31 28 = 0x2 ∧ (0x292005E7#32).extractLsb 27 12 = 0x9200 ∧
      (0x292005E7#32).extractLsb 11 1 = 0x2F3 ∧ (0x292005E7#32).getLsbD 0 = true := by decide
  exact ⟨_, exec_idcode_powered powered, rfl, by rw [List.length_map, List.length_range],
    fun _ hk => shiftOut_getElem? 0x292005E7#32 hk, fields⟩

end
